-- ==== Sys2Proof/Word.lean ====
section
/-! DEFINITION. The word types of the Criaro (R6: little-endian data; R123: 64-bit registers) and the sparse
table in which every indexed register array and every memory is held. -/

namespace Sys2Proof

/-- One byte of memory, of a descriptor or of a record. -/
abbrev Byte := BitVec 8

/-- A 32-bit word: an FP32 code, a half of a register, a semaphore count. -/
abbrev Word32 := BitVec 32

/-- A 64-bit word: a set-up register, a scalar register, an instruction word. -/
abbrev Word := BitVec 64

/-- A sparse table from indices to values. An index that is not listed holds the table's default, which the
reader supplies. Canonical form: indices strictly rising, no entry equal to the default. -/
abbrev Tbl (α : Type) := List (Nat × α)

namespace Tbl

variable {α : Type}

/-- The value at index `k`, `d` where none is listed. -/
def get (d : α) : Tbl α → Nat → α
  | [], _ => d
  | (i, a) :: t, k => if i = k then a else get d t k

/-- The table without index `k`. -/
def erase : Tbl α → Nat → Tbl α
  | [], _ => []
  | (i, a) :: t, k => if i = k then erase t k else (i, a) :: erase t k

/-- The table with the entry `(k, v)` put in its place among rising indices; an entry for `k` is replaced. -/
def insert : Tbl α → Nat → α → Tbl α
  | [], k, v => [(k, v)]
  | (i, a) :: t, k, v =>
    if k < i then (k, v) :: (i, a) :: t
    else if k = i then (k, v) :: t
    else (i, a) :: insert t k v

/-- The table with index `k` holding `v`: writing the default removes the entry. -/
def set [DecidableEq α] (d : α) (t : Tbl α) (k : Nat) (v : α) : Tbl α :=
  if v = d then erase t k else insert t k v

/-- The table with `f` applied to the value at index `k`. -/
def modify [DecidableEq α] (d : α) (t : Tbl α) (k : Nat) (f : α → α) : Tbl α :=
  set d t k (f (get d t k))

/-- The indices rise strictly and each is above `lo`. -/
def rising : Nat → Tbl α → Bool
  | _, [] => true
  | lo, (i, _) :: t => decide (lo ≤ i) && rising (i + 1) t

/-- The canonical form: indices strictly rising and no entry equal to the default. -/
def wf [DecidableEq α] (d : α) (t : Tbl α) : Bool :=
  rising 0 t && t.all fun e => decide (e.2 ≠ d)

/-- The entries whose index fails the test are kept; used to clear a range. -/
def clear (t : Tbl α) (p : Nat → Bool) : Tbl α :=
  t.filter fun e => !p e.1

end Tbl

end Sys2Proof
end

