-- ==== Sys2Proof/Syntax.lean ====
section
/-! DEFINITION. The commands of the Criaro (opcode_table.json), each with the operands that come with it from outside:
the core, the descriptor slot, the register value written, the cell or the message that arrives, what a sensor reads. -/

namespace Sys2Proof

/-- Bytes at addresses, as they come with a command: what the host has stored, what other rooms answered. -/
abbrev Cells := List (Nat × Byte)

/-- A fabric cell (R360): header fields and payload bytes; `e2e` is the checksum word it carries. -/
structure Cell where
  dstHouse : Nat
  dstRoom : Nat
  dstUnit : Nat
  srcHouse : Nat
  srcRoom : Nat
  srcUnit : Nat
  hops : Nat
  spills : Nat
  ty : Nat
  old : Bool
  epoch : Bool
  retry : Bool
  pass : Bool
  tag : Nat
  len : Nat
  aux : Nat
  addr : Nat
  weight : Nat
  payload : List Byte
  e2e : Word32
  deriving DecidableEq, Repr

/-- What an array self-test finds (R118): faulty cells of one physical row, with their column when they lie in one; a row
path; a column's reduction or output path; an unused spare line. -/
inductive ArrayFault where
  | cells (row : Nat) (col : Option Nat)
  | rowPath (row : Nat)
  | colPath (col : Nat)
  | spareRow (row : Nat)
  | spareCol (col : Nat)
  deriving DecidableEq, Repr

/-- A message between a POOL_OP and the Pantry of another room (R327): its number at the room that asks, the pool, the operation (0 ALLOC, 1 REF,
2 UNREF, 3 the answer), how many, the handles, in the answer to an ALLOC the buffers' addresses, and whether all of it was applied. The spec gives
its meaning and not its bytes. -/
structure PoolMsg where
  id : Nat
  pool : Nat
  op : Nat
  n : Nat
  handles : List Nat
  addrs : List Nat
  applied : Bool
  deriving DecidableEq, Repr

/-- A bulk message as it arrives (R406): the port it came on, its source and destination, its header and the cells it contains. -/
structure BulkMsg where
  port : Nat
  srcHouse : Nat
  srcRoom : Nat
  dstHouse : Nat
  dstRoom : Nat
  kind : Nat
  seq : Nat
  count : Nat
  reset : Bool
  engine : Nat
  crc : Nat
  arg0 : Nat
  arg1 : Nat
  cells : List Cell
  deriving DecidableEq, Repr

/-- A cell that arrives on a house port in a slot; `full` says that the memory die's ingress refuses it (R370). -/
structure Arrival where
  port : Nat
  cell : Cell
  full : Bool
  deriving DecidableEq, Repr

/-- The form of a token row: its elements, their type code, and whether MX scales go with it (R303). -/
structure RowFmt where
  cols : Nat
  ty : Nat
  mx : Bool
  deriving DecidableEq, Repr

/-- What an instance decides about a choice (R282, R291, R298, R320): the receive row and the handle of its buffer, or why not. -/
inductive Verdict where
  | granted (row handle : Nat)
  | full | invalid | skew | late
  deriving DecidableEq, Repr

/-- The answer to a count message (R284): the offset of each rank, the capacity left, the rows filled before, the handle of the buffer. -/
inductive Offsets where
  | given (offs : List (Nat × Nat)) (left base handle : Nat)
  | refused (v : Verdict)
  deriving DecidableEq, Repr

/-- What a message of a Sluice says. Experts and instances are named as the placement table numbers them; `store` is the place of the choice's
route record in its source's store, `ver` the source's `place_ver`. -/
inductive SluBody where
  | reserve (token rank expert inst ver : Nat) (fmt : RowFmt)
  | reply (token rank : Nat) (v : Verdict)
  | counts (step expert inst ver peers : Nat) (fmt : RowFmt) (ranks : List (Nat × Nat))
  | offsets (step expert inst : Nat) (o : Offsets)
  | row (slot row token rank store ver : Nat) (fmt : RowFmt) (elems scales : List Byte)
  | brow (slot row token rank store : Nat) (fmt : RowFmt) (elems scales : List Byte)
  | done (phase : Nat)
  | answer (phase slot row store : Nat) (fmt : RowFmt) (elems scales : List Byte)
  | ack (phase slot row : Nat)
  deriving DecidableEq, Repr

/-- A message of a Sluice: the room that sends it, the layer and the generation (R282, R284, R301, R317). The spec gives what it says and not
its bytes. -/
structure SluMsg where
  house : Nat
  room : Nat
  layer : Nat
  gen : Nat
  body : SluBody
  deriving DecidableEq, Repr

/-- What a chunk of a contribution carries (R420, R431): elements present with their FP32 codes; TOPK's entries, element and BF16 code; SIGN's
scale and its bits. -/
inductive ChunkData where
  | full (elems : List (Nat × Nat))
  | topk (entries : List (Nat × Nat))
  | sign (scale : Nat) (bits : List Byte)
  deriving DecidableEq, Repr

/-- A chunk by its number in its shard (R419). -/
structure Chunk where
  index : Nat
  data : ChunkData
  deriving DecidableEq, Repr

/-- What a message of a collective engine says: a chunk of a contribution that has `total` of them, none when it has no present chunk,
with the members a relay closed without (R430); the reply
to a contribution, 0 ON_TIME, 1 LATE_CARRIED, 2 LATE_DROPPED (R427); a probe (R428); a GATHER's asking for a range of another house, and its
refusal there (R392, R414). -/
inductive ColBody where
  | chunk (relay : Bool) (total : Nat) (absent : List (Nat × Nat)) (c : Option Chunk)
  | reply (relay : Bool) (r : Nat)
  | probe
  | ask (addr len : Nat)
  | deny (addr len : Nat)
  deriving DecidableEq, Repr

/-- A message of a collective engine: the room that sends it, the key and step of the REDUCE, the entry of the shard in the owner table. -/
structure ColMsg where
  house : Nat
  room : Nat
  key : Nat
  step : Nat
  shard : Nat
  body : ColBody
  deriving DecidableEq, Repr

/-- A message of a unit. -/
inductive UnitBody where
  | slu (m : SluMsg)
  | col (m : ColMsg)
  deriving DecidableEq, Repr

/-- A range of this room's memory that another house's GATHER asks for (R414). -/
structure ShardAsk where
  house : Nat
  room : Nat
  off : Nat
  len : Nat
  deriving DecidableEq, Repr

/-- What another house's collective engine answers a GATHER of this room's: the bytes at an address of its own, or, with none, a refusal (R392, R414). -/
structure ShardData where
  addr : Nat
  bytes : Option (List Byte)
  deriving DecidableEq, Repr

/-- An instruction of the test access port (R523). -/
inductive TapOp where
  | bypass | idcode | sample | extest | other
  deriving DecidableEq, Repr

/-- What a port reports as it trains (R358): its number, the far end's house, room and port, and whether the far end is half rate. -/
structure PortUp where
  port : Fin 40
  house : Fin 65536
  room : Fin 32
  far : Fin 64
  slow : Bool
  deriving DecidableEq, Repr

/-- The commands of the Criaro: one constructor for each row of the spec's table of operations and events. A row of a
core instruction names the physical core whose control unit issues it; the instruction word is the one at that core's
program counter (R122, R134). -/
inductive Instr where
  /-- ADD (R135): Scalar instruction that writes a + b into rd, wrapping modulo 2^64. -/
  | add (k : Fin 256)
  /-- SUB (R135): Scalar instruction that writes a − b into rd. -/
  | sub (k : Fin 256)
  /-- MUL (R135): Scalar instruction that writes the low 64 bits of a × b into rd. -/
  | mul (k : Fin 256)
  /-- MULHU (R135): Scalar instruction that writes the high 64 bits of the unsigned product into rd. -/
  | mulhu (k : Fin 256)
  /-- AND (R135): Scalar instruction that writes the bitwise and of a and b into rd. -/
  | and (k : Fin 256)
  /-- OR (R135): Scalar instruction that writes the bitwise or of a and b into rd. -/
  | or (k : Fin 256)
  /-- XOR (R135): Scalar instruction that writes the bitwise xor of a and b into rd. -/
  | xor (k : Fin 256)
  /-- SHL (R135): Scalar instruction that shifts a left by b[5:0]. -/
  | shl (k : Fin 256)
  /-- SHR (R135): Scalar instruction that shifts a right by b[5:0] with zero fill. -/
  | shr (k : Fin 256)
  /-- SAR (R135): Scalar instruction that shifts a right by b[5:0] with sign fill. -/
  | sar (k : Fin 256)
  /-- SLT (R135): Scalar instruction that writes 1 when a < b signed, else 0. -/
  | slt (k : Fin 256)
  /-- SLTU (R135): Scalar instruction that writes 1 when a < b unsigned, else 0. -/
  | sltu (k : Fin 256)
  /-- MIN (R135): Scalar instruction that writes the signed minimum of a and b. -/
  | min (k : Fin 256)
  /-- MAX (R135): Scalar instruction that writes the signed maximum of a and b. -/
  | max (k : Fin 256)
  /-- MOVHI (R135): Scalar instruction that places imm32 in bits [63:32] over a[31:0]. -/
  | movhi (k : Fin 256)
  /-- GETS (R135): Scalar instruction that reads a special value (cycle count, core, epoch, context, tag) into rd. -/
  | gets (k : Fin 256)
  /-- BEQ (R136): Branch to pc + off when ra equals rb. -/
  | beq (k : Fin 256)
  /-- BNE (R136): Branch to pc + off when ra differs from rb. -/
  | bne (k : Fin 256)
  /-- BLT (R136): Branch to pc + off when ra < rb signed. -/
  | blt (k : Fin 256)
  /-- BGE (R136): Branch to pc + off when ra ≥ rb signed. -/
  | bge (k : Fin 256)
  /-- BLTU (R136): Branch to pc + off when ra < rb unsigned. -/
  | bltu (k : Fin 256)
  /-- BGEU (R136): Branch to pc + off when ra ≥ rb unsigned. -/
  | bgeu (k : Fin 256)
  /-- JAL (R136): Writes pc + 1 into rd and jumps to pc + off. -/
  | jal (k : Fin 256)
  /-- JR (R136): Jumps to ra + off. -/
  | jr (k : Fin 256)
  /-- TRAP (R136): Raises a program fault with cause 0x07. -/
  | trap (k : Fin 256)
  /-- END (R137): Ends the program on this core once earlier work, syncs and own dips are done, freeing its handles. -/
  | endProg (k : Fin 256)
  /-- SLD (R138): Loads 1–8 bytes from ra + imm32 into rd, which stays pending until the value arrives. -/
  | sld (k : Fin 256)
  /-- SST (R138): Stores the low bytes of rb to ra + imm32. -/
  | sst (k : Fin 256)
  /-- AMO_SWAP (R347): Atomic that writes rb and returns the old 8-byte value. -/
  | amoSwap (k : Fin 256)
  /-- AMO_CAS (R347): Atomic that writes rb when the old 8-byte value equals rd at issue. -/
  | amoCas (k : Fin 256)
  /-- AMO_ADD (R347): Atomic 64-bit add modulo 2^64 returning the old value. -/
  | amoAdd (k : Fin 256)
  /-- AMO_AND (R347): Atomic 64-bit and returning the old value. -/
  | amoAnd (k : Fin 256)
  /-- AMO_OR (R347): Atomic 64-bit or returning the old value. -/
  | amoOr (k : Fin 256)
  /-- AMO_XOR (R347): Atomic 64-bit xor returning the old value. -/
  | amoXor (k : Fin 256)
  /-- AMO_SMAX (R347): Atomic signed maximum returning the old value. -/
  | amoSmax (k : Fin 256)
  /-- AMO_SMIN (R347): Atomic signed minimum returning the old value. -/
  | amoSmin (k : Fin 256)
  /-- AMO_UMAX (R347): Atomic unsigned maximum returning the old value. -/
  | amoUmax (k : Fin 256)
  /-- AMO_UMIN (R347): Atomic unsigned minimum returning the old value. -/
  | amoUmin (k : Fin 256)
  /-- AMO_ADD32 (R347): Atomic 32-bit add modulo 2^32 returning the old value. -/
  | amoAdd32 (k : Fin 256)
  /-- AMO_CAS32 (R347): Atomic 32-bit compare-and-swap against rd[31:0]. -/
  | amoCas32 (k : Fin 256)
  /-- AMO_FADD32 (R347): Atomic FP32 add rounded once by RNE. -/
  | amoFadd32 (k : Fin 256)
  /-- AMO_FADD32X2 (R347): Atomic pair of FP32 adds on the two halves. -/
  | amoFadd32x2 (k : Fin 256)
  /-- AMO_FMAX32 (R347): Atomic FP32 MAXNUM of old value and operand. -/
  | amoFmax32 (k : Fin 256)
  /-- AMO_FADD16X4 (R347): Atomic add of four BF16 values. -/
  | amoFadd16x4 (k : Fin 256)
  /-- TDEF (R129): Binds a tile handle to a region with shape, type, block shape and scale plane. -/
  | tdef (k : Fin 256)
  /-- TREL (R131): Waits until the handle is not busy, then makes it FREE. -/
  | trel (k : Fin 256)
  /-- TLOAD (R140): Copies rows and scale plane from a local or house address into a handle without conversion. -/
  | tload (k : Fin 256)
  /-- TLOAD_COMPLETE (R130): A TLOAD's data has all arrived or timed out and the handle becomes RESIDENT. -/
  | tloadComplete (k : Fin 256) (h : Fin 64)
  /-- TSTORE (R140): Copies a handle's rows and scale plane out to a local or house address. -/
  | tstore (k : Fin 256)
  /-- TZERO (R138): Writes +0 to every element of a handle and scale 0x00 to its blocks. -/
  | tzero (k : Fin 256)
  /-- MMA (R142): Issues the MX instruction D = D0 + A × B to the matrix array once its issue conditions hold. -/
  | mma (k : Fin 256)
  /-- MX_COMPLETE (R112): The array finishes an MX instruction, forms y by the fixed tree and writes the rounded result. -/
  | mxComplete (k : Fin 256)
  /-- VX_ADD (R166): Vector element-wise x + y. -/
  | vxAdd (k : Fin 256)
  /-- VX_SUB (R166): Vector element-wise x − y. -/
  | vxSub (k : Fin 256)
  /-- VX_MUL (R166): Vector element-wise x × y. -/
  | vxMul (k : Fin 256)
  /-- FMA (R166): Vector fused x × y + z with one rounding. -/
  | fma (k : Fin 256)
  /-- VX_MAX (R50): Vector IEEE maximum. -/
  | vxMax (k : Fin 256)
  /-- VX_MIN (R50): Vector IEEE minimum. -/
  | vxMin (k : Fin 256)
  /-- MAXNUM (R50): Vector maximumNumber. -/
  | maxnum (k : Fin 256)
  /-- MINNUM (R50): Vector minimumNumber. -/
  | minnum (k : Fin 256)
  /-- ABS (R166): Vector absolute value. -/
  | abs (k : Fin 256)
  /-- NEG (R166): Vector negation. -/
  | neg (k : Fin 256)
  /-- CVT (R166): Vector conversion into the destination type by rnd. -/
  | cvt (k : Fin 256)
  /-- CMP (R166): Vector comparison writing 1.0 or +0 per the mod predicate. -/
  | cmp (k : Fin 256)
  /-- SEL (R166): Vector select of x where p is nonzero or NaN, else y. -/
  | sel (k : Fin 256)
  /-- PADD (R81): Vector pair-add of an FP32 value to a split-weight pair. -/
  | padd (k : Fin 256)
  /-- EXP (R168): Vector exponential special function. -/
  | exp (k : Fin 256)
  /-- LOG (R168): Vector natural logarithm special function. -/
  | log (k : Fin 256)
  /-- RSQRT (R168): Vector reciprocal square root special function. -/
  | rsqrt (k : Fin 256)
  /-- SIGM (R168): Vector sigmoid special function. -/
  | sigm (k : Fin 256)
  /-- LOGIT (R168): Vector logit special function. -/
  | logit (k : Fin 256)
  /-- TANH (R168): Vector hyperbolic tangent special function. -/
  | tanh (k : Fin 256)
  /-- SILU (R168): Vector x × σ(x). -/
  | silu (k : Fin 256)
  /-- DIV (R168): Vector correctly rounded division. -/
  | div (k : Fin 256)
  /-- SQRT (R168): Vector correctly rounded square root. -/
  | sqrt (k : Fin 256)
  /-- RSUM (R169): Compensated row sum into an FP32 column. -/
  | rsum (k : Fin 256)
  /-- RSSQ (R169): Compensated row sum of squares. -/
  | rssq (k : Fin 256)
  /-- RDOT (R169): Compensated row dot product. -/
  | rdot (k : Fin 256)
  /-- RMAX (R166): Row maximum or minimum by the MAX or MAXNUM family. -/
  | rmax (k : Fin 256)
  /-- RMSN (R171): RMS or layer normalisation of rows with gain and ε. -/
  | rmsn (k : Fin 256)
  /-- DRMSN (R174): Input gradient of RMSN from saved x and g′. -/
  | drmsn (k : Fin 256)
  /-- SMAX (R171): Softmax or log-softmax of rows. -/
  | smax (k : Fin 256)
  /-- DSMAX (R175): Softmax derivative from saved y and g. -/
  | dsmax (k : Fin 256)
  /-- XENT (R171): Cross-entropy loss or gradient per row against INT32 targets. -/
  | xent (k : Fin 256)
  /-- DSIGM (R175): Sigmoid derivative from saved y. -/
  | dsigm (k : Fin 256)
  /-- DTANH (R175): Tanh derivative from saved y. -/
  | dtanh (k : Fin 256)
  /-- DRELU (R175): ReLU derivative from saved y. -/
  | drelu (k : Fin 256)
  /-- DEXP (R175): Exp derivative from saved y. -/
  | dexp (k : Fin 256)
  /-- DSILU (R176): SiLU derivative, plain or gated, from saved s = σ(x). -/
  | dsilu (k : Fin 256)
  /-- DSILUU (R176): Gradient of the gated up branch g × silu(x). -/
  | dsiluu (k : Fin 256)
  /-- TOPK (R178): Selects the k largest or smallest scores per row by totalOrder as INT64 index/score pairs. -/
  | topk (k : Fin 256)
  /-- SORT (R179): Sorts INT64 segment keys ascending. -/
  | sort (k : Fin 256)
  /-- SEGKEY (R180): Writes the segment count and distinct indices of sorted keys. -/
  | segkey (k : Fin 256)
  /-- SEGSUM (R180): Writes compensated sums of value rows per segment. -/
  | segsum (k : Fin 256)
  /-- VX_COMPLETE (R160): A running VX or SCALE instruction finishes and writes its destination. -/
  | vxComplete (k : Fin 256)
  /-- SQUANT (R144): Writes a source into a block-scaled type choosing scales by R66. -/
  | squant (k : Fin 256)
  /-- SAMAX (R144): Writes the FP32 magnitude maximum of a handle into rd. -/
  | samax (k : Fin 256)
  /-- SHIST (R243): Adds the handle's finite-magnitude observation to a scale history's step accumulator. -/
  | shist (k : Fin 256)
  /-- SCONV (R248): Converts a handle into FP8/FP4 under a history's per-tensor scale by the warm or cold path. -/
  | sconv (k : Fin 256)
  /-- SEMWAIT (R145): Waits until a semaphore is at least n, then subtracts n. -/
  | semwait (k : Fin 256)
  /-- SEMSIG (R145): Adds n to a semaphore once earlier stores are visible. -/
  | semsig (k : Fin 256)
  /-- SEMTRY (R145): Takes n from a semaphore if available and no waiter is queued, reporting success in rd. -/
  | semtry (k : Fin 256)
  /-- EVWAIT (R145): Waits until an event is set. -/
  | evwait (k : Fin 256)
  /-- EVSET (R145): Sets an event. -/
  | evset (k : Fin 256)
  /-- EVCLR (R145): Clears an event. -/
  | evclr (k : Fin 256)
  /-- FENCE (R145): Core instruction that waits until every earlier memory access of the core has completed. -/
  | fence (k : Fin 256)
  /-- TWAIT (R145): Waits until a handle is RESIDENT and not busy. -/
  | twait (k : Fin 256)
  /-- TQPOP (R153): Takes the next index of the LAUNCH's shared tile queue, or all ones when exhausted. -/
  | tqpop (k : Fin 256)
  /-- SYNC_OP_APPLY (R147): The Larder applies a semaphore or event operation once its stores are visible, serving waiters in order. -/
  | syncOpApply (k : Fin 256)
  /-- DIP_RESOLVED (R88): The dip sampler finishes its wide re-computation of a sampled element and compares it against the threshold. -/
  | dipResolved (k : Fin 256)
  /-- FORCED_MX_DIP (R85): FORCE_PERIOD × 64 µs passes without an MX dip, so the core's next MX instruction is sampled. -/
  | forcedMxDip (k : Fin 256)
  /-- DIP_SELF_CHECK (R94): Every 50 ms the sampler checks its wide unit and stops on a wrong result. -/
  | dipSelfCheck (d : Fin 16) (ok : Bool)
  /-- ROTATING_SELF_TEST (R117): Every 50 ms keeper firmware sets a self-test hold on each core in service. -/
  | rotatingSelfTest
  /-- SELF_TEST_START (R117): Once issued MX, VX and SCALE instructions drain under the hold, the array and vector test runs. -/
  | selfTestStart (k : Fin 256)
  /-- SELF_TEST_DONE (R118): A self-test ends and passes, repairs with a spare line, or retires the core. -/
  | selfTestDone (k : Fin 256) (found : List ArrayFault) (vectorFails : Bool)
  /-- GEOM_EPOCH_APPLY (R33): At the first quiet point after a STEP_CLOSE or ADVANCE, keeper firmware applies pending core retirements as a new epoch. -/
  | geomEpochApply
  /-- ADVANCE (R32): Operator write to GEOM_CTL.ADVANCE asking that a pending change be applied at the first quiet point. -/
  | advance (v : Word)
  /-- FAB_COORD_WRITE (R34): Operator write of house and room coordinates, applied as an epoch of its own while no job owns the part. -/
  | fabCoordWrite (v : Word)
  /-- LAUNCH (R150): Descriptor that checks its fields and enters a program into the queues of its logical cores. -/
  | launch (sl : Nat)
  /-- LAUNCH_START (R151): A core starts a queued LAUNCH after its previous one ends and the program is copied, applying Cistern controls and initial registers. -/
  | launchStart (k : Fin 256)
  /-- LAUNCH_COMPLETE (R154): Every core of a LAUNCH has ended or stopped and its dips are resolved, so its status is formed. -/
  | launchComplete (sl : Nat)
  /-- WATCHDOG_EXPIRY (R157): A LAUNCH's watchdog period passes and the queue engine cancels it. -/
  | watchdogExpiry (sl : Nat)
  /-- MOVE (R198): Descriptor that copies a tensor with permutation and conversion on the dense, strided, Landing or staged path. -/
  | move (sl : Nat)
  /-- BULK_GET (R410): MOVE with door_get 1 that reads a tensor from one room of another house through the doors. -/
  | bulkGet (sl : Nat)
  /-- GATHER (R202): Descriptor that copies source slices at clamped indices into destination slices. -/
  | gather (sl : Nat)
  /-- SCATTER (R207): Descriptor that stores or adds source slices into destination slices by index, deterministically when det is 1. -/
  | scatter (sl : Nat)
  /-- FWD_DISPATCH (R300): EXCHANGE phase that admits choices, writes route records and sends token rows, and receives rows as instance. -/
  | fwdDispatch (sl : Nat)
  /-- FWD_COMBINE (R313): EXCHANGE phase that sends answer rows back and combines received answers into dest. -/
  | fwdCombine (sl : Nat)
  /-- BWD_DISPATCH (R300): EXCHANGE phase that sends output-gradient rows along route records into backward receive buffers. -/
  | bwdDispatch (sl : Nat)
  /-- BWD_COMBINE (R313): EXCHANGE phase that returns input-gradient answers and combines them at the sources. -/
  | bwdCombine (sl : Nat)
  /-- CANCEL (R320): EXCHANGE phase that ends a round, its records, combine entry and buffer holds, and puts its gen in hold-down. -/
  | cancel (sl : Nat)
  /-- COLLECTIVE_GATHER (R414): COLLECTIVE that copies an owned tensor's shards into a local destination with version-stamp recording or checking. -/
  | collectiveGather (sl : Nat)
  /-- COLLECTIVE_REDUCE (R418): COLLECTIVE that sums members' sources onto the owners of the destination shards against deadlines. -/
  | collectiveReduce (sl : Nat)
  /-- COLLECTIVE_RELEASE (R417): COLLECTIVE that subtracts 1 from a gathered buffer's reference count. -/
  | collectiveRelease (sl : Nat)
  /-- UPDATE (R261): Descriptor that runs the parameter-update recurrence over every shard of its table on the named cores. -/
  | update (sl : Nat)
  /-- FENCE_DESCRIPTOR (R459): Descriptor that holds its context until drain, event and semaphore conditions hold. -/
  | fenceDescriptor (sl : Nat)
  /-- SIGNAL (R460): Descriptor that writes a value, signals a semaphore, sets or clears an event, and raises a vector. -/
  | signal (sl : Nat)
  /-- STEP_CLOSE (R244): Descriptor that pushes scale histories, copies step counts and swaps pending placements in its room. -/
  | stepClose (sl : Nat)
  /-- ALLOC (R327): POOL_OP that allocates n buffers all or none and writes their handles. -/
  | alloc (sl : Nat)
  /-- REF (R327): POOL_OP that adds 1 to the count of each listed handle. -/
  | ref (sl : Nat)
  /-- UNREF (R327): POOL_OP that subtracts 1 from each listed handle and frees buffers reaching 0. -/
  | unref (sl : Nat)
  /-- PANTRY_CACHE_REFILL (R325): When a Pantry cache falls below 16 entries it refills from the free ring in the background. -/
  | pantryCacheRefill (p : Fin 64)
  /-- DOORBELL (R448): Host write to a ring's doorbell page giving its new tail. -/
  | doorbell (page : Fin 4096) (size : Nat) (v : Word) (host : Cells)
  /-- DESCRIPTOR_FETCH (R449): A queue engine fetches ring entries up to the tail and checks ownership. -/
  | descriptorFetch (ring : Fin 4096) (n : Nat)
  /-- DESCRIPTOR_START (R435): A ready context starts its next descriptor once its waits are satisfied. -/
  | descriptorStart (ctx : Fin 512)
  /-- PARK_RESTART (R436): A watermark event of a pool or route record store is set and parked descriptors restart in context order. -/
  | parkRestart (p : Fin 65)
  /-- DESCRIPTOR_END (R463): A started descriptor ends and its completion record is written when a slot is free, after any signal. -/
  | descriptorEnd (sl : Nat)
  /-- RESERVATION (R282): An ARRIVAL reservation reaches an instance, which grants it while capacity remains. -/
  | reservation (m : SluMsg)
  /-- RESERVATION_REPLY (R282): A grant or refusal reaches the source, which admits or drops the choice and may try overflow. -/
  | reservationReply (m : SluMsg)
  /-- COUNT_MESSAGE (R284): A RANKED count message reaches an instance, which returns offsets once all sources are held. -/
  | countMessage (m : SluMsg)
  /-- OFFSETS_REPLY (R284): Offsets and remaining capacity reach a source, which admits its choices of each rank. -/
  | offsetsReply (m : SluMsg)
  /-- COUNT_TIMEOUT (R286): SLU_COUNT_TIMEOUT passes at an instance and sources without counts are treated as zero. -/
  | countTimeout (layer gen slot step : Nat)
  /-- MESSAGE_RETRY (R281): A message refused for retry is sent again about 2 µs later. -/
  | messageRetry (n : Nat) (empty : Bool)
  /-- TOKEN_ROW (R310): A dispatched token row reaches its instance and is written to its receive row. -/
  | tokenRow (m : SluMsg)
  /-- BACKWARD_ROW (R308): A backward row reaches its instance and is written into the backward receive buffer. -/
  | backwardRow (m : SluMsg)
  /-- DONE_MARKER (R301): A peer's DONE marker arrives and may complete the instance role of a dispatch phase. -/
  | doneMarker (m : SluMsg)
  /-- ANSWER (R317): An answer row reaches its source room and is applied or discarded, and acknowledged. -/
  | answer (m : SluMsg)
  /-- ANSWER_ACK (R326): An acknowledgement of an answer row reaches the instance and may release the slot's answer reference. -/
  | answerAck (m : SluMsg)
  /-- GEN_HOLD_EXPIRY (R319): SLU_GEN_HOLD passes and a generation leaves hold-down. -/
  | genHoldExpiry (layer gen : Nat)
  /-- CONTRIBUTION (R424): A collective contribution reaches its receiver and is staged, carried to the Sump or dropped. -/
  | contribution (m : ColMsg)
  /-- CONTRIBUTION_REPLY (R432): An ON_TIME, LATE_CARRIED or LATE_DROPPED reply reaches a sender, returning dropped values to error feedback. -/
  | contributionReply (m : ColMsg)
  /-- DEADLINE_CLOSE (R424): deadline_us passes and a receiver closes its direct members, or probes them under WAIT. -/
  | deadlineClose (sl : Nat)
  /-- DOOR_DEADLINE_CLOSE (R424): door_deadline_us passes and the owner closes its relays. -/
  | doorDeadlineClose (sl : Nat)
  /-- PROBE_TIMEOUT (R428): A probed member does not answer in time and is treated as dead. -/
  | probeTimeout (sl house room : Nat)
  /-- STAGE_RETRY (R423): A chunk refused for an empty staging pool is sent again about 2 µs later. -/
  | stageRetry (n : Nat)
  /-- LOAD (R395): A LOAD cell reaches its home slice and the line is read and answered with DATA. -/
  | load (p : Fin 40) (c : Cell) (more : List Arrival)
  /-- STORE (R395): A STORE cell reaches its room and is applied once, then acknowledged. -/
  | store (p : Fin 40) (c : Cell)
  /-- AMO (R398): An AMO cell reaches its home slice, is applied once and answered with the old value. -/
  | amo (p : Fin 40) (c : Cell) (more : List Arrival)
  /-- EATOMIC (R348): An element-atomic cell reaches its home slice and is applied in one line operation. -/
  | eatomic (p : Fin 40) (c : Cell) (more : List Arrival)
  /-- MSG (R362): A message cell reaches its destination unit. -/
  | msg (p : Fin 40) (c : Cell) (op : Option PoolMsg)
  /-- DATA (R376): A DATA response reaches the transaction tracker and completes its LOAD. -/
  | data (p : Fin 40) (c : Cell)
  /-- ACK (R396): An ACK response reaches the tracker and completes its store, atomic or message. -/
  | ack (p : Fin 40) (c : Cell)
  /-- REFUSED (R392): A REFUSED response completes its request with the status in aux. -/
  | refused (p : Fin 40) (c : Cell)
  /-- MGMT (R362): A management cell reaches keeper firmware, waking it from IDLE or NAP. -/
  | mgmt (p : Fin 40) (c : Cell)
  /-- CELL_TRANSIT (R367): A cell for another room arriving on a house port is assigned its productive port or spilled in the next slot. -/
  | cellTransit (arrivals : List Arrival) (idle : List Nat)
  /-- REQUEST_RETRANSMIT (R373): RETRY_US passes without a response and the request is sent again with RETRY set. -/
  | requestRetransmit (t : Fin 131072)
  /-- TARGET_TIMEOUT (R399): TARGET_US passes, the room is marked dead and its requests complete with the error value. -/
  | targetTimeout (t : Fin 131072)
  /-- HOUSE_REQUEST_TIMEOUT (R542): DOOR_TARGET_US passes for a request to another house not yet in a message, which completes as dead. -/
  | houseRequestTimeout (t : Fin 131072)
  /-- LINK_REPLAY (R363): A cell fails the link CRC on receipt and is sent again from the replay buffer. -/
  | linkReplay (p : Fin 40) (n : Nat)
  /-- PORT_DOWN (R384): A port goes down and is masked, its replay cells are re-injected and a record raised. -/
  | portDown (p : Fin 40) (n : Nat)
  /-- PORT_TRAINED (R358): A port completes training, records the far end and checks for miswiring. -/
  | portTrained (p : Fin 40) (house : Fin 65536) (room : Fin 32) (port : Fin 40) (slow : Bool)
  /-- SWAP (R383): Write of FAB_EPOCH.SWAP making the inactive routing table active and starting its drain. -/
  | swap (v : Word)
  /-- DRAIN_END (R383): DRAIN_US passes after a swap and DRAINING clears. -/
  | drainEnd
  /-- PORT_MASK_WRITE (R386): Operator write of FAB_PORT_MASK taking ports out of service or back in. -/
  | portMaskWrite (v : Word)
  /-- ROOM_DEAD_CLEAR (R401): W1C write of FAB_ROOM_DEAD clearing a room's dead mark. -/
  | roomDeadClear (v : Word)
  /-- ONPKG_LINK_RETRY (R17): An on-package transfer fails its CRC and is retried from the link's replay buffer. -/
  | onpkgLinkRetry (a b : Fin 25) (again : Bool)
  /-- ONPKG_LINK_DOWN (R17): An on-package link fails three retries and goes down, and its traffic takes a detour. -/
  | onpkgLinkDown (a b : Fin 25)
  /-- BULK_MESSAGE_CLOSE (R405): A bulk message closes at 511 cells or 1 µs and is sent when credits allow. -/
  | bulkMessageClose (m : Nat)
  /-- WRITE (R408): A WRITE bulk message reaches the destination door engine and its requests are applied in seq order. -/
  | write (m : BulkMsg)
  /-- GET_REQ (R410): A GET_REQ message reaches the far room, which reads the source and returns GET_DATA. -/
  | getReq (m : BulkMsg)
  /-- GET_DATA (R410): A GET_DATA message reaches the requesting room and its bytes are written to the destination. -/
  | getData (m : BulkMsg)
  /-- UNIT (R406): A UNIT message carrying Sluice or collective messages reaches its door engine. -/
  | unit (m : BulkMsg) (asks : List ShardAsk) (shards : List ShardData)
  /-- BULK_ACK (R409): An ACK message reaches the source door engine, completing the message's requests. -/
  | bulkAck (m : BulkMsg)
  /-- DOOR_RETRY (R409): DOOR_RETRY_US passes without an ACK and the message is resent whole. -/
  | doorRetry (m : Nat)
  /-- DOOR_TARGET_TIMEOUT (R409): DOOR_TARGET_US passes, the message's requests complete as dead and the next message carries RESET. -/
  | doorTargetTimeout (m : Nat)
  /-- DOOR_PATH_UP (R409): A door port or relay path comes up and a held bulk message is sent. -/
  | doorPathUp
  /-- PATROL_SCRUB (R352): Every PERIOD_US a class-3 scrub access reads a channel and counts any error. -/
  | patrolScrub (stack : Fin 16) (chan : Fin 128) (byte : Fin (2 ^ 30)) (err : Fin 3)
  /-- STACK_THROTTLE (R340): A stack temperature crosses a threshold and its throttle stage changes. -/
  | stackThrottle (stack : Fin 16) (t : Fin 256)
  /-- CHANNEL_FAILED (R353): A channel cannot be retrained and is declared failed and pending for map-out. -/
  | channelFailed (stack : Fin 16) (chan : Fin 128)
  /-- MEM_MAPOUT_REQ (R354): Operator request to mark a channel pending for map-out. -/
  | memMapoutReq (v : Word)
  /-- PLACEMENT_WRITE (R337): Write of MEM_CTL.PLACEMENT changing NATIVE/HASH mapping while no job owns the part. -/
  | placementWrite (keeper : Bool) (v : Word)
  /-- LARDER_CFG_WRITE (R344): Write of MEM_LARDER_CFG setting pinned sizes while no job owns the part. -/
  | larderCfgWrite (keeper : Bool) (v : Word)
  /-- TEST_NOW (R117): Operator write of ARRAY_CTL.TEST_NOW requesting a self-test within 1 ms. -/
  | testNow (k : Fin 256) (v : Word)
  /-- PROG_FLUSH (R159): Write marking a core's program store empty. -/
  | progFlush (k : Fin 256) (halt : Bool)
  /-- HALT (R159): Write of CORE_CTL.HALT holding or releasing issue on a core. -/
  | halt (k : Fin 256) (v : Word)
  /-- DIP_CTL_WRITE (R95): Write of DIP_CTL; ENABLE changes only from keeper firmware and is measured. -/
  | dipCtlWrite (keeper : Bool) (v : Word)
  /-- SCL_SEED_VALUE (R253): Write of SCL_SEED with CLEAR 0 seeding a history with one maximum. -/
  | sclSeedValue (h : Fin 1024) (v : Word32)
  /-- SCL_SEED_CLEAR (R253): Write of SCL_SEED with CLEAR 1 making a history cold and empty. -/
  | sclSeedClear (h : Fin 1024)
  /-- POOL_ENABLE (R329): Write of PAN_POOL_CFG.ENABLE 1 filling the free ring and zeroing counts. -/
  | poolEnable (p : Fin 64) (v : Word)
  /-- POOL_DISABLE (R329): Write of PAN_POOL_CFG.ENABLE 0, applied only when every buffer is free. -/
  | poolDisable (p : Fin 64) (v : Word)
  /-- JOB_ASSIGN (R445): Write of HOST_JOB with OWNED 1 starting a job assignment. -/
  | jobAssign (v : Word)
  /-- ASSIGNMENT_COMPLETE (R445): Keeper firmware finishes clearing sync objects, windows and memories and clears ASSIGNING. -/
  | assignmentComplete
  /-- JOB_RELEASE (R445): Write of HOST_JOB with OWNED 0 releasing the owning job when no job ring is busy. -/
  | jobRelease
  /-- OWNERSHIP_REVOKE (R522): Keeper firmware cancels job rings, waits for them, then clears OWNED. -/
  | ownershipRevoke
  /-- CANCEL_RING (R450): Write of HOST_CANCEL naming one ring to cancel. -/
  | cancelRing (n : Fin 4096)
  /-- CANCEL_ALL (R450): Write of HOST_CANCEL.ALL cancelling every ring. -/
  | cancelAll
  /-- RING_CFG_WRITE (R447): Write of RING_CFG enabling or configuring a command ring, subject to alignment. -/
  | ringCfgWrite (keeper : Bool) (n : Fin 4096) (v : Word)
  /-- CQ_CFG_WRITE (R462): Write of CQ_CFG or FLT_CFG enabling or configuring a completion or fault ring. -/
  | cqCfgWrite (m : Fin 257) (v : Word)
  /-- CQ_HEAD_WRITE (R464): Host writes CQ_HEAD or FLT_HEAD, freeing slots so waiting records are written. -/
  | cqHeadWrite (m : Fin 257) (v : Word)
  /-- TELEM_HEAD_WRITE (R473): Host writes TELEM_HEAD freeing telemetry slots. -/
  | telemHeadWrite (v : Word)
  /-- IRQ_PENDING_CLEAR (R467): W1C write of HOST_IRQ_PENDING clearing pending vectors. -/
  | irqPendingClear (v : Word)
  /-- IRQ_MASK_WRITE (R467): Write of HOST_IRQ_MASK; unmasking a pending vector sends its MSI-X message. -/
  | irqMaskWrite (v : Word)
  /-- IRQ_DELAY_EXPIRY (R467): DELAY_US passes since a ring's first unsignalled record and its vector becomes pending. -/
  | irqDelayExpiry (m : Fin 257)
  /-- HOST_LINK_DOWN (R442): The Irelku link goes down and host accesses and records are held. -/
  | hostLinkDown
  /-- HOST_LINK_UP (R442): The Irelku link trains and held records and accesses proceed. -/
  | hostLinkUp (lanes : Fin 256) (rate : Fin 4)
  /-- LINK_HOLD_EXPIRY (R442): The link stays down for HOLD_MS and keeper firmware cancels every ring. -/
  | linkHoldExpiry
  /-- HOST_READ_ERROR (R444): The host answers a read with an error and the bytes take the error value. -/
  | hostReadError (slot : Option Nat) (a n : Nat)
  /-- REGISTER_WRITE (R441): Any write to a set-up register that has no row of its own, with range and access checks. -/
  | registerWrite (keeper : Bool) (off : Fin 67108864) (size : Nat) (v : Word)
  /-- POWER_UP (R471): V_in stays at or above 44.0 V for 10 ms, the hot-swap stage closes and start-up begins. -/
  | powerUp
  /-- HOT_SWAP_OPEN (R471): Overcurrent, overvoltage or undervoltage persists and the hot-swap stage opens, losing everything. -/
  | hotSwapOpen
  /-- INPUT_SAMPLE (R472): Every 10 µs keeper firmware samples input voltage, current and power. -/
  | inputSample (v a p : Fin 65536)
  /-- TELEMETRY_RECORD (R473): Every TELEM_US a telemetry record is written to the host ring or counted lost. -/
  | telemetryRecord
  /-- SHED_TRIP (R474): V_in stays below a shedding threshold for 20 µs and the shed level rises. -/
  | shedTrip (t : Fin 5)
  /-- SHED_CLEAR (R474): V_in stays 0.5 V above a tripped threshold for 20 µs and the shed level falls. -/
  | shedClear (t : Fin 5)
  /-- CAP_CHECK (R483): Every 100 µs the average input power is compared with CAP_W and the cap step moved. -/
  | capCheck
  /-- THERMAL_SAMPLE (R502): Every 100 µs die sensors are sampled against alarm and trip thresholds. -/
  | thermalSample (l : List (Fin 256))
  /-- THERMAL_STEP (R502): Each 1 ms above WARN_C or below WARN_C − 3 °C the thermal step moves one step. -/
  | thermalStep
  /-- REFCLK_LOSS (R482): The 100 MHz input is lost for 1 µs and the PLL switches to the resonator. -/
  | refclkLoss
  /-- ROOT_LOCK_LOSS (R503): Root lock is lost for 10 µs, the fault latch sets and the part enters protected off. -/
  | rootLockLoss
  /-- HEARTBEAT_MISS (R503): Keeper firmware misses its heartbeat for 100 ms and the fault latch sets. -/
  | heartbeatMiss (last : Word)
  /-- LOCKSTEP_MISMATCH (R503): The management cores disagree in a cycle and the fault latch sets. -/
  | lockstepMismatch (cycle : Word)
  /-- CORE_STEP_WRITE (R481): Write of CLK_CTL.CORE_STEP requesting a core clock step. -/
  | coreStepWrite (v : Word)
  /-- CORE_SRC (R491): Write of CLK_CTL.CORE_SRC 1 switching cores to the root PLL after a wake. -/
  | coreSrc (v : Word)
  /-- ROOT_PLL_LOCK (R480): The root PLL locks and derived clocks and units start. -/
  | rootPllLock
  /-- IDLE_ENTRY (R485): With IDLE_EVENT set and all cores idle for IDLE_HOLD_US, the part enters IDLE. -/
  | idleEntry
  /-- POWER_REQ_NAP (R486): Operator write of POWER_REQ requesting NAP. -/
  | powerReqNap
  /-- POWER_REQ_DEEP (R486): Operator write of POWER_REQ requesting DEEP. -/
  | powerReqDeep
  /-- POWER_REQ_ACTIVE (R490): Operator write of POWER_REQ requesting ACTIVE, waking NAP, DEEP or protected off. -/
  | powerReqActive
  /-- STATE_ENTRY_QUIET (R488): The quiet point of NAP or DEEP entry is reached and the entry steps through to commit. -/
  | stateEntryQuiet
  /-- CELLAR_TIMER (R489): The armed POWER_TIMER expires as a privileged wake source. -/
  | cellarTimer
  /-- I3C_PRIVATE_WRITE (R538): A private write to the dynamic address signals an in-band wake from the board controller. -/
  | i3cPrivateWrite
  /-- WAKE_COMPLETE (R492): Stack and port training after a wake finish, failed stacks are published, and READY is set. -/
  | wakeComplete (failed : List (Fin 16)) (ports : List PortUp)
  /-- UNIT_DISABLE (R505): Write of UNIT_CMD disabling a unit, which stops taking work. -/
  | unitDisable (u : Fin 128) (failed : Bool)
  /-- UNIT_ENABLE (R505): Write of UNIT_CMD enabling a disabled unit whose FAILED is 0. -/
  | unitEnable (u : Fin 128)
  /-- UNIT_DRAINED (R505): A disabled unit's work in flight has drained or been cancelled and it reads DISABLED. -/
  | unitDrained (u : Fin 84)
  /-- DEVICE_RESET (R511): SEC_RESET.KIND 1 or a reset command starts a device reset. -/
  | deviceReset
  /-- MAINTENANCE_RESET (R511): SEC_RESET.KIND 2 or a maintenance command starts a maintenance reset that blows pending fuses. -/
  | maintenanceReset
  /-- RESET_N (R531): RESET_N is held low for 10 µs or more and start-up begins at its release. -/
  | resetN
  /-- SEC_FW_GO (R515): Write that starts the boot ROM reading the signed firmware image from host memory. -/
  | secFwGo (v : Word) (host : Cells)
  /-- FIRMWARE_VERIFY (R516): The image has been read and is checked and verified, then keeper firmware starts or a failure code is set. -/
  | firmwareVerify
  /-- STACK_TRAINING_DONE (R355): Stack training at start-up finishes and failing stacks are left out or retired. -/
  | stackTrainingDone (failed : List (Fin 16)) (chans : List (Fin 2048))
  /-- STARTUP_COMPLETE (R513): Keeper firmware loads the geometry table, sets protections, sets GEOM_EPOCH 2 and READY. -/
  | startupComplete (cores : List (Fin 256)) (ports : List PortUp) (bad : Nat)
  /-- SEC_ROLLBACK_REQ (R518): Operator request to raise the anti-rollback counter toward a target. -/
  | secRollbackReq (v : Word)
  /-- SEC_ATTEST_GO (R524): Write of SEC_ATTEST.GO starting a signed attestation report. -/
  | secAttestGo (v : Word)
  /-- ATTEST_DONE (R524): Signing finishes, the report is written to host memory and DONE is set. -/
  | attestDone
  /-- SEC_EXTEND (R520): Write extending measurement 6 with SEC_EXT_DATA. -/
  | secExtend (v : Word)
  /-- TAP_INSTRUCTION (R523): An IEEE 1149.1 TAP instruction, limited by the production fuse and firmware state. -/
  | tapInstruction (op : TapOp)
  /-- ENTDAA (R534): The board controller assigns the I3C dynamic address. -/
  | entdaa (addr : Fin 128)
  /-- SET_ENDPOINT_ID (R535): MCTP control message assigning the endpoint ID. -/
  | setEndpointId (eid : Fin 256)
  /-- READ_REG (R536): Sideband command that reads one permitted register. -/
  | readReg (off : Fin 4294967296)
  /-- WRITE_REG (R536): Sideband command that writes FLT_ALERT or POWER_CAP. -/
  | writeReg (off : Fin 4294967296) (v : Word)
  /-- READ_FAULTS (R537): Sideband command that returns up to four held fault records from a given fseq. -/
  | readFaults (first : Fin 4294967296) (count : Fin 256)
  /-- RESET (R536): Sideband command that starts a device or maintenance reset. -/
  | reset (kind : Fin 256)
  /-- UNSUPPORTED_MCTP_TYPE (R535): An MCTP message of an unsupported type is answered with the control-protocol error. -/
  | unsupportedMctpType (ty : Fin 128)
  /-- FLT_ALERT_CLEAR (R504): W1C write of FLT_ALERT clearing alert causes. -/
  | fltAlertClear (v : Word)
  /-- PENDING_VALUE_ARRIVES (R125): The value of a core's local SLD or AMO, or the index of a TQPOP, arrives and its scalar register stops being pending; a local SST or TSTORE is accepted at its destination. -/
  | pendingValueArrives (k : Fin 256) (sl : Nat)
  /-- DOOR_CREDIT_RETURN (R407): The far end of a door port frees receive buffer and returns credits, so a door engine waiting for credits sends its message. -/
  | doorCreditReturn (p : Fin 40) (n : Nat)
  /-- FAR_END_COORDINATES (R34): A port receives new coordinates from its far end over the link's management exchange and re-evaluates R358 for that port. -/
  | farEndCoordinates (p : Fin 40) (house : Fin 65536) (room : Fin 32)
  /-- RESET_N_RELEASE (R531): RESET_N returns high after a reset and start-up begins. -/
  | resetNRelease
  /-- REFCLK_RETURN (R482): The 100 MHz reference input is detected again and CLK_STATUS.EXT_REF_PRESENT is set, ready for use at the next start-up or DEEP exit. -/
  | refclkReturn
  deriving DecidableEq, Repr

end Sys2Proof
end

