-- ==== Sys2Proof/Config.lean ====
section
/-! DEFINITION. What an implementation fixes and the spec leaves open: constants with no body, so that nothing can be
proved about their values. -/

namespace Sys2Proof.Config

/-- The free values: `State.free` counts how many have been used. -/
opaque freeNat : Nat → Nat

/-- Which of the FP32 codes within the bound of R168 or R175 a special function or derivative gives, by VX operation code
and operand bits. -/
opaque special : Nat → Nat → Nat

/-- The three-pass product of two FP32 codes one of which is infinite and neither NaN: R83 states the split for finite
operands only. -/
opaque threePassInf : Nat → Nat → Nat

/-- The error of the dip sampler's special functions, which R87 bounds by 2^−40, by the number of free values used. -/
opaque wideErr : Nat → Nat

/-- The bytes of an area of memory whose contents have become undefined (R201, R267, R344), by change and local offset. -/
opaque pinned : Nat → Nat → Nat

/-- Which of the door engines that own a port a house entry names takes what is routed there (R364 names none), by the entry's ports. -/
opaque doorEngine : Nat → Nat

/-- The boot ROM's image, and the fuse array by the fuse log: measurements 0 and 2 are extended with them (R513). -/
opaque bootRom : List (BitVec 8)
opaque fuseArray : List (BitVec 8) → List (BitVec 8)

/-- How the revoked-key mask, the anti-rollback counter and the JTAG state are laid out for measurement 3 (R520). -/
opaque securityState : Nat → Nat → Nat → List (BitVec 8)

/-- The words of the identity public key (R519), by number. -/
opaque identityKey : Nat → BitVec 64

/-- SLH-DSA-SHAKE-256s verification of a message and its signature under a vendor key (R516), and byte `i` of an SLH-DSA-SHAKE-256f
signature under the identity key, by the number of free values used (R524). -/
opaque vendorVerify : Nat → List (BitVec 8) → List (BitVec 8) → Bool
opaque identitySign : Nat → List (BitVec 8) → Nat → BitVec 8

end Sys2Proof.Config
end

