-- ==== Sys2Proof/Machine/Num.lean ====
section
/-! DEFINITION. Number formats (02_number_formats.md R37–R59) and the rounding modes (03_rounding_and_dip.md
R72–R76): element types, their codes and values, exact arithmetic on values, one rounding into a type. -/

namespace Sys2Proof.Machine

/-- Bits [hi:lo] of a natural number read as a word (R6). -/
def bits (w : Nat) (hi lo : Nat) : Nat := (w >>> lo) % 2 ^ (hi + 1 - lo)

/-- Bit `i` of a natural number read as a word. -/
def bit (w i : Nat) : Bool := (w >>> i) % 2 == 1

/-- The word with bits [hi:lo] replaced by the low bits of `v`. -/
def setBits (w hi lo v : Nat) : Nat :=
  w - bits w hi lo * 2 ^ lo + (v % 2 ^ (hi + 1 - lo)) * 2 ^ lo

/-- A Bool as one bit. -/
def b2n (b : Bool) : Nat := if b then 1 else 0

/-- `⌈a / b⌉`. -/
def cdiv (a b : Nat) : Nat := (a + (b - 1)) / b

/-- `a` rounded up to a multiple of `b`. -/
def roundUp (a b : Nat) : Nat := cdiv a b * b

/-- The value of a float or integer code: NaN, an infinity, or `(-1)^neg · m · 2^e` (zero is signed, R52). -/
inductive FVal where
  | nan
  | inf (neg : Bool)
  | fin (neg : Bool) (m : Nat) (e : Int)
  deriving DecidableEq, Repr

/-- The element types of R37. -/
inductive EType where
  | fp4 | e4m3 | e5m2 | bf16 | fp16 | hf19 | fp32 | ue8m0 | u8v | int8 | int32 | int64 | split
  deriving DecidableEq, Repr

/-- The code of an element type (R37). -/
def EType.code : EType → Nat
  | .fp4 => 1 | .e4m3 => 2 | .e5m2 => 3 | .bf16 => 4 | .fp16 => 5 | .hf19 => 6 | .fp32 => 7
  | .ue8m0 => 8 | .u8v => 9 | .int8 => 10 | .int32 => 11 | .int64 => 12 | .split => 13

/-- The element type of a code; the other codes are reserved (R37). -/
def EType.ofCode : Nat → Option EType
  | 1 => some .fp4 | 2 => some .e4m3 | 3 => some .e5m2 | 4 => some .bf16 | 5 => some .fp16
  | 6 => some .hf19 | 7 => some .fp32 | 8 => some .ue8m0 | 9 => some .u8v | 10 => some .int8
  | 11 => some .int32 | 12 => some .int64 | 13 => some .split | _ => none

/-- Bits of one stored element (R37; HF19 in its 32-bit container). -/
def EType.width : EType → Nat
  | .fp4 => 4 | .e4m3 => 8 | .e5m2 => 8 | .bf16 => 16 | .fp16 => 16 | .hf19 => 32 | .fp32 => 32
  | .ue8m0 => 8 | .u8v => 8 | .int8 => 8 | .int32 => 32 | .int64 => 64 | .split => 32

/-- The Block scale column of R37: FP4 requires a block shape, FP8 and U8V may have one. -/
def EType.blockOk (t : EType) (blocked : Bool) : Bool :=
  match t with
  | .fp4 => blocked
  | .e4m3 | .e5m2 | .u8v => true
  | _ => !blocked

/-- Array operand types of R37, FP32 by three passes among them (R70). -/
def EType.isArray : EType → Bool
  | .fp4 | .e4m3 | .e5m2 | .bf16 | .fp16 | .hf19 | .fp32 => true
  | _ => false

/-- Integer types (R45). -/
def EType.isInt : EType → Bool
  | .int8 | .int32 | .int64 => true
  | _ => false

/-- E_max of R66 for the block-scaled types. -/
def EType.eMax : EType → Int
  | .fp4 => 2 | .e4m3 => 8 | .e5m2 => 15 | .u8v => 16 | _ => 0

/-- Fraction bits, exponent bias and largest finite magnitude `maxM · 2^maxE` of a float format (R40–R42). -/
structure Fmt where
  frac : Nat
  bias : Int
  maxM : Nat
  maxE : Int
  deriving DecidableEq, Repr

/-- The float formats of R40 and the table under R42; integers and UE8M0 have none. -/
def EType.fmt : EType → Fmt
  | .fp4 => ⟨1, 1, 3, 1⟩
  | .e4m3 => ⟨3, 7, 14, 5⟩
  | .e5m2 => ⟨2, 15, 7, 13⟩
  | .bf16 | .split => ⟨7, 127, 255, 120⟩
  | .fp16 => ⟨10, 15, 2047, 5⟩
  | .hf19 => ⟨10, 127, 2047, 117⟩
  | .fp32 => ⟨23, 127, 16777215, 104⟩
  | .u8v => ⟨3, 15, 14, 13⟩
  | _ => ⟨0, 127, 1, 127⟩

/-- IEEE 754 binary64, in which the dip sampler works (R87). -/
def fmt64 : Fmt := ⟨52, 1023, 2 ^ 53 - 1, 971⟩

/-- Exponent of the smallest subnormal of a format (R41). -/
def Fmt.qMin (f : Fmt) : Int := 1 - f.bias - f.frac

/-- R41: the finite magnitude of an exponent field and a fraction field. -/
def Fmt.mag (f : Fmt) (expo fr : Nat) : Nat × Int :=
  if expo = 0 then (fr, f.qMin) else (2 ^ f.frac + fr, (expo : Int) - f.bias - f.frac)

/-- The value of an IEEE-like code whose all-ones exponent holds infinities and NaNs. -/
def Fmt.ieeeVal (f : Fmt) (neg : Bool) (expo fr expOnes : Nat) : FVal :=
  if expo = expOnes then (if fr = 0 then .inf neg else .nan)
  else .fin neg (f.mag expo fr).1 (f.mag expo fr).2

/-- Two's-complement reading of the low `n` bits. -/
def sext (n w : Nat) : Int :=
  if bit (w % 2 ^ n) (n - 1) then ((w % 2 ^ n : Nat) : Int) - (2 ^ n : Nat) else ((w % 2 ^ n : Nat) : Int)

/-- Low `n` bits of an integer (wrapping). -/
def wrapI (n : Nat) (x : Int) : Nat := (x % ((2 ^ n : Nat) : Int)).toNat

/-- An integer as a value. -/
def FVal.ofInt (x : Int) : FVal := .fin (decide (x < 0)) x.natAbs 0

/-- A zero value of the given sign. -/
def FVal.zero (neg : Bool) : FVal := .fin neg 0 0

/-- The value is NaN. -/
def FVal.isNan : FVal → Bool
  | .nan => true
  | _ => false

/-- The value is finite. -/
def FVal.isFin : FVal → Bool
  | .fin _ _ _ => true
  | _ => false

/-- The value is a zero of either sign. -/
def FVal.isZero : FVal → Bool
  | .fin _ m _ => m == 0
  | _ => false

/-- Sign bit of a value; NaN counts as positive (R46). -/
def FVal.sign : FVal → Bool
  | .nan => false
  | .inf n => n
  | .fin n _ _ => n

/-- Negation. -/
def FVal.neg : FVal → FVal
  | .nan => .nan
  | .inf n => .inf (!n)
  | .fin n m e => .fin (!n) m e

/-- Absolute value. -/
def FVal.abs : FVal → FVal
  | .nan => .nan
  | .inf _ => .inf false
  | .fin _ m e => .fin false m e

/-- Exact product; 0 · ∞ is NaN. -/
def FVal.mul : FVal → FVal → FVal
  | .nan, _ | _, .nan => .nan
  | .inf a, .inf b => .inf (a != b)
  | .inf a, .fin b m _ => if m = 0 then .nan else .inf (a != b)
  | .fin b m _, .inf a => if m = 0 then .nan else .inf (a != b)
  | .fin a m e, .fin b n g => .fin (a != b) (m * n) (e + g)

/-- A signed integer multiple of `2^e`. -/
def sgn (neg : Bool) (m : Nat) : Int := if neg then -(m : Int) else (m : Int)

/-- Exact sum; ∞ − ∞ is NaN; the sum of opposite nonzero values is +0 and of two zeros −0 only when both are −0
(R52). -/
def FVal.add : FVal → FVal → FVal
  | .nan, _ | _, .nan => .nan
  | .inf a, .inf b => if a = b then .inf a else .nan
  | .inf a, .fin _ _ _ => .inf a
  | .fin _ _ _, .inf a => .inf a
  | .fin a m e, .fin b n g =>
    if m = 0 ∧ n = 0 then .fin (a && b) 0 0
    else if m = 0 then .fin b n g
    else if n = 0 then .fin a m e
    else
      let q := min e g
      let s := sgn a m * (2 ^ (e - q).toNat : Nat) + sgn b n * (2 ^ (g - q).toNat : Nat)
      .fin (decide (s < 0)) s.natAbs q

/-- Exact difference. -/
def FVal.sub (x y : FVal) : FVal := x.add y.neg

/-- Exact product with `2^k`. -/
def FVal.scale (x : FVal) (k : Int) : FVal :=
  match x with
  | .fin n m e => .fin n m (e + k)
  | y => y

/-- Quotient, exact or with a last bit that stands for the nonzero rest: every rounding of it into a type of this
part equals the rounding of the exact quotient, since it carries over 64 bits. -/
def FVal.div : FVal → FVal → FVal
  | .nan, _ | _, .nan => .nan
  | .inf _, .inf _ => .nan
  | .inf a, .fin b _ _ => .inf (a != b)
  | .fin a _ _, .inf b => .fin (a != b) 0 0
  | .fin a m e, .fin b n g =>
    if n = 0 then (if m = 0 then .nan else .inf (a != b))
    else if m = 0 then .fin (a != b) 0 0
    else
      let k := 80 + n.log2
      let num := m * 2 ^ k
      .fin (a != b) (2 * (num / n) + (if num % n = 0 then 0 else 1)) (e - g - k - 1)

/-- Integer square root by bits, from bit `k` down. -/
def isqrtGo (n : Nat) : Nat → Nat → Nat
  | 0, acc => if (acc + 1) * (acc + 1) ≤ n then acc + 1 else acc
  | k + 1, acc =>
    let c := acc + 2 ^ (k + 1)
    isqrtGo n k (if c * c ≤ n then c else acc)

/-- `⌊√n⌋`. -/
def isqrt (n : Nat) : Nat := isqrtGo n (n.log2 / 2 + 1) 0

/-- Square root, with a last bit that stands for a nonzero rest (as in `FVal.div`). −0 gives −0; a negative value
gives NaN (IEEE 754-2019). -/
def FVal.sqrt : FVal → FVal
  | .nan => .nan
  | .inf n => if n then .nan else .inf false
  | .fin n m e =>
    if m = 0 then .fin n 0 0
    else if n then .nan
    else
      let k : Nat := 160 + (e % 2).toNat
      let v := m * 2 ^ k
      let r := isqrt v
      .fin false (2 * r + (if r * r = v then 0 else 1)) ((e - k) / 2 - 1)

/-- Comparison of two finite magnitudes as integers over a common power of two: negative, zero or positive. -/
def cmpFin (a : Bool) (m : Nat) (e : Int) (b : Bool) (n : Nat) (g : Int) : Int :=
  let q := min e g
  sgn a m * (2 ^ (e - q).toNat : Nat) - sgn b n * (2 ^ (g - q).toNat : Nat)

/-- `x < y` by R49: false with a NaN; zeros equal. -/
def FVal.lt : FVal → FVal → Bool
  | .nan, _ | _, .nan => false
  | .inf a, .inf b => a && !b
  | .inf a, .fin _ _ _ => a
  | .fin _ _ _, .inf b => !b
  | .fin a m e, .fin b n g => decide (cmpFin a m e b n g < 0)

/-- `x = y` by R49. -/
def FVal.eq : FVal → FVal → Bool
  | .nan, _ | _, .nan => false
  | .inf a, .inf b => a == b
  | .inf _, .fin _ _ _ => false
  | .fin _ _ _, .inf _ => false
  | .fin a m e, .fin b n g => decide (cmpFin a m e b n g = 0)

/-- `x ≤ y` by R49. -/
def FVal.le (x y : FVal) : Bool := x.lt y || x.eq y

/-- ⌊log₂ |x|⌋ of a finite nonzero value. -/
def FVal.ilog : FVal → Int
  | .fin _ m e => (m.log2 : Int) + e
  | _ => 0

/-- The rounding modes of R72. -/
inductive Rnd where
  | rne | rtz | sr
  deriving DecidableEq, Repr

/-- `rnd` codes; 3 is reserved (R72). -/
def Rnd.ofCode : Nat → Option Rnd
  | 0 => some .rne | 1 => some .rtz | 2 => some .sr | _ => none

/-- R75: whether the magnitude rounds up, from the dropped part `rem` of `s` bits, the kept part `k` and the random
value `r`. -/
def roundsUp (mode : Rnd) (k rem s r : Nat) : Bool :=
  match mode with
  | .rtz => false
  | .rne => decide (2 ^ s < 2 * rem) || (decide (2 * rem = 2 ^ s) && k % 2 == 1)
  | .sr => decide (rem ≠ 0) && decide (r < rem * 65536 / 2 ^ s)

/-- One rounding of the magnitude `m · 2^e` into a format: the rounded magnitude `k · 2^q` with `q` the spacing of the
format there, before any overflow (R53, R75). -/
def Fmt.round (f : Fmt) (mode : Rnd) (r m : Nat) (e : Int) : Nat × Int :=
  let q := max ((m.log2 : Int) + e - f.frac) f.qMin
  if q ≤ e then (m * 2 ^ (e - q).toNat, q)
  else
    let s := (q - e).toNat
    let k := m / 2 ^ s
    (if roundsUp mode k (m % 2 ^ s) s r then k + 1 else k, q)

/-- The magnitude `k · 2^q` lies above the largest finite magnitude. -/
def Fmt.above (f : Fmt) (k : Nat) (q : Int) : Bool := decide (0 < cmpFin false k q false f.maxM f.maxE)

/-- The exponent and fraction fields, as one number, of the magnitude `k · 2^q` where `q` is its spacing. -/
def Fmt.encode (f : Fmt) (k : Nat) (q : Int) : Nat :=
  if k = 2 ^ (f.frac + 1) then (q + 1 + f.frac + f.bias).toNat * 2 ^ f.frac
  else if k < 2 ^ f.frac then k
  else (q + f.frac + f.bias).toNat * 2 ^ f.frac + (k - 2 ^ f.frac)

/-- The largest finite code without sign. -/
def Fmt.maxCode (f : Fmt) : Nat := f.encode f.maxM f.maxE

/-- The counted events of a conversion (R48): at most one an element. -/
inductive Ev where
  | none | sat | flush
  deriving DecidableEq, Repr

/-- Canonical NaN of a type (R46). Integers and FP4 have none; 0 stands there (R57, R67). -/
def EType.nan : EType → Nat
  | .fp32 | .hf19 | .split => 0x7FC00000
  | .bf16 => 0x7FC0
  | .fp16 => 0x7E00
  | .e5m2 => 0x7E
  | .e4m3 => 0x7F
  | .u8v | .ue8m0 => 0xFF
  | _ => 0

/-- Sign bit position, and the infinity code, of the signed float types. -/
def EType.signBit : EType → Nat
  | .fp4 => 0x8 | .e4m3 | .e5m2 => 0x80 | .bf16 | .fp16 => 0x8000 | _ => 0x80000000

/-- The code of +∞ where the type has one (R42). -/
def EType.infCode : EType → Nat
  | .e5m2 => 0x7C | .bf16 => 0x7F80 | .fp16 => 0x7C00 | .hf19 | .fp32 | .split => 0x7F800000 | _ => 0

/-- HF19 keeps its fraction in bits [22:13] of the container (R40, R43). -/
def EType.place (t : EType) (code : Nat) : Nat := if t = .hf19 then code * 8192 else code

/-- The value of an element code (R40–R45, R71); FP4 before its block scale. -/
def EType.val (t : EType) (w : Nat) : FVal :=
  match t with
  | .fp4 => .fin (bit w 3) ((EType.fmt .fp4).mag (bits w 2 1) (bits w 0 0)).1
      ((EType.fmt .fp4).mag (bits w 2 1) (bits w 0 0)).2
  | .e4m3 =>
    if bits w 6 0 = 0x7F then .nan
    else .fin (bit w 7) ((EType.fmt .e4m3).mag (bits w 6 3) (bits w 2 0)).1
      ((EType.fmt .e4m3).mag (bits w 6 3) (bits w 2 0)).2
  | .e5m2 => (EType.fmt .e5m2).ieeeVal (bit w 7) (bits w 6 2) (bits w 1 0) 31
  | .bf16 => (EType.fmt .bf16).ieeeVal (bit w 15) (bits w 14 7) (bits w 6 0) 255
  | .fp16 => (EType.fmt .fp16).ieeeVal (bit w 15) (bits w 14 10) (bits w 9 0) 31
  | .hf19 => (EType.fmt .hf19).ieeeVal (bit w 31) (bits w 30 23) (bits w 22 13) 255
  | .fp32 => (EType.fmt .fp32).ieeeVal (bit w 31) (bits w 30 23) (bits w 22 0) 255
  | .ue8m0 => if bits w 7 0 = 255 then .nan else .fin false 1 ((bits w 7 0 : Nat) - 127 : Int)
  | .u8v =>
    if bits w 7 0 = 255 then .nan
    else .fin false ((EType.fmt .u8v).mag (bits w 7 3) (bits w 2 0)).1
      ((EType.fmt .u8v).mag (bits w 7 3) (bits w 2 0)).2
  | .int8 => .ofInt (sext 8 w)
  | .int32 => .ofInt (sext 32 w)
  | .int64 => .ofInt (sext 64 w)
  | .split =>
    -- a zero has the sign of h (R52, R58)
    let h := (EType.fmt .bf16).ieeeVal (bit w 31) (bits w 30 23) (bits w 22 16) 255
    let l := (EType.fmt .bf16).ieeeVal (bit w 15) (bits w 14 7) (bits w 6 0) 255
    if h.isZero && l.isZero then h else h.add l

/-- R56: the overflow result of a signed float type: the largest finite code under truncation and in the types
without infinity, else the infinity; E5M2 keeps infinities only under `e5inf`. -/
def EType.overflow (t : EType) (mode : Rnd) (e5inf : Bool) : Nat :=
  match t with
  | .fp4 | .e4m3 => t.fmt.maxCode
  | .e5m2 => if e5inf && mode != .rtz then t.infCode else t.fmt.maxCode
  | _ => if mode = .rtz then t.place t.fmt.maxCode else t.infCode

/-- One rounding of a finite value into a signed float type, with its event (R48, R56, R75). -/
def EType.roundFin (t : EType) (mode : Rnd) (e5inf : Bool) (r : Nat) (neg : Bool) (m : Nat) (e : Int) : Nat × Ev :=
  let s := if neg then t.signBit else 0
  if m = 0 then (s, .none)
  else
    let kq := t.fmt.round mode r m e
    let excess := t.fmt.above kq.1 kq.2
    let code := if excess then t.overflow mode e5inf else t.place (t.fmt.encode kq.1 kq.2)
    (s + code, if t.fmt.above m e then .sat else if kq.1 = 0 then .flush else .none)

/-- R57: rounding a finite value to an integer by RNE or RTZ. -/
def roundInt (mode : Rnd) (neg : Bool) (m : Nat) (e : Int) : Int :=
  if 0 ≤ e then sgn neg (m * 2 ^ e.toNat)
  else
    let s := (-e).toNat
    let k := m / 2 ^ s
    sgn neg (if roundsUp mode k (m % 2 ^ s) s 0 then k + 1 else k)

/-- R57: conversion into a two's-complement type of `n` bits. -/
def toInt (n : Nat) (mode : Rnd) : FVal → Nat × Ev
  | .nan => (0, .sat)
  | .inf neg => (if neg then 2 ^ (n - 1) else 2 ^ (n - 1) - 1, .sat)
  | .fin neg m e =>
    let v := roundInt mode neg m e
    if v < -((2 ^ (n - 1) : Nat) : Int) then (2 ^ (n - 1), .sat)
    else if ((2 ^ (n - 1) : Nat) : Int) - 1 < v then (2 ^ (n - 1) - 1, .sat)
    else (wrapI n v, if v = 0 ∧ m ≠ 0 then .flush else .none)

/-- R59: conversion into UE8M0. -/
def toUE8M0 : FVal → Nat × Ev
  | .nan => (255, .none)
  | .inf _ => (255, .sat)
  | .fin neg m e =>
    if m = 0 then (0, .none)
    else
      let c := 127 + (FVal.fin neg m e).ilog
      if 254 < c then (254, .sat) else if c < 0 then (0, .flush) else (c.toNat, .none)

/-- R56: conversion into U8V. -/
def toU8V (mode : Rnd) (r : Nat) : FVal → Nat × Ev
  | .nan => (255, .none)
  | .inf neg => if neg then (0, .flush) else ((EType.fmt .u8v).maxCode, .sat)
  | .fin neg m e =>
    if m = 0 then (0, .none)
    else if neg then (0, .flush)
    else
      let f := EType.fmt .u8v
      let kq := f.round mode r m e
      (if f.above kq.1 kq.2 then f.maxCode else f.encode kq.1 kq.2,
        if f.above m e then .sat else if kq.1 = 0 then .flush else .none)

/-- R44, R58: conversion into the split-weight type. R58's l can be exactly half a spacing of an odd h, and then the rounding of h + l to nearest
even is not h, as R44's normal form has it: the two rules conflict there, and the pair of R58 is kept (log 113). -/
def toSplit : FVal → Nat × Ev
  | .nan => (EType.nan .split, .none)
  | .inf neg => ((if neg then 0xFF80 else 0x7F80) * 65536, .none)
  | .fin neg m e =>
    let h := (EType.roundFin .bf16 .rne false 0 neg m e).1
    match EType.val .bf16 h with
    | .fin _ k _ =>
      if k = 0 then (h * 65536, if m = 0 then .none else .flush)
      else
        match (FVal.fin neg m e).sub (EType.val .bf16 h) with
        | .fin n2 m2 e2 => (h * 65536 + (EType.roundFin .bf16 .rne false 0 n2 m2 e2).1, .none)
        | _ => (h * 65536, .none)
    | _ => (h * 65536, .sat)

/-- R53–R59: one conversion of an exact value into a type by a mode. FP4 of a non-finite value is settled by its
block (R67); its code here is 0. -/
def EType.conv (t : EType) (mode : Rnd) (e5inf : Bool) (r : Nat) (x : FVal) : Nat × Ev :=
  match t with
  | .ue8m0 => toUE8M0 x
  | .u8v => toU8V mode r x
  | .int8 => toInt 8 mode x
  | .int32 => toInt 32 mode x
  | .int64 => toInt 64 mode x
  | .split => toSplit x
  | _ =>
    match x with
    | .nan => (t.nan, .none)
    | .inf neg =>
      if t = .fp4 then (0, .none)
      else
        ((if neg then t.signBit else 0) +
          (if t = .e4m3 || (t = .e5m2 && !e5inf) then t.fmt.maxCode else t.infCode), .sat)
    | .fin neg m e => t.roundFin mode e5inf r neg m e

/-- The code alone, rounded to nearest even with infinities kept. -/
def EType.rne (t : EType) (x : FVal) : Nat := (t.conv .rne true 0 x).1

/-- FP32 code of a value, rounded once by RNE. -/
def fl (x : FVal) : Nat := EType.rne .fp32 x

/-- Value of an FP32 code. -/
def v32 (w : Nat) : FVal := EType.val .fp32 w

/-- One FP32 rounding as a value. -/
def flv (x : FVal) : FVal := v32 (fl x)

/-- One rounding by RNE into binary64, as a value (R87). -/
def fl64 (x : FVal) : FVal :=
  match x with
  | .fin neg m e =>
    if m = 0 then .fin neg 0 0
    else
      let kq := fmt64.round .rne 0 m e
      if fmt64.above kq.1 kq.2 then .inf neg else .fin neg kq.1 kq.2
  | y => y

/-- R50: `MAX` (`maximum`) and, with `mn`, `MIN`; a NaN operand gives NaN; +0 above −0. -/
def FVal.max (mn : Bool) (x y : FVal) : FVal :=
  match x, y with
  | .nan, _ | _, .nan => .nan
  | a, b =>
    if a.lt b then (if mn then a else b)
    else if b.lt a then (if mn then b else a)
    else if a.sign = mn then a else b

/-- R50: `MAXNUM` and, with `mn`, `MINNUM`: a NaN operand gives the other operand. -/
def FVal.maxnum (mn : Bool) (x y : FVal) : FVal :=
  match x, y with
  | .nan, b => b
  | a, .nan => a
  | a, b => a.max mn b

/-- R51: an FP32 code as an integer whose order is totalOrder. -/
def totalKey (w : Nat) : Int :=
  if bit w 31 then -((w % 2 ^ 31 : Nat) : Int) - 1 else ((w % 2 ^ 31 : Nat) : Int)

/-- Conversions that are exact by R53. -/
def exactConv (s d : EType) : Bool :=
  decide (s = d) ||
  match s with
  | .fp4 => [EType.e4m3, .e5m2, .bf16, .fp16, .hf19, .fp32].contains d
  | .e4m3 | .e5m2 => [EType.bf16, .fp16, .hf19, .fp32].contains d
  | .bf16 => [EType.hf19, .fp32, .split].contains d
  | .fp16 => [EType.hf19, .fp32].contains d
  | .hf19 => decide (d = .fp32)
  | .u8v | .ue8m0 => [EType.bf16, .hf19, .fp32].contains d
  | .int8 => [EType.bf16, .fp16, .hf19, .fp32, .int32, .int64].contains d
  | .int32 => decide (d = .int64)
  | _ => false

/-- R76: the 64-bit value `v` of seed, salt, stream and position. -/
def mix (seed salt stream pos : Nat) : Nat :=
  let M := 2 ^ 64
  let v := (seed % M) ^^^ ((stream % 2 ^ 16) * 2 ^ 48) ^^^ (pos % 2 ^ 48)
  let v := (v + (salt % 2 ^ 32) * 0x9E3779B97F4A7C15) % M
  let v := ((v ^^^ (v >>> 30)) * 0xBF58476D1CE4E5B9) % M
  let v := ((v ^^^ (v >>> 27)) * 0x94D049BB133111EB) % M
  v ^^^ (v >>> 31)

/-- R76: the 16-bit random value of one rounding. -/
def rand16 (seed salt stream pos : Nat) : Nat := mix seed salt stream pos / 2 ^ 48

/-- R82: one addition of `x` to an FP32 pair (hi, lo), as codes. -/
def pairAdd (hi lo : Nat) (x : FVal) : Nat × Nat :=
  let s := fl ((v32 hi).add x)
  if !(v32 s).isFin then (s, 0)
  else
    let e := ((v32 hi).add x).sub (v32 s)
    let t := fl ((v32 lo).add e)
    let h := fl ((v32 s).add (v32 t))
    if !(v32 h).isFin then (h, 0)
    else (h, fl (((v32 s).add (v32 t)).sub (v32 h)))

/-- Value of an FP32 pair. -/
def pairVal (p : Nat × Nat) : FVal :=
  if (v32 p.1).isFin then (v32 p.1).add (v32 p.2) else v32 p.1

end Sys2Proof.Machine
end

