-- ==== Sys2Proof/Machine/Block.lean ====
section
/-! DEFINITION. Block shapes and block scales (02_number_formats.md R60–R68): which block an element lies in, the layout
of a scale plane, the choice of a scale and the codes written under it. -/

namespace Sys2Proof.Machine

/-- Block shapes of R60. -/
inductive Block where
  | none | square | mx
  deriving DecidableEq, Repr

/-- Block shape codes; 3–7 are reserved (R60). -/
def Block.ofCode : Nat → Option Block
  | 0 => some .none | 1 => some .square | 2 => some .mx | _ => Option.none

/-- The code of a block shape. -/
def Block.code : Block → Nat
  | .none => 0 | .square => 1 | .mx => 2

/-- Elements have a scale. -/
def Block.scaled : Block → Bool
  | .none => false
  | _ => true

/-- Bytes of the scale plane of an R × C matrix (R61, R62). -/
def Block.planeBytes (b : Block) (rows cols : Nat) : Nat :=
  match b with
  | .none => 0
  | .square => cdiv rows 16 * cdiv cols 16
  | .mx => rows * cdiv cols 32

/-- The scale byte of element (r, c) in the plane of a matrix of `cols` columns (R61, R62). -/
def Block.scaleIx (b : Block) (cols r c : Nat) : Nat :=
  match b with
  | .none => 0
  | .square => r / 16 * cdiv cols 16 + c / 16
  | .mx => r * cdiv cols 32 + c / 32

/-- The elements of the block numbered `i` in the plane, as (row, column), only those that exist (R63). -/
def Block.cells (b : Block) (rows cols i : Nat) : List (Nat × Nat) :=
  match b with
  | .none => []
  | .square =>
    let bi := i / cdiv cols 16
    let bj := i % cdiv cols 16
    (List.range (min 16 (rows - 16 * bi))).flatMap fun r =>
      (List.range (min 16 (cols - 16 * bj))).map fun c => (16 * bi + r, 16 * bj + c)
  | .mx =>
    let r := i / cdiv cols 32
    let bk := i % cdiv cols 32
    (List.range (min 32 (cols - 32 * bk))).map fun c => (r, 32 * bk + c)

/-- R54: the value of an element under a scale byte; a NaN scale gives NaN. -/
def scaledVal (t : EType) (code scale : Nat) : FVal :=
  if scale = 255 then .nan else (t.val code).scale ((scale : Int) - 127)

/-- The magnitude maximum of a list by `MAX` (R50). -/
def maxAbs (vs : List FVal) : FVal := vs.foldl (fun m v => m.max false v.abs) (.zero false)

/-- The largest finite magnitude of a list, +0 where there is none (R66, R242). -/
def maxFinite (vs : List FVal) : FVal :=
  vs.foldl (fun m v => if v.isFin then m.max false v.abs else m) (.zero false)

/-- R66: the scale code of a block whose magnitude maximum is `m`. -/
def scaleOf (t : EType) (m : FVal) : Nat :=
  match m with
  | .fin n k e =>
    if k = 0 then 0
    else (max 0 (min 254 (127 + (FVal.fin n k e).ilog - t.eMax))).toNat
  | _ => 255

/-- How a block is written: its scale byte, and the codes and events of its elements in order. -/
structure BlockOut where
  scale : Nat
  codes : List (Nat × Ev)
  deriving DecidableEq, Repr

/-- The codes of a block's elements under scale `c`; an infinity in E5M2 keeps its code (R66, R248). Each element comes
with its random value. -/
def codesUnder (t : EType) (mode : Rnd) (e5inf : Bool) (c : Nat) (vs : List (FVal × Nat)) : List (Nat × Ev) :=
  vs.map fun vr =>
    match vr.1 with
    | .inf neg => ((if neg then t.signBit else 0) + t.infCode, .sat)
    | v => t.conv mode e5inf vr.2 (v.scale (127 - (c : Int)))

/-- R66, R67: a block written from wider values, with the scale `c?` where one is given (R248) and the scale of R66
else. -/
def writeBlock (t : EType) (mode : Rnd) (e5inf : Bool) (c? : Option Nat) (vs : List (FVal × Nat)) : BlockOut :=
  match maxAbs (vs.map Prod.fst) with
  | .nan => ⟨255, vs.map fun _ => (0, .none)⟩
  | .inf _ =>
    if t = .e5m2 then
      let c := c?.getD (scaleOf t (maxFinite (vs.map Prod.fst)))
      ⟨c, codesUnder t mode e5inf c vs⟩
    else ⟨255, vs.map fun _ => (0, .none)⟩
  | m =>
    let c := c?.getD (scaleOf t m)
    ⟨c, codesUnder t mode e5inf c vs⟩

end Sys2Proof.Machine
end

