-- ==== Sys2Proof/Machine/Regs.lean ====
section
/-! DEFINITION. Where each set-up register lies in the set-up register space (R469, and the register tables of the
chapters): the offset of the register, or of index 0 of an array whose indices are 8 bytes apart. -/

namespace Sys2Proof.Machine

namespace Reg

/-! GEOM block at 0x0000000 (R26). -/

abbrev geomId : Nat := 0x0000000
abbrev geomEpoch : Nat := 0x0000008
abbrev geomCtl : Nat := 0x0000010
abbrev geomCause : Nat := 0x0000018
abbrev geomCores : Nat := 0x0000020
abbrev geomQe : Nat := 0x0000028
abbrev geomSram : Nat := 0x0000030
abbrev geomDram : Nat := 0x0000038
abbrev geomStacks : Nat := 0x0000040
abbrev geomLarder : Nat := 0x0000048
abbrev geomHouse : Nat := 0x0000050
abbrev geomPortsUp : Nat := 0x0000058
abbrev geomClockSteps : Nat := 0x0000060
abbrev geomFw : Nat := 0x0000068
abbrev geomFuseCount : Nat := 0x0000070
def geomCoreMap (i : Nat) : Nat := 0x0001000 + 8 * i
def geomChanMap (i : Nat) : Nat := 0x0002000 + 8 * i
def geomStackMib (i : Nat) : Nat := 0x0003000 + 8 * i
def geomFuseLog (i : Nat) : Nat := 0x0010000 + 8 * i

/-! HOST block at 0x0100000 (R470). -/

abbrev hostStatus : Nat := 0x0100000
abbrev hostJob : Nat := 0x0100008
abbrev hostCancel : Nat := 0x0100010
abbrev hostSeq : Nat := 0x0100018
abbrev irqPending : Nat := 0x0100020
abbrev irqMask : Nat := 0x0100028
abbrev linkStatus : Nat := 0x0100030
abbrev linkCtl : Nat := 0x0100038
abbrev dbDropped : Nat := 0x0100100
abbrev linkRetrains : Nat := 0x0100108
abbrev hostReadErrors : Nat := 0x0100110
abbrev fltLost : Nat := 0x0100118
def ringBase (i : Nat) : Nat := 0x0110000 + 8 * i
def ringCfg (i : Nat) : Nat := 0x0118000 + 8 * i
def ringHead (i : Nat) : Nat := 0x0120000 + 8 * i
def ringTail (i : Nat) : Nat := 0x0128000 + 8 * i
def cqBase (i : Nat) : Nat := 0x0130000 + 8 * i
def cqCfg (i : Nat) : Nat := 0x0130800 + 8 * i
def cqTail (i : Nat) : Nat := 0x0131000 + 8 * i
def cqHead (i : Nat) : Nat := 0x0131800 + 8 * i
def cqShadow (i : Nat) : Nat := 0x0132000 + 8 * i
abbrev fltBase : Nat := 0x0134000
abbrev fltCfg : Nat := 0x0134008
abbrev fltTail : Nat := 0x0134010
abbrev fltHead : Nat := 0x0134018
abbrev fltShadow : Nat := 0x0134020
def hwinLo (i : Nat) : Nat := 0x0140000 + 8 * i
def hwinHi (i : Nat) : Nat := 0x0140040 + 8 * i
def qeCtx (i : Nat) : Nat := 0x0180000 + 8 * i

/-! POWER block at 0x0200000 (R494). -/

abbrev powerStatus : Nat := 0x0200000
abbrev powerReq : Nat := 0x0200008
abbrev powerCtl : Nat := 0x0200010
abbrev powerCap : Nat := 0x0200018
abbrev clkCtl : Nat := 0x0200020
abbrev clkStatus : Nat := 0x0200028
abbrev powerRetain : Nat := 0x0200030
abbrev powerTimer : Nat := 0x0200038
abbrev powerInput : Nat := 0x0200040
abbrev powerEnergy : Nat := 0x0200048
def powerRetainCores (i : Nat) : Nat := 0x0200100 + 8 * i
def powerShedCount (i : Nat) : Nat := 0x0200200 + 8 * i
abbrev powerAborts : Nat := 0x0200228
abbrev powerWakes : Nat := 0x0200230
abbrev powerCapSteps : Nat := 0x0200238
abbrev telemBase : Nat := 0x0200300
abbrev telemCfg : Nat := 0x0200308
abbrev telemTail : Nat := 0x0200310
abbrev telemHead : Nat := 0x0200318
abbrev telemLost : Nat := 0x0200320

/-! FAULT block at 0x0300000 (R510). -/

abbrev unitCmd : Nat := 0x0300000
abbrev fltLatch : Nat := 0x0300008
abbrev fltAlert : Nat := 0x0300010
abbrev thermCfg : Nat := 0x0300018
def unitState (i : Nat) : Nat := 0x0300100 + 8 * i
def thermC (i : Nat) : Nat := 0x0301000 + 8 * i
def sramCe (i : Nat) : Nat := 0x0302000 + 8 * i
def sramUe (i : Nat) : Nat := 0x0303000 + 8 * i

/-! FAULT block at 0x0300000 (R96). -/

abbrev dipCtl : Nat := 0x0340000
abbrev dipSeed : Nat := 0x0340008
abbrev dipStatus : Nat := 0x0340010
def dipTStatic (i : Nat) : Nat := 0x0340100 + 8 * i
def dipTFloor (i : Nat) : Nat := 0x0340200 + 8 * i
def dipCount (i : Nat) : Nat := 0x0341000 + 8 * i
def dipMean (i : Nat) : Nat := 0x0341400 + 8 * i
def dipVar (i : Nat) : Nat := 0x0341800 + 8 * i
def dipWorst (i : Nat) : Nat := 0x0341C00 + 8 * i
def dipQerr (i : Nat) : Nat := 0x0342000 + 8 * i
def dipMismatches (i : Nat) : Nat := 0x0342400 + 8 * i

/-! FAB block at 0x0400000 (R387). -/

abbrev fabCtl : Nat := 0x0400000
abbrev fabEpoch : Nat := 0x0400008
abbrev fabPortMask : Nat := 0x0400010
abbrev fabRetry : Nat := 0x0400018
abbrev fabCoord : Nat := 0x0400020
def fabPortStatus (i : Nat) : Nat := 0x0400100 + 8 * i
abbrev fabSpills : Nat := 0x0401000
abbrev fabOldMarked : Nat := 0x0401008
abbrev fabDrops : Nat := 0x0401010
abbrev fabRetries : Nat := 0x0401018
abbrev fabDupRequests : Nat := 0x0401020
abbrev fabStaleResp : Nat := 0x0401028
abbrev fabReadsCombined : Nat := 0x0401030
abbrev fabAtomicsCombined : Nat := 0x0401038
abbrev fabReinjected : Nat := 0x0401040
abbrev fabStaleEpoch : Nat := 0x0401048
abbrev fabRouteMiss : Nat := 0x0401050
abbrev fabEjectRefused : Nat := 0x0401058
abbrev fabE2eErrors : Nat := 0x0401060
abbrev fabBadCells : Nat := 0x0401068
def roomRouteA (i : Nat) : Nat := 0x0500000 + 8 * i
def houseRouteA (i : Nat) : Nat := 0x0501000 + 8 * i
def roomRouteB (i : Nat) : Nat := 0x0600000 + 8 * i
def houseRouteB (i : Nat) : Nat := 0x0601000 + 8 * i

/-! FAB block at 0x0400000 (R411). -/

def owinScope (i : Nat) : Nat := 0x0700000 + 8 * i
def owinRange (i : Nat) : Nat := 0x0700100 + 8 * i
def iwinScope (i : Nat) : Nat := 0x0700200 + 8 * i
def iwinRange (i : Nat) : Nat := 0x0700300 + 8 * i
abbrev fabTarget : Nat := 0x0780000
abbrev fabRoomDead : Nat := 0x0780008
abbrev doorCtl : Nat := 0x0780010
abbrev fabTimeouts : Nat := 0x0780100
abbrev fabInboundRefused : Nat := 0x0780108
abbrev doorLoadsRefused : Nat := 0x0780110
abbrev doorMsgsSent : Nat := 0x0780118
abbrev doorMsgsApplied : Nat := 0x0780120
abbrev doorRetransmits : Nat := 0x0780128
abbrev doorDupMsgs : Nat := 0x0780130
abbrev doorTimeouts : Nat := 0x0780138

/-! FAB block at 0x0400000 (R437). -/

abbrev colDone : Nat := 0x07C0000
abbrev colOnTime : Nat := 0x07C0008
abbrev colMissing : Nat := 0x07C0010
abbrev colDead : Nat := 0x07C0018
abbrev colLateCarried : Nat := 0x07C0020
abbrev colLateDropped : Nat := 0x07C0028
abbrev colSumpDiscarded : Nat := 0x07C0030
abbrev colChronic : Nat := 0x07C0038
abbrev colSkews : Nat := 0x07C0040
abbrev colStageRetries : Nat := 0x07C0048
abbrev colDoorBytes : Nat := 0x07C0050
abbrev colEfReturns : Nat := 0x07C0058

/-! MEM block at 0x0800000 (R356). -/

abbrev memCtl : Nat := 0x0800000
abbrev memShare : Nat := 0x0800008
abbrev memClassMap : Nat := 0x0800010
abbrev memLarderCfg : Nat := 0x0800018
abbrev memScrub : Nat := 0x0800020
abbrev memErrCfg : Nat := 0x0800028
abbrev memMapoutReq : Nat := 0x0800030
def memStackStatus (i : Nat) : Nat := 0x0800100 + 8 * i
def memChanFailed (i : Nat) : Nat := 0x0800200 + 8 * i
def memChanPending (i : Nat) : Nat := 0x0800300 + 8 * i
def memClassBytes (i : Nat) : Nat := 0x0800400 + 8 * i
def larderHits (i : Nat) : Nat := 0x0800800 + 8 * i
def larderMisses (i : Nat) : Nat := 0x0800820 + 8 * i
def larderAtomics (i : Nat) : Nat := 0x0800840 + 8 * i
def larderReadsCombined (i : Nat) : Nat := 0x0800860 + 8 * i
def memCe (i : Nat) : Nat := 0x0810000 + 8 * i
def memUe (i : Nat) : Nat := 0x0814000 + 8 * i

/-! MEM block at 0x0800000 (R217). -/

def moverStatus (i : Nat) : Nat := 0x0830000 + 8 * i
def moverBytesDense (i : Nat) : Nat := 0x0830020 + 8 * i
def moverBytesStrided (i : Nat) : Nat := 0x0830040 + 8 * i
def moverClamps (i : Nat) : Nat := 0x0830060 + 8 * i
def moverOverlaps (i : Nat) : Nat := 0x0830080 + 8 * i
def moverStaged (i : Nat) : Nat := 0x08300A0 + 8 * i
def moverInplace (i : Nat) : Nat := 0x08300C0 + 8 * i

/-! MEM block at 0x0800000 (R257). -/

def sclCfg (i : Nat) : Nat := 0x0840000 + 8 * i
def sclState (i : Nat) : Nat := 0x0842000 + 8 * i
def sclCur (i : Nat) : Nat := 0x0844000 + 8 * i
def sclSeed (i : Nat) : Nat := 0x0846000 + 8 * i
def sclSat (i : Nat) : Nat := 0x0848000 + 8 * i
def sclFlush (i : Nat) : Nat := 0x084A000 + 8 * i
def sclNonfinite (i : Nat) : Nat := 0x084C000 + 8 * i
def sclRing (i : Nat) : Nat := 0x0850000 + 8 * i
abbrev rngStep : Nat := 0x08E0000
def rngConv (i : Nat) : Nat := 0x08E0100 + 8 * i
def rngSat (i : Nat) : Nat := 0x08E0180 + 8 * i
def rngFlush (i : Nat) : Nat := 0x08E0200 + 8 * i
def rngConvStep (i : Nat) : Nat := 0x08E0280 + 8 * i
def rngSatStep (i : Nat) : Nat := 0x08E0300 + 8 * i
def rngFlushStep (i : Nat) : Nat := 0x08E0380 + 8 * i

/-! MEM block at 0x0800000 (R274). -/

abbrev updDone : Nat := 0x0900000
abbrev updLastStep : Nat := 0x0900008
abbrev updElements : Nat := 0x0900010
abbrev updDecayed : Nat := 0x0900018
abbrev updSkipped : Nat := 0x0900020
abbrev updNonfinite : Nat := 0x0900028
abbrev updUclips : Nat := 0x0900030

/-! PAN block at 0x0C00000 (R331). -/

def panCfg (i : Nat) : Nat := 0x0C00000 + 8 * i
def panBase (i : Nat) : Nat := 0x0C00200 + 8 * i
def panRingBase (i : Nat) : Nat := 0x0C00400 + 8 * i
def panFree (i : Nat) : Nat := 0x0C00600 + 8 * i
def panLowWater (i : Nat) : Nat := 0x0C00800 + 8 * i
def panAllocs (i : Nat) : Nat := 0x0C01000 + 8 * i
def panFails (i : Nat) : Nat := 0x0C01200 + 8 * i
def panReleases (i : Nat) : Nat := 0x0C01400 + 8 * i
def panBadRefs (i : Nat) : Nat := 0x0C01600 + 8 * i

/-! SLU block at 0x0D00000 (R330). -/

abbrev sluRrBase : Nat := 0x0D00000
abbrev sluRrCount : Nat := 0x0D00008
abbrev sluRrLive : Nat := 0x0D00010
abbrev sluGenHold : Nat := 0x0D00018
abbrev sluRrWater : Nat := 0x0D00020
def sluPools (i : Nat) : Nat := 0x0D01000 + 8 * i
def sluRound (i : Nat) : Nat := 0x0D10000 + 8 * i
abbrev sluRetries : Nat := 0x0D20200
abbrev sluStaleAnswers : Nat := 0x0D20208
abbrev sluDupAnswers : Nat := 0x0D20210
abbrev sluAnswersMissing : Nat := 0x0D20218
abbrev sluCancels : Nat := 0x0D20220

/-! SLU block at 0x0D00000 (R299). -/

abbrev sluLayerBase : Nat := 0x0D20000
abbrev sluLayerCount : Nat := 0x0D20008
abbrev sluCountTimeout : Nat := 0x0D20010
abbrev sluTried : Nat := 0x0D20100
abbrev sluAdmitted : Nat := 0x0D20108
abbrev sluOverflowAdmitted : Nat := 0x0D20110
abbrev sluDropFull : Nat := 0x0D20118
abbrev sluDropInvalid : Nat := 0x0D20120
abbrev sluDropSkew : Nat := 0x0D20128
abbrev sluDropLate : Nat := 0x0D20130
abbrev sluTokensEmpty : Nat := 0x0D20138
abbrev sluRenormKept : Nat := 0x0D20140
abbrev sluPlaceSwaps : Nat := 0x0D20148
abbrev sluPlaceDeferred : Nat := 0x0D20150

/-! SEC block at 0x2000000 (R525). -/

abbrev secBootStatus : Nat := 0x2000000
abbrev secFwAddr : Nat := 0x2000008
abbrev secFwLen : Nat := 0x2000010
abbrev secFwGo : Nat := 0x2000018
abbrev secReset : Nat := 0x2000020
abbrev secRollback : Nat := 0x2000028
abbrev secRollbackReq : Nat := 0x2000030
abbrev secKeys : Nat := 0x2000038
abbrev secAttestAddr : Nat := 0x2000040
abbrev secAttest : Nat := 0x2000048
abbrev secDebug : Nat := 0x2000050
abbrev secExtend : Nat := 0x2000058
abbrev secKeeperChanges : Nat := 0x2000060
def secNonce (i : Nat) : Nat := 0x2000100 + 8 * i
def secIdPk (i : Nat) : Nat := 0x2000200 + 8 * i
def secExtData (i : Nat) : Nat := 0x2000300 + 8 * i
def secMeas (i : Nat) : Nat := 0x2000400 + 8 * i

/-! CORE block of physical core n at 0x1000000 + n × 0x4000 (R121, R159, R181, R240). -/

/-- The CORE block of physical core `n`. -/
def coreBlock (n : Nat) : Nat := 0x1000000 + 0x4000 * n

def coreCtl (k : Nat) : Nat := coreBlock k + 0x0
def coreStatus (k : Nat) : Nat := coreBlock k + 0x8
def corePc (k : Nat) : Nat := coreBlock k + 0x10
def coreFault (k : Nat) : Nat := coreBlock k + 0x18
def coreTag (k : Nat) : Nat := coreBlock k + 0x20
def coreInstrDone (k : Nat) : Nat := coreBlock k + 0x100
def coreIssueWait (k : Nat) : Nat := coreBlock k + 0x108
def coreSyncWait (k : Nat) : Nat := coreBlock k + 0x110
def coreTqPops (k : Nat) : Nat := coreBlock k + 0x118
def coreSyncOverflows (k : Nat) : Nat := coreBlock k + 0x120
def arrayStatus (k : Nat) : Nat := coreBlock k + 0x3000
def arrayRepair (k : Nat) : Nat := coreBlock k + 0x3008
def arrayCtl (k : Nat) : Nat := coreBlock k + 0x3010
def arrayMxDone (k : Nat) : Nat := coreBlock k + 0x3018
def arrayStream (k : Nat) : Nat := coreBlock k + 0x3020
def arrayLoad (k : Nat) : Nat := coreBlock k + 0x3028
def arrayIdle (k : Nat) : Nat := coreBlock k + 0x3030
def arrayPad (k : Nat) : Nat := coreBlock k + 0x3038
def arrayHeld (k : Nat) : Nat := coreBlock k + 0x3040
def vecVxDone (k : Nat) : Nat := coreBlock k + 0x3100
def vecBusy (k : Nat) : Nat := coreBlock k + 0x3108
def vecSupply (k : Nat) : Nat := coreBlock k + 0x3110
def vecClamps (k : Nat) : Nat := coreBlock k + 0x3118
def vecEmptyRows (k : Nat) : Nat := coreBlock k + 0x3120
def vecSilu (k : Nat) : Nat := coreBlock k + 0x3128
def cisStatus (k : Nat) : Nat := coreBlock k + 0x3200
def cisSeed (k : Nat) : Nat := coreBlock k + 0x3208
def cisStream (k : Nat) : Nat := coreBlock k + 0x3210
def cisTouched (k i : Nat) : Nat := coreBlock k + 0x3220 + 8 * i
def cisMxAdds (k : Nat) : Nat := coreBlock k + 0x3240
def cisOpens (k : Nat) : Nat := coreBlock k + 0x3248
def cisLoaded (k : Nat) : Nat := coreBlock k + 0x3250
def cisStored (k : Nat) : Nat := coreBlock k + 0x3258

end Reg

/-- The mapped ranges of the set-up register space outside the CORE blocks: first offset and number of registers. -/
def regRanges : List (Nat × Nat) :=
  [(0x0, 15), (0x1000, 256), (0x2000, 32), (0x3000, 16), (0x10000, 8192), (0x100000, 8), (0x100100, 4), (0x110000, 17664), (0x134000, 5), (0x140000, 16), (0x180000, 512), (0x200000, 10)] ++
  [(0x200100, 4), (0x200200, 8), (0x200300, 5), (0x300000, 4), (0x300100, 84), (0x301000, 100), (0x302000, 260), (0x303000, 260), (0x340000, 3), (0x340100, 8), (0x340200, 8), (0x341000, 896)] ++
  [(0x400000, 5), (0x400100, 40), (0x401000, 14), (0x500000, 32), (0x501000, 65536), (0x600000, 32), (0x601000, 65536), (0x700000, 128), (0x780000, 3), (0x780100, 8), (0x7C0000, 12), (0x800000, 7)] ++
  [(0x800100, 16), (0x800200, 128), (0x800800, 16), (0x810000, 4096), (0x830000, 28), (0x840000, 7168), (0x850000, 65536), (0x8E0000, 1), (0x8E0100, 96), (0x900000, 7), (0xC00000, 320), (0xC01000, 256)] ++
  [(0xD00000, 5), (0xD01000, 256), (0xD10000, 64), (0xD20000, 3), (0xD20100, 11), (0xD20200, 5), (0x2000000, 13), (0x2000100, 4), (0x2000200, 8), (0x2000300, 8), (0x2000400, 64)]

/-- The mapped ranges of one CORE block. -/
def coreRanges : List (Nat × Nat) :=
  [(0x0, 5), (0x100, 5), (0x3000, 9), (0x3100, 6), (0x3200, 3), (0x3220, 8)]

/-- An offset, a multiple of 8, lies in one of the ranges. -/
def inRanges (rs : List (Nat × Nat)) (o : Nat) : Bool :=
  rs.any fun r => decide (r.1 ≤ o) && decide (o < r.1 + 8 * r.2)

/-- A register lies at this offset (R441, R469). -/
def regMapped (o : Nat) : Bool :=
  o % 8 = 0 && (inRanges regRanges o ||
    (decide (0x1000000 ≤ o) && decide (o < 0x1400000) && inRanges coreRanges ((o - 0x1000000) % 0x4000)))

/-- Entry `i` of a short list of reset values. -/
def nthWord (l : List Nat) (i : Nat) : Word := BitVec.ofNat 64 (l.getD i 0)

/-- The value a register holds at reset, from the register tables; fields loaded from fuses read as on a part with no
fuse blown. -/
def regReset (o : Nat) : Word :=
  if o < 0x100000 then
    if o = Reg.geomId then 0x2548A102
    else if o = Reg.geomEpoch then 1
    else if o = Reg.geomCores then 0x1000100
    else if o = Reg.geomQe then 0x840
    else if o = Reg.geomSram then 0x040040003000
    else if o = Reg.geomDram then 0x120000
    else if o = Reg.geomStacks then 0xFFFF
    else if o = Reg.geomLarder then 0x400400
    else if o = Reg.geomHouse then 0x100
    else if o = Reg.geomPortsUp then 0xFFFFFFFFFF
    else if o = Reg.geomClockSteps then 0x1F
    else if 0x1000 ≤ o ∧ o < 0x1800 then BitVec.ofNat 64 (0x80000000 + (o - 0x1000) / 8)
    else if 0x2000 ≤ o ∧ o < 0x2100 then 0xFFFFFFFFFFFFFFFF
    else if 0x3000 ≤ o ∧ o < 0x3080 then 0x12000
    else 0
  else if o = Reg.irqMask then 0xFFFFFFFFFFFFFFFF
  else if o = Reg.linkCtl then 0x3E8
  else if o = Reg.powerCtl then 0x03E8006400000000
  else if o = Reg.powerCap then 0x112C0
  else if o = Reg.thermCfg then 0x73695F
  else if o = Reg.dipCtl then 0x100010806D
  else if 0x340100 ≤ o ∧ o < 0x340140 then
    nthWord [0x37000000, 0x37000000, 0x37000000, 0x37000000, 0x37800000, 0x40800000, 0x40800000, 0x41000000]
      ((o - 0x340100) / 8)
  else if 0x340200 ≤ o ∧ o < 0x340240 then
    nthWord [0x34800000, 0x34800000, 0x34800000, 0x34800000, 0x34800000, 0x3F800000, 0x3F800000, 0x3F800000]
      ((o - 0x340200) / 8)
  else if o = Reg.fabCtl then 3
  else if o = Reg.fabEpoch then 0x140000
  else if o = Reg.fabRetry then 0x28
  else if o = Reg.fabCoord then 0x100
  else if o = Reg.fabTarget then 0xFA
  else if o = Reg.doorCtl then 0x7D0000001F4
  else if o = Reg.memCtl then 4
  else if o = Reg.memShare then 0x20810
  else if o = Reg.memClassMap then 0xD610
  else if o = Reg.memScrub then 0x10
  else if o = Reg.memErrCfg then 4
  else if 0x840000 ≤ o ∧ o < 0x842000 then 0x10F
  else if 0x842000 ≤ o ∧ o < 0x844000 then 1
  else if o = Reg.sluGenHold then 0x3E8
  else if o = Reg.sluCountTimeout then 0xFA
  else if o = Reg.secDebug then 1
  else 0

end Sys2Proof.Machine
end

