-- ==== Sys2Proof/Machine/State.lean ====
section
/-! DEFINITION. The state of the Criaro as plain data: every register, memory, queue and mode the spec gives it, the
queue of commands that wait, and the state after reset. -/

namespace Sys2Proof.Machine

/-! ## Cores -/

/-- The states of a tile handle (R130). -/
inductive HState where
  | free | allocated | loading | resident
  deriving DecidableEq, Repr

/-- A tile handle (R129): local base, shape, row pitch in bytes, element type, block shape and scale-plane base.
`pair` is the Cistern layout that held when the TDEF issued (R222). -/
structure Handle where
  st : HState
  base : Nat
  rows : Nat
  cols : Nat
  pitch : Nat
  ty : EType
  block : Block
  scale : Nat
  pair : Bool
  deriving DecidableEq, Repr

/-- A handle with no region (R130). -/
def Handle.none : Handle := ⟨.free, 0, 0, 0, 0, .fp32, .none, 0, false⟩

/-- What a core has outstanding (R125, R137, R145); `prog` is the copy of a program's text into the store (R151). -/
inductive AKind where
  | sld | sst | amo | tload | tstore | tqpop | prog
  deriving DecidableEq, Repr

/-- An access a core has issued and that has not completed. `num` is the scalar register or handle it names; `h` a
TLOAD's or TSTORE's handle as it was at issue; `left` the requests the transaction tracker still has out for it and
`got` the bytes they have brought; `pc` and `word` the instruction it belongs to. -/
structure Access where
  id : Nat
  kind : AKind
  addr : Nat
  size : Nat
  num : Nat
  sub : Nat
  data : Nat
  cmp : Nat
  h : Handle
  pitch : Nat
  plane : Nat
  remote : Bool
  left : Nat
  got : Cells
  bad : Bool
  refused : Bool
  pc : Nat
  word : Nat
  deriving DecidableEq, Repr

/-- Semaphore and event operations of a core (R145). -/
inductive SKind where
  | semwait | semsig | semtry | evwait | evset | evclr
  deriving DecidableEq, Repr

/-- A semaphore or event operation that has issued and that the Larder has not applied (R148). The accesses of the core
numbered below `after` were issued before it. -/
structure SyncOp where
  kind : SKind
  obj : Nat
  n : Nat
  rd : Nat
  after : Nat
  deriving DecidableEq, Repr

/-- The program a core runs: its LAUNCH, the core's index in it, its logical number, the program's length, the partial
pool (R128), the geometry epoch at the start (R135), whether the core stops (R158), and whether the program is a built-in one (R201, R209,
R267). -/
structure Run where
  launch : Nat
  idx : Nat
  lcore : Nat
  len : Nat
  banks : Nat
  epoch : Nat
  stopping : Bool
  builtin : Bool
  deriving DecidableEq, Repr

/-- An MX, VX or SCALE instruction from its issue to its completion (R102, R108, R163): its word, the handles it
names with their properties at issue, the scalar it broadcasts, the inputs of R77, the history state an SCONV took
(R245), the dip taken from it (R85), its LAUNCH, and its timing: the cycle at which it started, for an MX instruction the cycle at which its
first row enters and the cycles in which its first load holds the rows back (R101, R102). -/
structure Flight where
  word : Nat
  td : Option (Nat × Handle)
  ta : Option (Nat × Handle)
  tb : Option (Nat × Handle)
  tc : Option (Nat × Handle)
  scalar : Nat
  seed : Nat
  salt : Nat
  pos : Nat
  rd : Option Nat
  cold : Bool
  amax : Nat
  sample : Option (Nat × Nat)
  launch : Nat
  since : Nat
  loadWait : Nat
  deriving DecidableEq, Repr

/-- What a core waits for (R122, R159): at issue for handles, registers or the partial pool; in SEMWAIT, EVWAIT or TWAIT; at issue for an
engine that is full or held. -/
inductive WaitFor where
  | operands | sync | engine
  deriving DecidableEq, Repr

/-- The state of one physical core beside its set-up registers. -/
structure Core where
  /-- s0–s31 at 0–31, a0–a15 at 32–47 (R123). -/
  regs : Tbl Word
  /-- Scalar registers whose value has not arrived (R125). -/
  pend : List Nat
  /-- t0–t63 (R123). -/
  handles : Tbl Handle
  /-- The program store (R122) and the `prog_addr` it holds (R150). -/
  prog : Tbl Word
  progAddr : Option Nat
  pc : Nat
  run : Option Run
  /-- Queued LAUNCHes with this core's index in each, oldest first (R151). -/
  queue : List (Nat × Nat)
  outs : List Access
  syncs : List SyncOp
  nextId : Nat
  /-- The core waits at a SEMWAIT or EVWAIT whose operation has not been granted. -/
  inSync : Bool
  /-- What the core waits for, since this core cycle. -/
  waitAt : Option (WaitFor × Nat)
  mxq : List Flight
  vxq : List Flight
  /-- MX and VX instructions issued (R85), MX dips taken (R86), and whether the next MX instruction is sampled (R85). -/
  mxn : Nat
  vxn : Nat
  dipn : Nat
  forceMx : Bool
  /-- A test or repair holds MX, VX and SCALE issue (R107); the test itself runs (R117). -/
  hold : Bool
  inTest : Bool
  /-- A test was asked for by TEST_NOW or by a mismatch (R117). -/
  testDue : Bool
  /-- Earliest completion sequence since the last passed rotating self-test (R92). -/
  suspect : Option Nat
  /-- Hundredths of a core cycle elapsed when the core was last reset (R135), and when the array was last idle. -/
  cyc0 : Nat
  idleAt : Nat
  /-- An MX instruction waits at issue under a hold since this core cycle (R121). -/
  heldAt : Option Nat
  /-- The core is in service (R30, R506). -/
  retired : Bool
  deriving DecidableEq, Repr

/-- A core after core reset. -/
def Core.init : Core where
  regs := []
  pend := []
  handles := []
  prog := []
  progAddr := none
  pc := 0
  run := none
  queue := []
  outs := []
  syncs := []
  nextId := 0
  inSync := false
  waitAt := none
  mxq := []
  vxq := []
  mxn := 0
  vxn := 0
  dipn := 0
  forceMx := false
  hold := false
  inTest := false
  testDue := false
  suspect := none
  cyc0 := 0
  idleAt := 0
  heldAt := none
  retired := false

/-- One checked element of a dip (R87): its place, the core's FP32 result y as a code, the wide value, A, and the
narrowed value where one was written. `half` says that the result type is BF16 (class 6). -/
structure DipCell where
  row : Nat
  col : Nat
  y : Nat
  w : FVal
  amag : FVal
  yout : Option FVal
  deriving DecidableEq, Repr

/-- A dip whose operands are captured and that is not resolved yet (R87, R91). -/
structure Dip where
  core : Nat
  launch : Nat
  cls : Nat
  cells : List DipCell
  deriving DecidableEq, Repr

/-! ## Semaphores and events -/

/-- Who waits on a semaphore or event: a core's SEMWAIT or EVWAIT, or a descriptor's FENCE or `wait_en` (R147). -/
inductive Waiter where
  | core (k n : Nat)
  | slot (id n : Nat)
  deriving DecidableEq, Repr

/-- The sync area and its waiters (R146, R147). -/
structure Sync where
  sems : Tbl Word32
  events : Tbl Bool
  semQ : Tbl (List Waiter)
  evQ : Tbl (List Waiter)
  deriving DecidableEq, Repr

/-! ## Queue engines -/

/-- How far a fetched descriptor has come (R435, R436, R449, R463): fetched; at its context's head waiting for its semaphore,
ready, or parked on a pool (64: the route record store); started; ended with a status and an info field. -/
inductive Stage where
  | fetched
  | waiting
  | ready
  | parked (on : Nat)
  | started
  | ended (status info : Nat)
  deriving DecidableEq, Repr

/-- A descriptor that has been fetched and has no completion record yet: ring, context (8 × queue engine + context), completion
ring, its eight words, its stage. `grant` says that what it waited for has been given; `step` is a FENCE's progress through
its conditions; `dead` and `refused` say that one of its requests met a dead target or a refusal (R392, R400); `badHost`
lists the host ranges whose reads the host answered with an error (R444). `asks` are the ranges of tensor descriptors and tables that the queue
engine has read or asked for and `tabs` those it has, with their bytes, read once (R182, R263, R265); `got` are the bytes of other rooms its LOADs
have brought (R395); `info` is what the record of an EXCHANGE says that is cancelled or refused (R323), `count` what it has counted for its record (R204, R272), `idx` the clamped indices of a GATHER or SCATTER or, with `addrs`, the buffers that another room
has allocated (R327), and `convs` the conversions of an UPDATE, each as element type code, conversions, saturations and flushes, which count when it
completes (R274). Of a GATHER of the collective engine `idx` holds its buffer's address and `addrs` the rooms found dead since it began (R415). -/
structure Slot where
  ring : Nat
  ctx : Nat
  cq : Nat
  words : List Nat
  stage : Stage
  grant : Bool
  cancelled : Bool
  step : Nat
  dead : Bool
  refused : Bool
  badHost : List (Nat × Nat)
  asks : List (Nat × Nat)
  tabs : List (Nat × List Byte)
  got : Cells
  info : Nat
  count : Nat
  idx : List Nat
  addrs : List Nat
  convs : List (Nat × Nat × Nat × Nat)
  deriving DecidableEq, Repr

/-- An empty slot. -/
def Slot.none : Slot := ⟨0, 0, 0, [], .fetched, false, false, 0, false, false, [], [], [], [], 0, 0, [], [], []⟩

/-- A LAUNCH that has been accepted (R150–R158): the physical cores it addresses in order, how many of their queues it
has entered, its tile counter (R153), when its first core started (R157), the indexes of the cores that have ended or
stopped, the first program fault (cause, index), and the outcomes of R156. -/
structure LaunchRun where
  cores : List Nat
  entered : Nat
  tile : Nat
  t0 : Option Nat
  done : List Nat
  fault : Option (Nat × Nat)
  cancelled : Bool
  retired : Bool
  mismatch : Bool
  dead : Bool
  cold : Bool
  clamped : Bool
  deriving DecidableEq, Repr

/-- No LAUNCH. -/
def LaunchRun.none : LaunchRun := ⟨[], 0, 0, Option.none, [], Option.none, false, false, false, false, false, false⟩

/-- A fault record that waits for the fault ring (R465, R466). -/
structure FaultRec where
  status : Nat
  info : Nat
  fseq : Nat
  time : Nat
  kind : Nat
  index : Nat
  detail : Nat
  detail2 : Nat
  deriving DecidableEq, Repr

/-- A completion record that waits for its ring (R462–R464); `cores` are the physical cores of a LAUNCH. -/
structure CompRec where
  ring : Nat
  cq : Nat
  tag : Nat
  status : Nat
  info : Nat
  cores : List Nat
  deriving DecidableEq, Repr

/-- A blown fuse (R509), without its check word. -/
structure Fuse where
  kind : Nat
  nth : Nat
  target : Nat
  line : Nat
  fw : Nat
  deriving DecidableEq, Repr

/-- A scale history beside its configuration register (R241, R256): the ring, newest maximum first, the step
accumulator, `SEEN`, the maximum in force, `COLD`, and the step's running counts of saturations, flushes and non-finite
elements. FP32 values are held as codes. -/
structure Hist where
  ring : List Nat
  acc : Nat
  seen : Bool
  amax : Nat
  cold : Bool
  len : Nat
  margin : Nat
  sat : Nat
  flush : Nat
  nonfin : Nat
  deriving DecidableEq, Repr

/-- A history after reset (R254); `len` and `margin` are the configuration in force, LEN_M1 and MARGIN of R257. -/
def Hist.init : Hist := ⟨[], 0, false, 0, true, 15, 1, 0, 0, 0⟩

/-! ## Requests -/

/-- On whose account a request of this room is outstanding (R397): an access of a core, a descriptor, a unit acting
on its own account, a kept message of a unit by its number, or a crossbar that combines the reads of other rooms (R379). -/
inductive Requester where
  | core (k id : Nat)
  | slot (id : Nat)
  | unit (u : Nat)
  | msg (n : Nat)
  | comb
  deriving DecidableEq, Repr

/-- A request of the transaction tracker (R373): the cell that carries it, who made it, whether it waits without a tag
behind an earlier one (R397), whether it has been sent, and whether a door engine carries it (R405). -/
structure Req where
  cell : Cell
  who : Requester
  held : Bool
  sent : Bool
  door : Bool
  deriving DecidableEq, Repr

/-- A pool of buffers (R324, R325): the free buffers in the Pantry's cache, and the first entry and the number of entries in use of the free ring,
which lies in memory. -/
structure Pool where
  cache : List Nat
  head : Nat
  free : Nat
  deriving DecidableEq, Repr

/-- A read combining (R379): the die whose crossbar opened it, when, the tag of the request it sent, and the requests it answers. -/
structure Comb where
  die : Nat
  t0 : Nat
  tag : Nat
  members : List Cell
  deriving DecidableEq, Repr

/-- A tensor descriptor. Sizes of dimensions at or above the rank read 1, their strides 0 (R184); `raw` holds its bytes. -/
structure TDesc where
  raw : List Byte
  ty : EType
  block : Block
  rank : Nat
  owned : Bool
  e5inf : Bool
  hf19Rne : Bool
  base : Nat
  scaleBase : Nat
  ownerTable : Nat
  version : Nat
  size : List Nat
  stride : List Nat
  deriving DecidableEq, Repr

/-- One shard of an owned tensor (R189), with the address of its entry; a tensor that is not owned is one shard. -/
structure Shard where
  loc : Nat
  first : Nat
  count : Nat
  version : Nat
  scaleLoc : Nat
  entry : Nat
  deriving DecidableEq, Repr

/-- A tensor: its descriptor, the dimension it is split along, its shards. -/
structure Tensor where
  d : TDesc
  split : Nat
  shards : List Shard
  deriving DecidableEq, Repr

/-- A bulk get in progress (R410): its MOVE, its tensors, the bytes received by their place in the stream of elements and then scales, and
whether some were reported as the error value. -/
structure Get where
  slot : Nat
  src : Tensor
  dst : Tensor
  got : Cells
  bad : Bool
  deriving DecidableEq, Repr

/-- A bulk message this room's door engines keep (R405–R409): its number in the model, the engine, the destination, the issuing room, the
fields of its header, the cells it contains, whether it is closed, sent, acknowledged, and the bulk get it begins. -/
structure DoorMsg where
  id : Nat
  engine : Nat
  house : Nat
  room : Nat
  srcHouse : Nat
  srcRoom : Nat
  kind : Nat
  seq : Nat
  reset : Bool
  cells : List Cell
  arg0 : Nat
  arg1 : Nat
  closed : Bool
  sent : Bool
  acked : Bool
  get : Option Get
  deriving DecidableEq, Repr

/-- What a door engine holds of one source engine (R408): the sequence number last applied and messages ahead of a gap. -/
structure DoorIn where
  last : Nat
  held : List BulkMsg
  deriving DecidableEq, Repr

/-! ## Exchanges -/

/-- A route record (R306) and its place in the store; `excess`, `fwd`, `brow` and `bwd` are its flags. -/
structure Route where
  idx : Nat
  token : Nat
  rank : Nat
  excess : Bool
  fwd : Bool
  brow : Bool
  bwd : Bool
  house : Nat
  room : Nat
  slot : Nat
  row : Nat
  weight : Nat
  handle : Nat
  deriving DecidableEq, Repr

/-- An entry of the combine table (R302, R305, R330): the round, its state, T, the records it holds or reserves, its choices that were dropped,
its route records, its slot area. -/
structure Round where
  layer : Nat
  gen : Nat
  state : Nat
  hold : Bool
  fwdOnly : Bool
  tokens : Nat
  reserved : Nat
  dropped : Nat
  routes : List Route
  area : List Nat
  deriving DecidableEq, Repr

/-- A free entry. -/
def Round.none : Round := ⟨0, 0, 0, false, false, 0, 0, 0, [], []⟩

/-- A choice that admission has reached (R276, R280): its entry, the instance it is tried at, the step of R285, and its outcome once there is
one. -/
structure Try where
  token : Nat
  rank : Nat
  expert : Nat
  weight : Nat
  inst : Nat
  house : Nat
  room : Nat
  slot : Nat
  step : Nat
  outcome : Option Nat
  deriving DecidableEq, Repr

/-- An EXCHANGE in execution: its descriptor, its phase and round, its peers and those found dead, the tensor of its rows or its destination, the
choice and admission lists, its table, the layer's fields as they were at its start, and how far it has come. `terms` are the answers that lie in the
slot area of a SLOTTED combine, by route record, with the form of their rows. -/
structure Exch where
  slot : Nat
  phase : Nat
  layer : Nat
  gen : Nat
  peers : List (Nat × Nat)
  dead : List (Nat × Nat)
  rows : Tensor
  choices : Option Tensor
  admits : Option Tensor
  table : Nat
  k : Nat
  s : Nat
  ranked : Bool
  renorm : Bool
  count : Nat
  place : Nat
  ver : Nat
  slots : Nat
  step : Nat
  tries : List Try
  final : List Nat
  sent : Bool
  skew : Bool
  part : Bool
  bad : Bool
  slotted : Bool
  keep : Bool
  terms : List (Nat × RowFmt)
  deriving DecidableEq, Repr

/-- A receive row that has come: its number, its source, and its arrival entry (R309). -/
structure Arrived where
  row : Nat
  house : Nat
  room : Nat
  token : Nat
  rank : Nat
  store : Nat
  deriving DecidableEq, Repr

/-- Counts held of one source (R284). -/
structure Counted where
  house : Nat
  room : Nat
  step : Nat
  expert : Nat
  inst : Nat
  peers : Nat
  ranks : List (Nat × Nat)
  deriving DecidableEq, Repr

/-- A slot this room serves in a round (R281, R308): its capacity and counts, its forward and backward receive buffers with the form of their
rows, the rows that have come, the counts that wait and the steps already answered, answers not acknowledged yet (row, house, room) and the
handle they refer to. `refused` says that no buffer of the pool is large enough. -/
structure Served where
  slot : Nat
  cap : Nat
  requested : Nat
  admitted : Nat
  dropped : Nat
  excess : Nat
  refused : Bool
  fwd : Option Nat
  bwd : Option Nat
  fwdFmt : RowFmt
  bwdFmt : RowFmt
  fwdRows : List Arrived
  bwdRows : List Arrived
  counts : List Counted
  closed : List Nat
  answers : List (Nat × Nat × Nat)
  ansRef : Option Nat
  deriving DecidableEq, Repr

/-- What this room does for a round as an instance; `counting` until its capacity counts close (R281); `sent` once its answers of the forward
combine have left. One that has `ended` only waits for acknowledgements of answers. -/
structure Service where
  layer : Nat
  gen : Nat
  counting : Bool
  sent : Bool
  ended : Bool
  slots : List Served
  deriving DecidableEq, Repr

/-- A message of a unit that may be refused for retry, kept until it is over: its number, its destination, the descriptor it serves, when it was
first sent. -/
structure Kept where
  num : Nat
  house : Nat
  room : Nat
  unit : Nat
  slot : Nat
  since : Nat
  body : UnitBody
  deriving DecidableEq, Repr

/-! ## Collectives -/

/-- A contribution a receiver expects (R421, R423): its sender, whether that is a relay, how many chunks it has, those staged, the members it
was formed without, the buffers, and
its status: 0 awaited, 1 on time, 2 missing, 3 dead. -/
structure Contrib where
  house : Nat
  room : Nat
  relay : Bool
  total : Option Nat
  chunks : List Chunk
  absent : List (Nat × Nat)
  bufs : List Nat
  status : Nat
  deriving DecidableEq, Repr

/-- A shard this room receives in a REDUCE (R420): its entry in the owner table, its shard area, whether this room is its owner, the Sump's carry
by linear index (R426), the contributions, and whether the result has been formed. -/
structure Recv where
  shard : Nat
  area : Nat
  owner : Bool
  carry : List (Nat × Nat)
  carried : List (Nat × Nat)
  parts : List Contrib
  excess : Bool
  deriving DecidableEq, Repr

/-- A contribution sent (R427): the shard, its receiver, whether it went through doors, the reply (3: the receiver was found dead), and what each
element sent stands for, by linear index (R432). -/
structure Sent where
  shard : Nat
  house : Nat
  room : Nat
  relay : Bool
  reply : Option Nat
  stands : List (Nat × Nat)
  deriving DecidableEq, Repr

/-- A REDUCE, from its start until the next one of its key starts (R427): its descriptor, the fields of R456, its members, its destination, what it
sends and receives, which classes have closed, which members were found dead or were probed. -/
structure Red where
  slot : Nat
  key : Nat
  step : Nat
  policy : Nat
  comp : Nat
  rnd : Nat
  topk : Nat
  seed : Nat
  salt : Nat
  stream : Nat
  maskCols : Nat
  pool : Nat
  area : Nat
  stride : Nat
  members : List (Nat × Nat)
  dst : Tensor
  sends : List Sent
  recvs : List Recv
  direct : Bool
  doors : Bool
  probed : List (Nat × Nat)
  dead : List (Nat × Nat)
  refused : Bool
  deriving DecidableEq, Repr

/-- What has left the Criaro: a cell put on a port, what a port that trains tells its far end (R358), coordinates sent to a port's far end (R34), credits returned on a
door port (R407), what POOL_OPs and
Pantries tell other rooms (R327), an MSI-X message, a sideband
response, the alert line, an in-band interrupt, the provisional ID, an MCTP control response, what the test access port answers, a unit's message with its destination and whether a message is refused for retry to its sender (R281; `empty`: for an
empty pool), and bytes of a shard sent to another house's GATHER (R414). -/
inductive Out where
  | cell (port : Nat) (c : Cell)
  | hello (port house room : Nat)
  | coords (port house room rooms : Nat)
  | credits (port n : Nat)
  | pool (house room : Nat) (m : Sys2Proof.PoolMsg)
  | msix (vec : Nat)
  | sideband (bytes : List Byte)
  | alert (level : Bool)
  | ibi
  | pid (n : Nat)
  | control (ok : Bool)
  | tap (value : Option Nat)
  | unit (house room : Nat) (m : UnitBody)
  | again (house room : Nat) (m : UnitBody) (empty : Bool)
  | shard (house room off : Nat) (bytes : List Byte)
  deriving DecidableEq, Repr

/-! ## The state -/

/-- The state of the Criaro. -/
structure State where
  /-- Commands that wait, first in first out (the model's queue). -/
  pending : List Instr
  /-- ns since the hot-swap stage last closed (R465). -/
  now : Nat
  /-- Hundredths of core cycles elapsed since then. -/
  centi : Nat
  /-- The number of free values used so far (the model's own field). -/
  free : Nat
  /-- Set-up registers that differ from their reset value, by offset (R469). -/
  regs : Tbl Word
  /-- The room's memory, by place (R334, R338): bytes that are not zero. -/
  mem : Tbl Byte
  /-- Places whose 64-byte access or 8-byte word holds an uncorrectable error (R352, R499). -/
  ue : Tbl Bool
  /-- For each area of memory whose contents may become undefined (a Larder slice, R344; scratch banks 40–47 of a core, R267; the top of a
  core's Landing, R201), since which change they are; 0 for none. -/
  pinGen : Tbl Nat
  /-- Channels declared failed since the last maintenance reset, and those whose first access since has raised its record (R353). -/
  chanDead : Tbl Bool
  chanNoted : Tbl Bool
  /-- The pending marks of R354, until a maintenance reset acts on them: of channels (128 × stack + channel) for map-out, of stacks for
  retirement. -/
  chanMarks : Tbl Bool
  stackMarks : Tbl Bool
  /-- The lines in the Larder's cache, by place / 128: 1 clean, 2 dirty (R343, R345); when each line was last read from DRAM, plus 1. -/
  lines : Tbl Nat
  lineRead : Tbl Nat
  /-- Host memory, by host bus address (R443). -/
  hostMem : Tbl Byte
  cores : Tbl Core
  sync : Sync
  dips : List Dip
  /-- DIP_QERR updates per die and class (R90). -/
  dipq : Tbl Nat
  slots : Tbl Slot
  nextSlot : Nat
  /-- Rings whose cancellation is in progress (R450). -/
  ringStop : List Nat
  /-- The ring whose descriptor each context took last (R447), plus 1. -/
  ctxTurn : Tbl Nat
  runs : Tbl LaunchRun
  /-- Fault records waiting for the fault ring, the last 256 raised, and whether the next one written says that some
  were lost (R466, R537). -/
  faults : List FaultRec
  heldFaults : List FaultRec
  lostMark : Bool
  /-- The alert line to the board controller (R504). -/
  alert : Bool
  /-- Completion records due and not written, oldest first (R464). -/
  comps : List CompRec
  /-- Records written to each completion ring (256: the fault ring) since it last made its vector pending (R467). -/
  irqCount : Tbl Nat
  hists : Tbl Hist
  /-- The fuses blown over the part's life, oldest first (R509); every reset keeps them. -/
  fuses : List Fuse
  /-- A STEP_CLOSE has completed, or ADVANCE was written, since PENDING was set (R32). -/
  geomGo : Bool
  /-- The transaction tracker: requests outstanding, the tag to try next, each tag's PASS (R373). -/
  reqs : List Req
  nextTag : Nat
  passes : Tbl Bool
  /-- When the request of each tag was last transmitted, plus 1 (R373). -/
  tagSent : Tbl Nat
  /-- Cells sent on each port and held in its replay buffer (R363); the last port each fabric die spilled to (R368). -/
  replay : Tbl (List Cell)
  lastSpill : Tbl Nat
  /-- Link CRC failures in a row on each port (R363). -/
  linkFails : Tbl Nat
  /-- Cells of this room's own that wait on their die for an output (R370). -/
  waiting : List Cell
  /-- The applied-request records (R375), by 131072 × room + tag: PASS and an AMO's old value. -/
  applied : Tbl (Option (Bool × Nat))
  /-- Open read combinings (R379). -/
  combs : List Comb
  /-- Cells of failed links, each with its port, that found no other port to leave on as a spill (R384). -/
  reinj : List (Nat × Cell)
  /-- The output register of each slow house port (R369). -/
  slowOut : Tbl (List Cell)
  /-- Bulk messages kept, the number of the next, and for each source engine and destination room (4 × (32 × house + room) + engine)
  the sequence number last used and whether the next message carries RESET (R406, R409). -/
  doorMsgs : List DoorMsg
  nextMsg : Nat
  doorSeq : Tbl Nat
  doorReset : List Nat
  /-- Credits in use of each door port (R407). -/
  doorUsed : Tbl Nat
  /-- The receive side of each source engine, numbered like `doorSeq` by the source (R408). -/
  doorIn : Tbl DoorIn
  /-- The REFUSED cells that went back with the acknowledgements of applied messages, by source engine and `seq` (R392, R408). -/
  doorBacks : Tbl (List (Nat × List Cell))
  /-- On-package links that are down, and retries in a row of each, by 32 × die + die (R17). -/
  pkgDown : List Nat
  pkgFails : Tbl Nat
  /-- Shedding thresholds that have tripped, bit l for level l + 1 (R474); cap step and thermal step (R483, R502). -/
  tripped : Nat
  capStep : Nat
  thermStep : Nat
  /-- The state being entered (R488), whether a privileged source occurred meanwhile (R489), the request held (R486), the wake held
  (R479), and whether protected off was entered for temperature (R502). -/
  entry : Option Nat
  abortDue : Bool
  heldReq : Option Nat
  wakeHeld : Option Nat
  tooHot : Bool
  /-- Samples of V_in, current and power (R472), newest first, the last 100 ms; energy in units of 10 µJ; comparisons in a row below
  97 % of the cap (R483). -/
  inputs : List (Nat × Nat × Nat)
  energy : Nat
  capBelow : Nat
  /-- The last ten samples of the temperature sensors (R502), newest first. -/
  temps : List (List Nat)
  /-- The hottest sensor is above ALARM_C and its record has been raised (R502). -/
  alarmed : Bool
  /-- Telemetry: the last sequence, records lost since, and for each core its cycles and busy array cycles at the last record (R473). -/
  tseq : Nat
  tlost : Nat
  tbusy : Tbl (Nat × Nat)
  /-- Pools, and the reference count of each buffer by 2^20 × pool + index (R324–R326). -/
  pools : Tbl Pool
  refs : Tbl Nat
  /-- The combine table (R302), generations in hold-down (R319), EXCHANGEs in execution, rounds served, DONE markers held: layer, generation, phase,
  house, room (R301). -/
  rounds : Tbl Round
  holds : List (Nat × Nat)
  exchs : List Exch
  services : List Service
  dones : List (Nat × Nat × Nat × Nat × Nat)
  /-- Messages of units kept, the number of the next, and messages between units of this room on their way. -/
  kept : List Kept
  nextKept : Nat
  loop : List UnitBody
  /-- REDUCEs (R427), the members whose late contributions each Sump holds, by its shard area (R426), and late contributions not whole yet. -/
  reds : List Red
  sumpFrom : Tbl (List (Nat × Nat))
  lateParts : List ColMsg
  /-- RNG counters as the last STEP_CLOSE found them (R256). -/
  rngMark : Tbl Nat
  /-- The Irelku link has been up since reset (R470). -/
  linkWas : Bool
  /-- The hot-swap stage is closed (R471); RESET_N is held low (R531). -/
  power : Bool
  resetHeld : Bool
  /-- The kind of the start-up in progress or of the last one (R511: 0 power-up, 1 device, 2 maintenance) and the last of its steps done (R513). -/
  resetKind : Nat
  boot : Nat
  /-- The production fuse is blown (R523), and the test access port's instruction. -/
  production : Bool
  tapIr : TapOp
  /-- The attestation report being signed: where it goes and its bytes (R524). -/
  report : Option (Nat × List Byte)
  /-- The sideband's dynamic address and endpoint ID (R534, R535). -/
  dynAddr : Option Nat
  endpoint : Option Nat
  out : List Out
  deriving DecidableEq, Repr

/-- The reasons for which a step stops. -/
inductive Fault where
  /-- The operands of a command do not fit its row. Raised by the meanings whose operands carry lists; safe. -/
  | malformed
  deriving DecidableEq, Repr

/-- A command that has no meaning. -/
inductive Refusal where
  /-- The row has not been modelled; raised by the dispatch alone; safe. -/
  | notModelled (mnemonic : String)
  deriving DecidableEq, Repr

/-- The machine right after power-up, before start-up begins: every register at its reset value, nothing in memory,
nothing queued. -/
def State.reset : State where
  pending := []
  now := 0
  centi := 0
  free := 0
  regs := []
  mem := []
  ue := []
  pinGen := []
  chanDead := []
  chanNoted := []
  chanMarks := []
  stackMarks := []
  lines := []
  lineRead := []
  hostMem := []
  cores := []
  sync := ⟨[], [], [], []⟩
  dips := []
  dipq := []
  slots := []
  nextSlot := 0
  ringStop := []
  ctxTurn := []
  runs := []
  faults := []
  heldFaults := []
  lostMark := false
  alert := false
  comps := []
  irqCount := []
  hists := []
  fuses := []
  geomGo := false
  reqs := []
  nextTag := 0
  passes := []
  tagSent := []
  replay := []
  lastSpill := []
  linkFails := []
  waiting := []
  reinj := []
  applied := []
  combs := []
  slowOut := []
  doorMsgs := []
  nextMsg := 0
  doorSeq := []
  doorReset := []
  doorUsed := []
  doorIn := []
  doorBacks := []
  pkgDown := []
  pkgFails := []
  tripped := 0
  capStep := 0
  thermStep := 0
  entry := none
  abortDue := false
  heldReq := none
  wakeHeld := none
  tooHot := false
  inputs := []
  energy := 0
  capBelow := 0
  temps := []
  alarmed := false
  tseq := 0
  tlost := 0
  tbusy := []
  pools := []
  refs := []
  rounds := []
  holds := []
  exchs := []
  services := []
  dones := []
  kept := []
  nextKept := 1
  loop := []
  reds := []
  sumpFrom := []
  lateParts := []
  rngMark := []
  linkWas := false
  power := true
  resetHeld := false
  resetKind := 0
  boot := 0
  production := true
  tapIr := .idcode
  report := none
  dynAddr := none
  endpoint := none
  out := []

end Sys2Proof.Machine
end

