-- ==== Sys2Proof/Machine/Ops.lean ====
section
/-! DEFINITION. The named operations over the state that the meanings share: registers, cores, host memory, fault and
completion records, interrupts, semaphores and events. -/

namespace Sys2Proof.Machine

/-! ## Registers -/

/-- The value of the set-up register at offset `o` (R469). -/
def State.reg (s : State) (o : Nat) : Nat := (Tbl.get (regReset o) s.regs o).toNat

/-- The set-up register at offset `o` takes the low 64 bits of `v`. -/
def State.setReg (s : State) (o v : Nat) : State :=
  { s with regs := Tbl.set (regReset o) s.regs o (BitVec.ofNat 64 v) }

/-- A counter register rises by `n`, modulo 2^64. -/
def State.incReg (s : State) (o n : Nat) : State := s.setReg o (s.reg o + n)

/-- A counter of 32 bits that stops at 2^32 − 1 (R257). -/
def State.incSat32 (s : State) (o n : Nat) : State := s.setReg o (min (s.reg o + n) 0xFFFFFFFF)

/-- Field [hi:lo] of a register. -/
def State.fieldOf (s : State) (o hi lo : Nat) : Nat := bits (s.reg o) hi lo

/-- Field [hi:lo] of a register takes `v`. -/
def State.setField (s : State) (o hi lo v : Nat) : State := s.setReg o (setBits (s.reg o) hi lo v)

/-- Bit `i` of a register. -/
def State.flag (s : State) (o i : Nat) : Bool := bit (s.reg o) i

/-- Bit `i` of a register takes `b`. -/
def State.setFlag (s : State) (o i : Nat) (b : Bool) : State := s.setField o i i (b2n b)

/-- Every register whose offset satisfies `p` returns to its reset value. -/
def State.resetRegs (s : State) (p : Nat → Bool) : State := { s with regs := s.regs.clear p }

/-! ## Cores -/

/-- Physical core `k`. -/
def State.core (s : State) (k : Nat) : Core := Tbl.get Core.init s.cores k

/-- Physical core `k` becomes `c`. -/
def State.setCore (s : State) (k : Nat) (c : Core) : State := { s with cores := Tbl.set Core.init s.cores k c }

/-- Register field value `f` of a core (R123): s0 reads zero. -/
def Core.get (c : Core) (f : Nat) : Nat := if f = 0 then 0 else (Tbl.get 0 c.regs f).toNat

/-- A register of a core takes `v`; a write to s0 is discarded (R123). -/
def Core.put (c : Core) (f v : Nat) : Core :=
  if f = 0 then c else { c with regs := Tbl.set 0 c.regs f (BitVec.ofNat 64 v) }

/-- Handle `h` of a core. -/
def Core.handle (c : Core) (h : Nat) : Handle := Tbl.get Handle.none c.handles h

/-- Handle `h` of a core becomes `v`. -/
def Core.setHandle (c : Core) (h : Nat) (v : Handle) : Core := { c with handles := Tbl.set Handle.none c.handles h v }

/-- Core cycles elapsed since core reset (R135). -/
def State.cycles (s : State) (k : Nat) : Nat := (s.centi - (s.core k).cyc0) / 100

/-- Cycles of a wait are counted where CORE_ISSUE_WAIT_CYCLES and CORE_SYNC_WAIT_CYCLES count them (R159). -/
def State.countWait (s : State) (k : Nat) (w : WaitFor) (n : Nat) : State :=
  match w with
  | .operands => s.incReg (Reg.coreIssueWait k) n
  | .sync => s.incReg (Reg.coreSyncWait k) n
  | .engine => s

/-- A wait of the core ends, and its cycles are counted (R159). -/
def State.endWait (s : State) (k : Nat) : State :=
  let c := s.core k
  match c.waitAt with
  | none => s
  | some (w, t) => (s.countWait k w (s.cycles k - t)).setCore k { c with waitAt := none }

/-- The core waits for `w`, from now on unless it waits for it already (R159). -/
def State.noteWait (s : State) (k : Nat) (w : WaitFor) : State :=
  if (s.core k).waitAt.any fun x => x.1 == w then s
  else
    let s := s.endWait k
    s.setCore k { s.core k with waitAt := some (w, s.cycles k) }

/-! ## Geometry and status -/

/-- No core issues: the fault latch is set (R503), or the part is in NAP, DEEP or protected off (R478, R487). -/
def State.coresHeld (s : State) : Bool :=
  s.flag Reg.fltLatch 0 || (decide (2 ≤ s.fieldOf Reg.powerStatus 2 0) && decide (s.fieldOf Reg.powerStatus 2 0 ≤ 4))

/-- The part has finished start-up (HOST_STATUS.READY). -/
def State.ready (s : State) : Bool := s.flag Reg.hostStatus 0

/-- Keeper firmware runs (R513 step 3). A request made of it before then is ignored: the spec does not say what becomes of it (log 37). -/
def State.keeperRuns (s : State) : Bool := s.reg Reg.secBootStatus == 4 || s.reg Reg.secBootStatus == 5

/-- A job owns the Criaro (R445). -/
def State.owned (s : State) : Bool := s.flag Reg.hostJob 63

/-- The Irelku link is up (R442). -/
def State.linkUp (s : State) : Bool := s.flag Reg.hostStatus 1

/-- The geometry map's entry of a logical core (R26). -/
def State.coreMap (s : State) (l : Nat) : Nat := s.reg (Reg.geomCoreMap l)

/-- The physical core behind logical core `l`. -/
def State.phys (s : State) (l : Nat) : Nat := bits (s.coreMap l) 7 0

/-- The logical number of physical core `k`, 256 where it has none. -/
def State.logical (s : State) (k : Nat) : Nat :=
  ((List.range 256).find? fun l => bit (s.coreMap l) 31 && s.phys l == k).getD 256

/-- House and room of this Criaro (R26). -/
def State.house (s : State) : Nat := s.fieldOf Reg.geomHouse 31 16
def State.room (s : State) : Nat := s.fieldOf Reg.geomHouse 4 0
def State.rooms (s : State) : Nat := s.fieldOf Reg.geomHouse 13 8

/-! ## Units (R505) -/

/-- Unit `u` takes no new work: it drains or is disabled. -/
def State.unitOff (s : State) (u : Nat) : Bool := s.fieldOf (Reg.unitState u) 1 0 != 0

/-! ## Free values -/

/-- The next free value, and the state that has used it. -/
def State.takeFree (s : State) : Nat × State := (Sys2Proof.Config.freeNat s.free, { s with free := s.free + 1 })

/-! ## Host memory -/

/-- A byte of host memory. -/
def State.hostByte (s : State) (a : Nat) : Byte := Tbl.get 0 s.hostMem a

/-- Bytes stored into host memory at `a`. -/
def State.hostStore (s : State) (a : Nat) : List Byte → State
  | [] => s
  | b :: bs => ({ s with hostMem := Tbl.set 0 s.hostMem a b }).hostStore (a + 1) bs

/-- The stores the host has made before a command. -/
def State.hostCells (s : State) (cs : Cells) : State :=
  { s with hostMem := cs.foldl (fun m c => Tbl.set 0 m c.1 c.2) s.hostMem }

/-- A little-endian number of `n` bytes (R6). -/
def leBytes : Nat → Nat → List Byte
  | 0, _ => []
  | n + 1, v => BitVec.ofNat 8 v :: leBytes n (v / 256)

/-- The little-endian number that bytes hold (R6). -/
def leNat : List Byte → Nat
  | [] => 0
  | b :: bs => b.toNat + 256 * leNat bs

/-- `n` bytes of host memory from `a`. -/
def State.hostRead (s : State) (a n : Nat) : List Byte := (List.range n).map fun i => s.hostByte (a + i)

/-! ## Interrupts -/

/-- A vector becomes pending (R467): its MSI-X message is sent when its mask bit is clear; a vector already pending
sends nothing further. -/
def State.raiseVec (s : State) (v : Nat) : State :=
  if s.flag Reg.irqPending v then s
  else
    let s := s.setFlag Reg.irqPending v true
    if s.flag Reg.irqMask v then s else { s with out := s.out ++ [.msix v] }

/-- The number of slots of a ring whose configuration register is at `cfg`. -/
def State.ringSize (s : State) (cfg : Nat) : Nat := 2 ^ s.fieldOf cfg 4 0

/-- A record has been written to ring `i` (256: the fault ring) with configuration at `cfg`: the interrupt count of
R467. -/
def State.countIrq (s : State) (i cfg : Nat) : State :=
  let n := Tbl.get 0 s.irqCount i + 1
  if s.flag cfg 15 && decide (s.fieldOf cfg 31 16 ≤ n) then
    ({ s with irqCount := Tbl.set 0 s.irqCount i 0 }).raiseVec (s.fieldOf cfg 13 8)
  else { s with irqCount := Tbl.set 0 s.irqCount i n }

/-- A slot of the ring is free: it is enabled and the tail plus 1 differs from the head (R464). -/
def State.ringFree (s : State) (cfg tail head : Nat) : Bool :=
  s.flag cfg 63 && (s.reg tail + 1) % s.ringSize cfg != s.reg head % 65536 && s.linkUp

/-- A record is written into a ring at `base`, its tail advances and its shadow is written (R463). -/
def State.ringWrite (s : State) (base cfg tail shadow : Nat) (rec : List Byte) : State :=
  let t := s.reg tail
  let s := s.hostStore (s.reg base + rec.length * t) rec
  let s := s.setReg tail ((t + 1) % s.ringSize cfg)
  if s.reg shadow = 0 then s else s.hostStore (s.reg shadow) (leBytes 8 (s.reg tail))

/-! ## Fault records -/

/-- The bytes of a fault record (R465). -/
def FaultRec.bytes (r : FaultRec) (lost : Bool) : List Byte :=
  leBytes 2 r.status ++ leBytes 2 (if lost then setBits r.info 15 15 1 else r.info) ++ leBytes 4 r.fseq ++
  leBytes 8 (r.index * 2 ^ 56 + r.kind * 2 ^ 48 + r.time % 2 ^ 48) ++ leBytes 8 r.detail ++ leBytes 8 r.detail2

/-- Waiting fault records are written while the fault ring has a free slot (R465, R466). -/
def State.flushFaultsN : Nat → State → State
  | 0, s => s
  | n + 1, s =>
    match s.faults with
    | [] => s
    | r :: rs =>
      if s.ringFree Reg.fltCfg Reg.fltTail Reg.fltHead then
        State.flushFaultsN n
          ((({ s with faults := rs, lostMark := false }).ringWrite Reg.fltBase Reg.fltCfg Reg.fltTail Reg.fltShadow
            (r.bytes s.lostMark)).countIrq 256 Reg.fltCfg)
      else s

def State.flushFaults (s : State) : State := s.flushFaultsN s.faults.length

/-- The alert line and the alert causes a record raises (R504). -/
def State.alertFor (s : State) (status event : Nat) : State :=
  let cause : Option Nat :=
    if status = 0x30 then some 0
    else if status = 0x22 then some 1
    else if status = 0xFF ∧ (event = 4 ∨ event = 5 ∨ event = 0x23 ∨ (0x30 ≤ event ∧ event ≤ 0x34)) then some 2
    else none
  match cause with
  | none => s
  | some b => { s.setFlag Reg.fltAlert b true with alert := true, out := s.out ++ [.alert true] }

/-- The next sequence number: it passes over 0 when it wraps (R463). -/
def nextSeq (n : Nat) : Nat := if (n + 1) % 2 ^ 32 = 0 then 1 else (n + 1) % 2 ^ 32

/-- A fault record is raised (R465, R466, R504): it takes the next fault sequence, is kept in the cellar's copy (R537)
and goes to the fault ring, waits, or is lost when 64 wait. `detail` holds bytes 0–7 and `detail2` bytes 8–15. -/
def State.raise (s : State) (status info kind index detail detail2 : Nat) : State :=
  let q := nextSeq (s.fieldOf Reg.hostSeq 63 32)
  let r : FaultRec := ⟨status, info, q, s.now, kind, index, detail, detail2⟩
  let s := s.setField Reg.hostSeq 63 32 q
  let s := { s with heldFaults := (s.heldFaults ++ [r]).drop (s.heldFaults.length + 1 - 256) }
  let s := s.alertFor status (bits detail 7 0)
  if s.faults.length < 64 then ({ s with faults := s.faults ++ [r] }).flushFaults
  else
    { (s.incReg Reg.fltLost 1).setFlag Reg.fltAlert 3 true with
      lostMark := true, alert := true, out := s.out ++ [.alert true] }

/-- An `INTERNAL_FAULT` record (R497, R498). -/
def State.internal (s : State) (info kind index event unit where_ suspect value : Nat) : State :=
  s.raise 0xFF info kind index (event + unit * 2 ^ 8 + where_ * 2 ^ 16 + suspect * 2 ^ 32) value

/-! ## Semaphores and events (R146, R147) -/

/-- The count of semaphore `n`. -/
def Sync.sem (y : Sync) (n : Nat) : Nat := (Tbl.get 0 y.sems n).toNat

/-- Semaphore `n` takes count `v`. -/
def Sync.setSem (y : Sync) (n v : Nat) : Sync := { y with sems := Tbl.set 0 y.sems n (BitVec.ofNat 32 v) }

/-- Event `n`. -/
def Sync.event (y : Sync) (n : Nat) : Bool := Tbl.get false y.events n

/-- The semaphore's waiters, in the order in which they reached it. -/
def Sync.waiters (y : Sync) (n : Nat) : List Waiter := Tbl.get [] y.semQ n

/-- How many a waiter asks for. -/
def Waiter.need : Waiter → Nat
  | .core _ n => n
  | .slot _ n => n

/-- A waiter's wait ends: a core's SEMWAIT or EVWAIT completes (R159), a descriptor has what it waited for. -/
def State.release (s : State) (w : Waiter) : State :=
  match w with
  | .core k _ =>
    let s := (s.endWait k).incReg (Reg.coreInstrDone k) 1
    s.setCore k { s.core k with inSync := false }
  | .slot i _ => { s with slots := Tbl.set Slot.none s.slots i { Tbl.get Slot.none s.slots i with grant := true } }

/-- The waiters of semaphore `n` are served in order while the count allows the first of them (R147). -/
def State.serveN : Nat → State → Nat → State
  | 0, s, _ => s
  | f + 1, s, n =>
    match s.sync.waiters n with
    | [] => s
    | w :: ws =>
      if w.need ≤ s.sync.sem n then
        State.serveN f
          (({ s with sync := { (s.sync.setSem n (s.sync.sem n - w.need)) with
              semQ := Tbl.set [] s.sync.semQ n ws } }).release w) n
      else s

def State.serve (s : State) (n : Nat) : State := s.serveN (s.sync.waiters n).length n

/-- `n` is added to semaphore `o`, stopping at 2^32 − 1, and waiters are served. The Bool says that it saturated
(R147). A signal of 0 changes nothing. -/
def State.semSignal (s : State) (o n : Nat) : State × Bool :=
  if n = 0 then (s, false)
  else
    let v := s.sync.sem o + n
    (({ s with sync := s.sync.setSem o (min v 0xFFFFFFFF) }).serve o, decide (0xFFFFFFFF < v))

/-- A waiter reaches semaphore `o`: it is queued behind those already there, and served when it can be; a wait for 0
completes at once (R147). -/
def State.semWait (s : State) (o : Nat) (w : Waiter) : State :=
  if w.need = 0 then s.release w
  else ({ s with sync := { s.sync with semQ := Tbl.set [] s.sync.semQ o (s.sync.waiters o ++ [w]) } }).serve o

/-- Event `o` is set: every registered waiter is released (R147). -/
def State.eventSet (s : State) (o : Nat) : State :=
  let ws := Tbl.get [] s.sync.evQ o
  ws.foldl State.release
    { s with sync := { s.sync with events := Tbl.set false s.sync.events o true, evQ := Tbl.set [] s.sync.evQ o [] } }

/-- A wake: its cause and the count (R490). -/
def State.noteWake (s : State) (cause : Nat) : State := (s.setField Reg.powerStatus 31 24 cause).incReg Reg.powerWakes 1

/-- The part leaves IDLE (R485). -/
def State.leaveIdle (s : State) (cause : Nat) : State :=
  if s.fieldOf Reg.powerStatus 2 0 = 1 then (s.setField Reg.powerStatus 2 0 0).noteWake cause else s

/-- Event `o` is cleared; clearing IDLE_EVENT ends IDLE (R485). -/
def State.eventClear (s : State) (o : Nat) : State :=
  let s := { s with sync := { s.sync with events := Tbl.set false s.sync.events o false } }
  if o = s.fieldOf Reg.powerCtl 9 0 then s.leaveIdle 10 else s

/-- A waiter reaches event `o`: released at once when it is set, else registered (R147). -/
def State.eventWait (s : State) (o : Nat) (w : Waiter) : State :=
  if s.sync.event o then s.release w
  else { s with sync := { s.sync with evQ := Tbl.set [] s.sync.evQ o (Tbl.get [] s.sync.evQ o ++ [w]) } }

/-- The waiters that satisfy `p` are taken off every semaphore and event (R158, R450); those behind them may then be
served. -/
def State.dropWaiters (s : State) (p : Waiter → Bool) : State :=
  let keep := fun (e : Nat × List Waiter) => (e.1, e.2.filter fun w => !p w)
  let drop := fun (t : Tbl (List Waiter)) => (t.map keep).filter fun e => !e.2.isEmpty
  let touched := (s.sync.semQ.filter fun e => e.2.any p).map Prod.fst
  touched.foldl State.serve { s with sync := { s.sync with semQ := drop s.sync.semQ, evQ := drop s.sync.evQ } }

end Sys2Proof.Machine
end

