-- ==== Sys2Proof/Machine/Memory.lean ====
section
/-! DEFINITION. The room's memory: the local address map (R334, R335), placement (R338, R339), reads and writes with
their errors (R352–R354, R499), access windows (R390, R391) and host windows (R444). -/

namespace Sys2Proof.Machine

/-! ## Addresses (R183, R388) -/

/-- House, room and local offset of an address. -/
def aHouse (a : Nat) : Nat := bits a 63 48
def aRoom (a : Nat) : Nat := bits a 45 41
def aOff (a : Nat) : Nat := bits a 40 0

/-- The address of a local offset of room `r` of house `h`. -/
def mkAddr (h r off : Nat) : Nat := h * 2 ^ 48 + r * 2 ^ 41 + off

/-- The address of a local offset of this room. -/
def State.localAddr (s : State) (off : Nat) : Nat := mkAddr s.house s.room off

/-- The address lies in this house; in this room. Bits [47:46] are reserved (R183). -/
def State.inHouse (s : State) (a : Nat) : Bool := aHouse a == s.house && bits a 47 46 == 0
def State.isLocal (s : State) (a : Nat) : Bool := s.inHouse a && aRoom a == s.room

/-- The address names host memory (R443). -/
def isHost (a : Nat) : Bool := aHouse a == 0xFFFF

/-! ## Regions (R334) -/

/-- The regions of the local address map; `n` is a physical core, `m` a Larder slice. -/
inductive Region where
  | dram | larder (m : Nat) | scratch (n : Nat) | landing (n : Nat) | cistern (n : Nat) | sync | setup
  deriving DecidableEq, Repr

/-- The region a local offset lies in, mapped or not. -/
def regionOf (o : Nat) : Option Region :=
  if o < 0x12000000000 then some .dram
  else if 0x18000000000 ≤ o ∧ o < 0x18040000000 then some (.larder ((o - 0x18000000000) / 0x10000000))
  else if 0x19000000000 ≤ o ∧ o < 0x190C0000000 then some (.scratch ((o - 0x19000000000) / 0xC00000))
  else if 0x1A000000000 ≤ o ∧ o < 0x1A010000000 then some (.landing ((o - 0x1A000000000) / 0x100000))
  else if 0x1B000000000 ≤ o ∧ o < 0x1B100000000 then some (.cistern ((o - 0x1B000000000) / 0x1000000))
  else if 0x1C000000000 ≤ o ∧ o < 0x1C000010000 then some .sync
  else if 0x1D000000000 ≤ o ∧ o < 0x1D004000000 then some .setup
  else none

/-- Local offsets of a core's scratch, Landing and Cistern and of the sync area (R152). -/
def scratchBase (k : Nat) : Nat := 0x19000000000 + k * 0xC00000
def landingBase (k : Nat) : Nat := 0x1A000000000 + k * 0x100000
def cisternBase (k : Nat) : Nat := 0x1B000000000 + k * 0x1000000
def syncBase : Nat := 0x1C000000000

/-! ## Placement -/

/-- Channel `c` of stack `st` is in service (R26). -/
def State.chanIn (s : State) (st c : Nat) : Bool := s.flag (Reg.geomChanMap (2 * st + c / 64)) (c % 64)

/-- The channels in service among those numbered from `lo`, `n` of them. -/
def State.chansIn (s : State) (st lo n : Nat) : List Nat :=
  ((List.range n).map (lo + ·)).filter (s.chanIn st)

/-- The channels in service in the room, by stack and then by channel, each as 128 × stack + channel (R339). -/
def State.allChans (s : State) : List Nat :=
  (List.range 16).flatMap fun st => (s.chansIn st 0 128).map (128 * st + ·)

/-- The place of a DRAM byte: (128 × stack + channel) × 2^30 + byte within the channel. -/
def dramPlace (chan byte : Nat) : Nat := chan * 2 ^ 30 + byte

/-- R338: the place of DRAM offset `o` under NATIVE. -/
def State.native (s : State) (o : Nat) : Option Nat :=
  let st := o / 0x1200000000
  let i := o % 0x1200000000 / 0x120000000
  let x := o % 0x120000000
  let ch := s.chansIn st (8 * i) 8
  let n := ch.length
  if x < n * 0x24000000 then
    some (dramPlace (128 * st + ch.getD (x / 4096 % n) 0) (x / 4096 / n * 4096 + x % 4096))
  else none

/-- R339: the place of DRAM offset `o` under HASH. -/
def State.hashed (s : State) (o : Nat) : Option Nat :=
  if o < s.reg Reg.geomDram * 2 ^ 20 then
    let ch := s.allChans
    let n := ch.length
    let q := o / 256
    let g := q / n
    let h := mix 0 0 0 g
    some (dramPlace (ch.getD ((q % n + h % n) % n) 0) (g * 256 + o % 256))
  else none

/-- Places of the regions other than DRAM. -/
def sramPlace (o : Nat) : Nat := 2 ^ 41 + o

/-- The place a mapped local offset lies at, none where R335 leaves it unmapped. The sync area and the set-up aperture
are no memory and have no place. -/
def State.place (s : State) (o : Nat) : Option Nat :=
  match regionOf o with
  | some .dram => if s.flag Reg.memCtl 0 then s.hashed o else s.native o
  | some (.larder m) =>
    if (o - 0x18000000000) % 0x10000000 < bits (s.reg Reg.memLarderCfg) (4 * m + 3) (4 * m) * 2 ^ 24 then
      some (sramPlace o)
    else none
  | some (.scratch n) =>
    let c := s.core n
    let banks := match c.run with | some r => r.banks | none => 0
    if c.retired || decide ((48 - banks) * 0x40000 ≤ (o - 0x19000000000) % 0xC00000) then none
    else some (sramPlace o)
  | some (.landing n) => if (s.core n).retired then none else some (sramPlace o)
  | some (.cistern n) => if (s.core n).retired then none else some (sramPlace o)
  | _ => none

/-- Every byte of a range is mapped memory. -/
def State.mappedMem (s : State) (o n : Nat) : Bool := (List.range n).all fun i => (s.place (o + i)).isSome

/-! ## Errors -/

/-- The stack and channel of a DRAM place. -/
def stackOf (p : Nat) : Nat := p / 2 ^ 37
def chanOf (p : Nat) : Nat := p / 2 ^ 30 % 128

/-- Bytes of one access with check bits of its own: 64 in DRAM (R332), 8 in SRAM (R499). -/
def unitSize (p : Nat) : Nat := if p < 2 ^ 41 then 64 else 8

/-- The unit that holds a place. -/
def unitOf (p : Nat) : Nat := p / unitSize p * unitSize p

/-- The unit of the place holds an uncorrectable error. -/
def State.bad (s : State) (p : Nat) : Bool := Tbl.get false s.ue (unitOf p)

/-- The place lies on a channel declared failed since the last maintenance reset (R353); a wake from DEEP and a device reset return MEM_CHAN_FAILED
to its reset value and do not bring the channel back. -/
def State.failed (s : State) (p : Nat) : Bool := decide (p < 2 ^ 41) && Tbl.get false s.chanDead (128 * stackOf p + chanOf p)

/-- Set bits of a number below 2^n. -/
def popCount (w n : Nat) : Nat := ((List.range n).filter (bit w)).length

/-- Stack `st` is marked pending for retirement (R354, R355). The mark lasts until a maintenance reset acts on it, though a wake from DEEP returns the
register that shows it to its reset value (R492). -/
def State.markStack (s : State) (st : Nat) : State :=
  { s.setFlag (Reg.memStackStatus st) 2 true with stackMarks := Tbl.set false s.stackMarks st true }

/-- The channels of stack `st` that are marked pending for map-out. -/
def State.chansMarked (s : State) (st : Nat) : List Nat := (List.range 128).filter fun c => Tbl.get false s.chanMarks (128 * st + c)

/-- R354: a channel becomes pending for map-out; a stack whose pending channels outnumber its remaining map-outs
becomes pending for retirement. -/
def State.chanPend (s : State) (st c : Nat) : State :=
  let s := { s.setFlag (Reg.memChanPending (2 * st + c / 64)) (c % 64) true with chanMarks := Tbl.set false s.chanMarks (128 * st + c) true }
  if 8 - s.fieldOf (Reg.memStackStatus st) 11 8 < (s.chansMarked st).length then s.markStack st else s

/-- `unit` and `where` of an SRAM word (R498). -/
def sramWhere (o : Nat) : Nat × Nat :=
  match regionOf o with
  | some (.larder m) => (0xF0 + m, (o - 0x18000000000) % 0x10000000 / 2 ^ 22)
  | some (.scratch n) => (n, (o - 0x19000000000) % 0xC00000 / 0x40000)
  | some (.landing n) => (n, 0x100 + (o - 0x1A000000000) % 0x100000 / 0x10000)
  | some (.cistern n) => (n, 0x200 + (o - 0x1B000000000) % 0x1000000 / 0x10000)
  | _ => (0, 0)

/-- The index of a unit in the SRAM error counters (R510). -/
def sramIx (u : Nat) : Nat := if 0xF0 ≤ u ∧ u < 0xF4 then 256 + (u - 0xF0) else u

/-- The SRAM counter index of the memory that holds a local offset: a physical core, or 256 + m for slice m. -/
def sramOwner (o : Nat) : Nat :=
  match regionOf o with
  | some (.larder m) => 256 + m
  | some (.scratch n) => n
  | some (.landing n) => n
  | some (.cistern n) => n
  | _ => 0

/-- An uncorrectable error is met at local offset `o`, place `p` (R352, R499): it is counted on a read and its record
raised; at the limit the channel becomes pending. -/
def State.noteUe (s : State) (o p : Nat) (counted : Bool) : State :=
  if p < 2 ^ 41 then
    let st := stackOf p
    let c := chanOf p
    let s := if counted then s.setReg (Reg.memUe (128 * st + c)) ((s.reg (Reg.memUe (128 * st + c)) + 1) % 2 ^ 32) else s
    let s := s.internal 0 8 st 3 st c 0 o
    let lim := s.fieldOf Reg.memErrCfg 7 0
    if counted && decide (lim ≠ 0) && decide (lim ≤ s.reg (Reg.memUe (128 * st + c))) then s.chanPend st c else s
  else
    let (u, w) := sramWhere o
    let s := if counted then s.incReg (Reg.sramUe (sramOwner o)) 1 else s
    s.internal 0 (if 256 ≤ sramOwner o then 9 else 1) (if 256 ≤ sramOwner o then sramOwner o - 256 else u) 2 u w 0 o

/-- The first access after a channel was declared failed raises a record; later ones only count (R353). -/
def State.noteFailed (s : State) (o p : Nat) : State :=
  let st := stackOf p
  let c := chanOf p
  let s := s.setReg (Reg.memUe (128 * st + c)) ((s.reg (Reg.memUe (128 * st + c)) + 1) % 2 ^ 32)
  if Tbl.get false s.chanNoted (128 * st + c) then s
  else ({ s with chanNoted := Tbl.set false s.chanNoted (128 * st + c) true }).internal 0 8 st 3 st c 0 o

/-- The offsets at which the units of a range begin. -/
def unitsOf (g o n : Nat) : List Nat := (List.range (cdiv (o % g + n) g)).map fun i => o / g * g + g * i

/-- The unit size of the region an offset lies in. -/
def grain (o : Nat) : Nat := if o < 0x12000000000 then 64 else 8

/-! ## Reads and writes of mapped memory -/

/-- The areas whose contents may become undefined, numbered for `pinGen`: a Larder slice after a change of its pinned size (R344), the scratch
banks 40–47 of a core that an UPDATE runs on (R267), and the top 64 KiB of the Landing of a core that a MOVE runs on (R201). -/
def voidArea (o : Nat) : Option Nat :=
  match regionOf o with
  | some (.larder m) => some m
  | some (.scratch k) => if 40 * 0x40000 ≤ o - (0x19000000000 + k * 0xC00000) then some (4 + k) else none
  | some (.landing k) => if 0xF0000 ≤ o - (0x1A000000000 + k * 0x100000) then some (260 + k) else none
  | _ => none

/-- What a stored byte is combined with since its area last became undefined: every byte not written since reads as a free value. -/
def State.pinMask (s : State) (o : Nat) : Byte :=
  match voidArea o with
  | some m =>
    let g := Tbl.get 0 s.pinGen m
    if g = 0 then 0 else BitVec.ofNat 8 (Sys2Proof.Config.pinned g o)
  | none => 0

/-- The contents of an area become undefined. -/
def State.voidOut (s : State) (m : Nat) : State :=
  { s with pinGen := Tbl.set 0 s.pinGen m (s.free + 1), free := s.free + 1 }

/-- The byte at a local offset: the error value on a failed channel, in a unit with an uncorrectable error, or where
nothing is mapped (R71, R352, R353). -/
def State.memByte (s : State) (o : Nat) : Byte :=
  match s.place o with
  | none => 0xFF
  | some p => if s.failed p || s.bad p then 0xFF else Tbl.get 0 s.mem p ^^^ s.pinMask o

/-- The bytes of a range. -/
def State.memBytes (s : State) (o n : Nat) : List Byte := (List.range n).map fun i => s.memByte (o + i)

/-- The little-endian number held in a range. -/
def State.memNat (s : State) (o n : Nat) : Nat := leNat (s.memBytes o n)

/-- Some byte of the range reads as the error value because of an error (R352, R353). -/
def State.rangeBad (s : State) (o n : Nat) : Bool :=
  (unitsOf (grain o) o n).any fun u => match s.place u with | some p => s.failed p || s.bad p | none => false

/-! ## The Larder's cache (R341, R343, R345) -/

/-- The bytes that move between a channel and the Larder or a requester are counted for their stack and class. -/
def State.classBytes (s : State) (st cls n : Nat) : State := s.incReg (Reg.memClassBytes (4 * st + cls)) n

/-- The lines resident in slice `m`, and how many it can hold: what the system and the pinned areas leave of 256 MiB (R343). -/
def State.linesOf (s : State) (m : Nat) : Tbl Nat := s.lines.filter fun e => stackOf (128 * e.1) / 4 == m
def State.linesMax (s : State) (m : Nat) : Nat := (208 - 16 * bits (s.reg Reg.memLarderCfg) (4 * m + 3) (4 * m)) * 8192

/-- A resident line leaves the cache; a dirty one is written back, in class 1 (R341). -/
def State.evict (s : State) (e : Nat × Nat) : State :=
  let s := { s with lines := Tbl.erase s.lines e.1 }
  if e.2 = 2 then s.classBytes (stackOf (128 * e.1)) 1 128 else s

/-- Line `l` enters the cache of its slice. Whether a line leaves for it, and which, is not given; one does where the slice is full, and none where it
holds fewer than the 16 of one set. -/
def State.fillLine (s : State) (l g : Nat) : State :=
  let rs := s.linesOf (stackOf (128 * l) / 4)
  let full := decide (s.linesMax (stackOf (128 * l) / 4) ≤ rs.length)
  let s :=
    if rs.length < 16 then s
    else
      let (f, s) := s.takeFree
      if full then (rs[f % rs.length]?).elim s s.evict else if f % (rs.length + 1) = 0 then s else (rs[f % (rs.length + 1) - 1]?).elim s s.evict
  { s with lines := Tbl.set 0 s.lines l g }

/-- R345: whether an access of `n` bytes of a requester kind allocates its line on a miss. The rule leaves open the other rooms' accesses that are not
atomic, and shorter ones of the engines. -/
def allocates (kind n : Nat) : Option Bool :=
  if kind = 1 || kind = 3 then some true
  else if kind = 2 || ((kind = 4 || kind = 5 || kind = 6) && decide (128 ≤ n)) then some false
  else none

/-- A DRAM read of the line was made no longer ago than the 64 ns of R345. -/
def State.lineWarm (s : State) (l : Nat) : Bool :=
  let t := Tbl.get 0 s.lineRead l
  t != 0 && decide (s.now + 1 ≤ t + 64)

/-- A DRAM read of line `l` is made now; those that can combine nothing any more are forgotten. -/
def State.noteLineRead (s : State) (l : Nat) : State :=
  { s with lineRead := Tbl.set 0 (s.lineRead.filter fun e => decide (s.now + 1 ≤ e.2 + 64)) l (s.now + 1) }

/-- An access of class `cls` covers `n` bytes of the line at place `p` (R341, R345): a read hits a resident line, shares a DRAM read, or reads DRAM; a
write that allocates makes its line resident and dirty, another writes DRAM, and updates a resident line. -/
def State.lineAccess (s : State) (cls : Nat) (write alloc : Bool) (p n : Nat) : State :=
  let l := p / 128
  let m := stackOf p / 4
  let here := Tbl.get 0 s.lines l != 0
  let moved := if alloc then 128 else 64 * (cdiv (p % 64 + n) 64)
  let miss := fun (s : State) => (s.incReg (Reg.larderMisses m) 1).classBytes (stackOf p) cls moved
  if write then
    if !alloc then miss s
    else if here then { s.incReg (Reg.larderHits m) 1 with lines := Tbl.set 0 s.lines l 2 }
    else (if n = 128 then s.incReg (Reg.larderMisses m) 1 else miss s).fillLine l 2
  else if here then s.incReg (Reg.larderHits m) 1
  else
    let s := if s.lineWarm l then s.incReg (Reg.larderReadsCombined m) 1 else (miss s).noteLineRead l
    if alloc then s.fillLine l 1 else s

/-- The counters of the Larder and of the priority classes for an access of requester kind `kind` to `n` bytes at `o`, line by line (R337–R339, R341,
R345). -/
def State.noteLines (s : State) (kind o n : Nat) (write : Bool) (alloc : Option Bool) : State :=
  match regionOf o with
  | some .dram =>
    let (f, s) := s.takeFree
    (unitsOf 128 o n).foldl
      (fun s u =>
        let lo := max u o
        match s.place lo with
        | none => s
        | some p =>
          s.lineAccess (s.fieldOf Reg.memClassMap (2 * kind + 1) (2 * kind)) write (alloc.getD (f % 2 == 1) && !s.failed p) p
            (min (u + 128) (o + n) - lo))
      s
  | _ => s

def State.noteAccess (s : State) (kind o n : Nat) (write : Bool) : State := s.noteLines kind o n write (allocates kind n)

/-- An atomic allocates its line, and leaves it dirty (R345). -/
def State.noteAtomic (s : State) (kind o n : Nat) : State := s.noteLines kind o n true (some true)

/-- Dirty lines of the stacks that `p` selects are written back (R478, R488). -/
def State.writeBack (s : State) (p : Nat → Bool) : State :=
  (s.lines.filter fun e => e.2 == 2 && p (stackOf (128 * e.1))).foldl
    (fun s e => { s.classBytes (stackOf (128 * e.1)) 1 128 with lines := Tbl.set 0 s.lines e.1 1 }) s

/-- The errors that reading a range meets (R352, R353). -/
def State.readErrs (s : State) (o n : Nat) : State :=
  (unitsOf (grain o) o n).foldl
    (fun s u =>
      match s.place u with
      | none => s
      | some p => if s.failed p then s.noteFailed u p else if s.bad p then s.noteUe u p true else s)
    s

/-- What reading a range does beside giving its bytes: counters, and the errors it meets. -/
def State.readNotes (s : State) (kind o n : Nat) : State := (s.noteAccess kind o n false).readErrs o n

/-- A block of a Cistern is written (R231): its bit in CIS_TOUCHED is set. -/
def State.touch (s : State) (k b : Nat) : State :=
  if s.flag (Reg.cisTouched k (b / 64)) (b % 64) then s
  else (s.setFlag (Reg.cisTouched k (b / 64)) (b % 64) true).setField (Reg.cisStatus k) 16 8
    (s.fieldOf (Reg.cisStatus k) 16 8 + 1)

/-- The Cistern blocks a write covers are touched. -/
def State.touchRange (s : State) (o n : Nat) : State :=
  match regionOf o with
  | some (.cistern k) =>
    let x := o - cisternBase k
    if n = 0 then s
    else (List.range ((x + n - 1) / 0x10000 - x / 0x10000 + 1)).foldl (fun s i => s.touch k (x / 0x10000 + i)) s
  | _ => s

/-- One byte of mapped memory takes a value. -/
def State.putByte (s : State) (o : Nat) (b : Byte) : State :=
  match s.place o with
  | some p => { s with mem := Tbl.set 0 s.mem p (b ^^^ s.pinMask o) }
  | none => s

/-- Bytes of mapped memory take values. -/
def State.putBytes (s : State) (o : Nat) : List Byte → State
  | [] => s
  | b :: bs => (s.putByte o b).putBytes (o + 1) bs

/-- The part of a write that falls into the unit at offset `u` (R352, R353, R499): dropped on a failed channel; a partial
write of a unit with an uncorrectable error leaves it as it was and raises its record; a write of the whole unit
clears the error. -/
def State.writeUnit (s : State) (g u o : Nat) (bs : List Byte) : State :=
  let lo := max u o
  let hi := min (u + g) (o + bs.length)
  let part := (bs.drop (lo - o)).take (hi - lo)
  match s.place u with
  | none => s.putBytes lo part
  | some p =>
    if s.failed p then s.noteFailed u p
    else if s.bad p then
      if part.length = g then ({ s with ue := Tbl.set false s.ue (unitOf p) false }).putBytes lo part
      else s.noteUe u p false
    else s.putBytes lo part

/-- Bytes are written into mapped memory. -/
def State.memWrite (s : State) (kind o : Nat) (bs : List Byte) : State :=
  (unitsOf (grain o) o bs.length).foldl (fun s u => s.writeUnit (grain o) u o bs)
    ((s.noteAccess kind o bs.length true).touchRange o bs.length)

/-! ## On-package links (R17) -/

/-- The Larder slice that serves a local offset (R332, R343). -/
def State.slice (s : State) (o : Nat) : Nat :=
  match regionOf o, s.place o with
  | some (.larder m), _ => m
  | _, some p => stackOf p / 4
  | _, none => 0

/-- The link between dies `a` and `b` is up; dies are numbered C0–C15 0–15, M 16–19, F 20–23, cellar 24. -/
def State.pkgUp (s : State) (a b : Nat) : Bool := !s.pkgDown.contains (32 * min a b + max a b)

/-- Compute die `c` reaches memory die `m` neither directly nor by the detour of R17. -/
def State.cutOff (s : State) (c m : Nat) : Bool :=
  !s.pkgUp c (16 + m) &&
  match (List.range 4).find? fun j => s.pkgUp c (16 + j) with
  | none => true
  | some j => (List.range 4).all fun f => !(s.pkgUp (16 + j) (20 + f) && s.pkgUp (16 + m) (20 + f))

/-- Fabric die `f` reaches memory die `m` neither directly nor by the detour of R17. -/
def State.cutFabMem (s : State) (f m : Nat) : Bool :=
  !s.pkgUp (20 + f) (16 + m) && (List.range 4).all fun g => g == f || !(s.pkgUp (20 + f) (20 + g) && s.pkgUp (20 + g) (16 + m))

/-- Fabric dies `f` and `g` reach each other neither directly nor by the detour of R17. -/
def State.fabFabCut (s : State) (f g : Nat) : Bool :=
  f != g && !s.pkgUp (20 + f) (20 + g) && (List.range 4).all fun h => h == f || h == g || !(s.pkgUp (20 + f) (20 + h) && s.pkgUp (20 + h) (20 + g))

/-- The cellar die reaches memory die `m` neither directly nor by the detour of R17. -/
def State.cutCellar (s : State) (m : Nat) : Bool :=
  !s.pkgUp 24 (16 + m) &&
  match (List.range 4).find? fun j => s.pkgUp 24 (16 + j) with
  | none => true
  | some j => (List.range 4).all fun f => !(s.pkgUp (16 + j) (20 + f) && s.pkgUp (16 + m) (20 + f))

/-- Memory dies `m` and `n`, between which there is no link, reach each other through no fabric die (log 120). -/
def State.cutMemMem (s : State) (m n : Nat) : Bool := m != n && (List.range 4).all fun f => s.cutFabMem f m || s.cutFabMem f n

/-- The memory die behind a local offset that a unit reaches over the on-package network. -/
def State.homeDie (s : State) (o : Nat) : Option Nat :=
  match regionOf o with
  | some .dram => some (s.slice o)
  | some (.larder m) => some m
  | _ => none

/-- Where a unit sits that acts for a command: a compute die, a memory die, or a fabric die. -/
inductive UnitSeat where
  | comp (c : Nat) | mem (m : Nat) | fab (f : Nat)
  deriving DecidableEq, Repr

/-- A unit cannot reach memory die `n` (R17). -/
def State.seatCut (s : State) (u : UnitSeat) (n : Nat) : Bool :=
  match u with
  | .comp c => s.cutOff c n
  | .mem m => s.cutMemMem m n
  | .fab f => s.cutFabMem f n

/-- A unit cannot reach the memory behind a local offset. -/
def State.reachCut (s : State) (u : UnitSeat) (o : Nat) : Bool :=
  !s.pkgDown.isEmpty && (s.homeDie o).any (s.seatCut u)

/-- A fabric die cannot reach the memory behind a local offset. -/
def State.fabCut (s : State) (f o : Nat) : Bool := s.reachCut (.fab f) o

/-- A unit cannot reach the cellar die, and through it the host: traffic between them crosses a memory die (R15). -/
def State.hostCut (s : State) (u : UnitSeat) : Bool :=
  !s.pkgDown.isEmpty && (List.range 4).all fun m => s.cutCellar m || (match u with | .mem n => m != n | _ => s.seatCut u m)

/-- A unit cannot reach fabric die `f`, and through it another room (R15). -/
def State.roomCut (s : State) (u : UnitSeat) (f : Nat) : Bool :=
  !s.pkgDown.isEmpty &&
  match u with
  | .fab g => s.fabFabCut g f
  | .mem n => s.cutFabMem f n
  | .comp c => (List.range 4).all fun m => s.cutOff c m || s.cutFabMem f m

/-- R17: core `k` cannot reach the memory behind a local offset. -/
def State.coreCut (s : State) (k o : Nat) : Bool := s.reachCut (.comp (k / 16)) o

/-! ## Windows (R390, R391, R444) -/

/-- The kinds a window grants. -/
inductive Want where
  | read | write | atomic
  deriving DecidableEq, Repr

/-- The bit of a window's RANGE register that grants a kind (R411). -/
def Want.bit : Want → Nat
  | .read => 60 | .write => 61 | .atomic => 62

/-- One window admits an access of `n` bytes at local offset `o` of room `r` of house `h`. -/
def windowAdmits (scope range h r o n : Nat) (w : Want) : Bool :=
  bit range 63 && bit range w.bit && decide (bits scope 47 32 ≤ h) && decide (h ≤ bits scope 63 48) &&
  bit (bits scope 31 0) r && decide (bits range 28 0 * 4096 ≤ o) && decide (o + n ≤ (bits range 57 29 + 1) * 4096)

/-- R391: an outbound window admits the access. -/
def State.outAdmits (s : State) (a n : Nat) (w : Want) : Bool :=
  bits a 47 46 == 0 && (List.range 32).any fun i =>
    windowAdmits (s.reg (Reg.owinScope i)) (s.reg (Reg.owinRange i)) (aHouse a) (aRoom a) (aOff a) n w

/-- R392: an inbound window admits an access from house `h`, room `r`. -/
def State.inAdmits (s : State) (h r o n : Nat) (w : Want) : Bool :=
  (List.range 32).any fun i => windowAdmits (s.reg (Reg.iwinScope i)) (s.reg (Reg.iwinRange i)) h r o n w

/-- R444: a host window covers every byte and grants its kind. -/
def State.hostAdmits (s : State) (a n : Nat) (write : Bool) : Bool :=
  let x := bits a 45 0
  (List.range 8).any fun i =>
    let lo := s.reg (Reg.hwinLo i)
    let hi := s.reg (Reg.hwinHi i)
    bit lo 63 && bit lo (if write then 62 else 61) && decide (bits lo 45 12 * 4096 ≤ x) &&
    decide (x + n ≤ (bits hi 45 12 + 1) * 4096)

/-! ## Atomics (R346–R349) -/

/-- FP32 addition of an atomic (R349): exact, rounded once by RNE. -/
def fadd (t : EType) (a b : Nat) : Nat := t.rne ((t.val a).add (t.val b))

/-- Signed reading of `n` bits, maximum and minimum. -/
def smax (n a b : Nat) : Nat := if sext n a < sext n b then b else a
def smin (n a b : Nat) : Nat := if sext n b < sext n a then b else a

/-- Quarter `i` of a 64-bit value. -/
def quarter (w i : Nat) : Nat := bits w (16 * i + 15) (16 * i)

/-- R347: bytes of an AMO. -/
def amoWidth (sub : Nat) : Nat := if sub = 0xA ∨ sub = 0xB ∨ sub = 0xC ∨ sub = 0xE then 4 else 8

/-- R347: the new value of an AMO from the old value, the operand and the compare value. -/
def amoNew (sub old b cmp : Nat) : Nat :=
  match sub with
  | 0x0 => b
  | 0x1 => if old = cmp then b else old
  | 0x2 => (old + b) % 2 ^ 64
  | 0x3 => Nat.land old b
  | 0x4 => Nat.lor old b
  | 0x5 => Nat.xor old b
  | 0x6 => smax 64 old b
  | 0x7 => smin 64 old b
  | 0x8 => max old b
  | 0x9 => min old b
  | 0xA => (old + b) % 2 ^ 32
  | 0xB => if old = cmp % 2 ^ 32 then b % 2 ^ 32 else old
  | 0xC => fadd .fp32 old (b % 2 ^ 32)
  | 0xD => fadd .fp32 (old % 2 ^ 32) (b % 2 ^ 32) + fadd .fp32 (old / 2 ^ 32) (b / 2 ^ 32 % 2 ^ 32) * 2 ^ 32
  | 0xE => EType.rne .fp32 ((v32 old).maxnum false (v32 (b % 2 ^ 32)))
  | _ =>
    fadd .bf16 (quarter old 0) (quarter b 0) + fadd .bf16 (quarter old 1) (quarter b 1) * 2 ^ 16 +
    fadd .bf16 (quarter old 2) (quarter b 2) * 2 ^ 32 + fadd .bf16 (quarter old 3) (quarter b 3) * 2 ^ 48

/-- Atomics act on DRAM and the pinned Larder only (R346). -/
def atomicRegion (o : Nat) : Bool :=
  match regionOf o with
  | some .dram => true
  | some (.larder _) => true
  | _ => false

/-- R347, R350, R352: an AMO is applied at local offset `o`. The result is the old value and whether an error was met:
then nothing is written and the old value is all ones. -/
def State.amoApply (s : State) (kind o sub b cmp : Nat) : State × Nat × Bool :=
  let n := amoWidth sub
  let s' := (s.noteAtomic kind o n).readErrs o n
  if s.rangeBad o n then (s', 2 ^ 64 - 1, true)
  else
    let old := s.memNat o n
    ((s'.incReg (Reg.larderAtomics (s.slice o)) 1).putBytes o (leBytes n (amoNew sub old b cmp)), old, false)

/-- R348: the element operations; codes of R361. `ct` is the type of the contribution: the destination's, or FP32 (log 122). -/
def elemNew (t ct : EType) (op old c w : Nat) : Nat :=
  match op with
  | 0 => if t.isInt then wrapI t.width (sext t.width old + sext t.width c) else t.rne ((t.val old).add (ct.val c))
  | 1 => t.rne ((t.val old).add ((v32 w).mul (ct.val c)))
  | 2 => if t.isInt then smax t.width old c else t.rne ((t.val old).maxnum false (t.val c))
  | 3 => if t.isInt then smin t.width old c else t.rne ((t.val old).maxnum true (t.val c))
  | _ => min (old + c) 0xFFFFFFFF

/-- The element operations exist for these destination types (R348). -/
def elemOk (t : EType) (op : Nat) : Bool :=
  match op with
  | 0 => t = .fp32 || t = .bf16 || t = .fp16 || t = .int32 || t = .int64
  | 1 => t = .fp32 || t = .bf16
  | 2 => t = .fp32 || t = .bf16 || t = .int32 || t = .int64
  | 3 => t = .fp32 || t = .bf16 || t = .int32 || t = .int64
  | 4 => t = .int32
  | _ => false

/-- Applies an element operation to consecutive elements. -/
def State.elemApply (s : State) (t ct : EType) (op w o : Nat) : List Nat → State
  | [] => s
  | c :: cs =>
    let n := t.width / 8
    (s.putBytes o (leBytes n (elemNew t ct op (s.memNat o n) c w))).elemApply t ct op w (o + n) cs

/-- R348, R352: the elements of one atomic that fall within one line, applied together; the Bool says that an error was
met, and then nothing is written. -/
def State.eatomic (s : State) (kind : Nat) (t ct : EType) (op w o : Nat) (cs : List Nat) : State × Bool :=
  let n := cs.length * (t.width / 8)
  let s' := (s.noteAtomic kind o n).readErrs o n
  if s.rangeBad o n then (s', true) else ((s'.incReg (Reg.larderAtomics (s.slice o)) 1).elemApply t ct op w o cs, false)

end Sys2Proof.Machine
end

