-- ==== Sys2Proof/Machine/View.lean ====
section
/-! DEFINITION. The registers as a read returns them (R441, R469): those that show state kept elsewhere are formed on the read. With them,
what the queue engines, pools, rounds and cores hold that such a read counts. -/

namespace Sys2Proof.Machine

def State.slot (s : State) (i : Nat) : Slot := Tbl.get Slot.none s.slots i

def State.setSlot (s : State) (i : Nat) (v : Slot) : State := { s with slots := Tbl.set Slot.none s.slots i v }

/-- Word `n` of a slot's descriptor (bytes 8n to 8n + 7). -/
def Slot.word (v : Slot) (n : Nat) : Nat := v.words.getD n 0

/-- The opcode of a descriptor. -/
def Slot.opcode (v : Slot) : Nat := bits (v.word 0) 7 0

/-- Requests are outstanding for a descriptor. -/
def State.slotBusy (s : State) (i : Nat) : Bool := s.reqs.any fun r => r.who = .slot i

/-- The tensor mover that serves a slot (R196). -/
def Slot.mover (v : Slot) : Nat := v.ctx / 8 % 4

/-- Where the unit sits that carries out a descriptor: a tensor mover's memory die, a Sluice's or a collective engine's fabric die, else the queue
engine's compute die (R13, R196). -/
def Slot.seat (v : Slot) : UnitSeat :=
  if 2 ≤ v.opcode ∧ v.opcode ≤ 4 then .mem v.mover
  else if v.opcode = 5 ∨ v.opcode = 6 then .fab (v.ctx / 8 % 4)
  else .comp (v.ctx / 8 / 4 % 16)

/-- Descriptors running on tensor mover `m`: those whose requests are not over. -/
def State.moverLoad (s : State) (m : Nat) : Nat :=
  (s.slots.filter fun e => decide (2 ≤ e.2.opcode) && decide (e.2.opcode ≤ 4) && e.2.mover == m &&
    (match e.2.stage with | .ended _ _ => s.slotBusy e.1 | .started => true | _ => false)).length

/-- A ring has a descriptor without a record (R450, R470). -/
def State.ringBusy (s : State) (n : Nat) : Bool := s.slots.any (fun e => e.2.ring == n) || s.comps.any fun r => r.ring == n

/-- Completion ring `m` has a free slot and its link is up. -/
def State.cqFree (s : State) (m : Nat) : Bool := s.ringFree (Reg.cqCfg m) (Reg.cqTail m) (Reg.cqHead m)

/-- A record due on ring `m` can be taken: a free slot, or the buffer of 16,384 while the link is down (R442, R464). -/
def State.cqTakes (s : State) (m : Nat) : Bool :=
  if s.linkUp then s.cqFree m && s.comps.all (fun r => r.cq != m) else decide (s.comps.length < 16384)

/-- The slot holds its context: its descriptor is at the head and has not started, or its record cannot be written. -/
def State.holdsCtx (s : State) (v : Slot) : Bool :=
  match v.stage with
  | .waiting | .ready | .parked _ => true
  | .ended _ _ => !s.cqTakes v.cq
  | _ => false

/-- The fetched slots of a context with their numbers, and the one it takes next (R435, R447). -/
def State.ctxNext (s : State) (ctx : Nat) : Option Nat :=
  let l := s.slots.filter fun e => e.2.ctx == ctx && e.2.stage = .fetched
  let turn := Tbl.get 0 s.ctxTurn ctx
  let key := fun (e : Nat × Slot) => (e.2.ring + 4096 - turn) % 4096
  (l.foldl (fun (o : Option (Nat × Slot)) e => match o with
    | none => some e
    | some f => if key e < key f then some e else some f) none).map Prod.fst

/-- No pool. -/
def Pool.empty : Pool := ⟨[], 0, 0⟩

def State.pool (s : State) (p : Nat) : Pool := Tbl.get Pool.empty s.pools p

def State.setPool (s : State) (p : Nat) (v : Pool) : State := { s with pools := Tbl.set Pool.empty s.pools p v }

/-- Free buffers of a pool. -/
def State.poolFree (s : State) (p : Nat) : Nat := (s.pool p).cache.length + (s.pool p).free

/-- History `h` (R241). -/
def State.hist (s : State) (h : Nat) : Hist := Tbl.get Hist.init s.hists h

def State.round (s : State) (e : Nat) : Round := Tbl.get Round.none s.rounds e

def State.setRound (s : State) (e : Nat) (x : Round) : State := { s with rounds := Tbl.set Round.none s.rounds e x }

/-- Route records live or reserved (R330). -/
def State.rrLive (s : State) : Nat := (s.rounds.map fun e => e.2.reserved).sum

/-- The core is marked retired (R119). -/
def State.coreRetired (s : State) (k : Nat) : Bool := s.flag (Reg.arrayStatus k) 3 || (s.core k).retired

/-- A core whose number is in the map and that is not retired. -/
def State.inService (s : State) (k : Nat) : Bool := !s.coreRetired k && decide (s.logical k < 256)

/-! ## Views -/

/-- DIP_STATUS.WARM of a class (R96): it has 1,024 samples on every compute die in service, which is taken to be one that has a core in service
(log 116). -/
def State.dipWarm (s : State) (cls : Nat) : Bool :=
  (List.range 16).all fun d =>
    !((List.range 16).any fun i => s.inService (16 * d + i)) || decide (1024 ≤ s.fieldOf (Reg.dipCount (8 * d + cls)) 47 0)

/-- DIP_STATUS (R96). -/
def State.dipView (s : State) : Nat := setBits (s.reg Reg.dipStatus) 15 8 ((List.range 8).map fun c => b2n (s.dipWarm c) * 2 ^ c).sum

/-- CORE_STATUS.STATE of core `k` (R159). -/
def State.coreState (s : State) (k : Nat) : Nat :=
  let c := s.core k
  match c.run with
  | none => if s.coreRetired k then 7 else if c.outs.any (fun a => a.kind = .prog) then 1 else 0
  | some r =>
    if r.stopping then 6
    else if s.flag (Reg.coreCtl k) 0 then 5
    else match c.waitAt with
      | some (.sync, _) => 4
      | some _ => 3
      | none => 2

/-- Cycles of a wait of core `k` that has not ended (R159). -/
def State.waitSoFar (s : State) (k : Nat) (w : WaitFor) : Nat :=
  match (s.core k).waitAt with
  | some (b, t) => if b = w then s.cycles k - t else 0
  | none => 0

/-- Cycles of the running VX instruction of core `k` (R181). -/
def State.vecSoFar (s : State) (k : Nat) : Nat :=
  match (s.core k).vxq with
  | f :: _ => if bits f.word 63 60 = 4 then s.cycles k - f.since else 0
  | [] => 0

/-- A register of core `k`'s CORE block, at offset `o` within it (R121, R159). -/
def State.coreView (s : State) (k o : Nat) : Nat :=
  let c := s.core k
  let v := s.reg (Reg.coreBlock k + o)
  if o = 0x8 then s.coreState k * 2 ^ 8 + c.queue.length
  else if o = 0x10 then c.pc % 8192
  else if o = 0x108 then v + s.waitSoFar k .operands
  else if o = 0x110 then v + s.waitSoFar k .sync
  else if o = 0x3000 then setBits v 0 0 (b2n (!c.mxq.isEmpty))
  else if o = 0x3030 then v + if c.mxq.isEmpty then s.cycles k - c.idleAt else 0
  else if o = 0x3108 then v + s.vecSoFar k
  else if o = 0x3040 then v + (match c.heldAt with | some t => s.cycles k - t | none => 0)
  else v

/-- Earlier descriptors of the slot's context have no record yet. -/
def State.earlier (s : State) (i : Nat) : Bool := s.slots.any fun e => e.2.ctx == (s.slot i).ctx && decide (e.1 < i)

/-- The descriptor at a context's head cannot start yet (R435): its reads are outstanding, a FENCE is not satisfied, a SIGNAL has earlier
descriptors, a core queue is full, the tensor mover is busy. -/
def State.headWaits (s : State) (i : Nat) : Bool :=
  let v := s.slot i
  let l := Tbl.get LaunchRun.none s.runs i
  s.slotBusy i ||
  (v.opcode == 8 && ((v.step == 0 && bit (v.word 2) 0 && s.earlier i) || ((v.step == 2 || v.step == 4) && !v.grant))) ||
  (v.opcode == 9 && s.earlier i) ||
  (decide (v.opcode ≤ 7) && v.step != 0 && (match l.cores[l.entered]? with
    | some k => decide (4 ≤ (s.core k).queue.length)
    | none => false)) ||
  (decide (2 ≤ v.opcode) && decide (v.opcode ≤ 4) && decide (16 ≤ s.moverLoad v.mover))

/-- QE_CTX_STATUS of context `ctx` (R438): its parks, and the descriptor at its head. -/
def State.ctxView (s : State) (ctx : Nat) : Nat :=
  let v := setBits 0 31 16 (s.fieldOf (Reg.qeCtx ctx) 31 16)
  match s.slots.find? fun e => e.2.ctx == ctx && s.holdsCtx e.2 with
  | some (i, d) =>
    let v := setBits v 43 32 d.ring
    match d.stage with
    | .parked p => setBits (if p = 64 then setBits v 14 14 1 else setBits v 13 8 p) 2 0 3
    | .ready => setBits v 2 0 (if s.headWaits i then 2 else 1)
    | _ => setBits v 2 0 2
  | none =>
    match s.ctxNext ctx with
    | some i => setBits (setBits v 43 32 (s.slot i).ring) 2 0 1
    | none => v

/-- SCL_STATE, SCL_CUR and an entry of SCL_RING (R257). -/
def Hist.stateView (h : Hist) : Nat := h.amax * 2 ^ 32 + h.ring.length * 2 ^ 16 + b2n h.cold
def Hist.curView (h : Hist) : Nat := b2n h.seen * 2 ^ 32 + h.acc
def Hist.ringView (h : Hist) (i : Nat) : Nat := match h.ring[i]? with | some m => 2 ^ 32 + m | none => 0

/-- SLU_ROUND (R330). -/
def Round.view (x : Round) : Nat := x.gen * 2 ^ 48 + x.layer * 2 ^ 32 + x.state * 2 ^ 8 + b2n x.hold

/-- MOVER_STATUS (R217). -/
def State.moverView (s : State) (m : Nat) : Nat := s.moverLoad m * 2 ^ 8 + b2n (s.moverLoad m != 0)

/-- Offset `o` lies in an array of `n` registers at `base`. -/
def inArray (base n o : Nat) : Bool := decide (base ≤ o) && decide (o < base + 8 * n)

/-- What a read of the set-up register at offset `o`, a multiple of 8, returns (R441). -/
def State.readReg (s : State) (o : Nat) : Nat :=
  let i := fun (base : Nat) => (o - base) / 8
  if !regMapped o then 0
  else if decide (0x1000000 ≤ o) && decide (o < 0x1400000) then s.coreView ((o - 0x1000000) / 0x4000) ((o - 0x1000000) % 0x4000)
  else if inArray (Reg.ringHead 0) 4096 o then s.reg o + b2n (s.ringBusy (i (Reg.ringHead 0))) * 2 ^ 32
  else if inArray (Reg.qeCtx 0) 512 o then s.ctxView (i (Reg.qeCtx 0))
  else if inArray (Reg.moverStatus 0) 4 o then s.moverView (i (Reg.moverStatus 0))
  else if inArray (Reg.sclState 0) 1024 o then (s.hist (i (Reg.sclState 0))).stateView
  else if inArray (Reg.sclCur 0) 1024 o then (s.hist (i (Reg.sclCur 0))).curView
  else if inArray (Reg.sclRing 0) 65536 o then (s.hist (i (Reg.sclRing 0) / 64)).ringView (i (Reg.sclRing 0) % 64)
  else if inArray (Reg.panFree 0) 64 o then s.poolFree (i (Reg.panFree 0))
  else if o = Reg.dipStatus then s.dipView
  else if o = Reg.sluRrLive then s.rrLive
  else if inArray (Reg.sluRound 0) 64 o then (s.round (i (Reg.sluRound 0))).view
  else s.reg o

end Sys2Proof.Machine
end

