-- ==== Sys2Proof/Machine/Operands.lean ====
section
/-! DEFINITION. The operand forms of core instructions: register fields (R123, R134–R145), tile handles and their
regions (R129–R133), and the addresses a core program may name (R336, R388–R391). -/

namespace Sys2Proof.Machine

/-! ## Instruction words -/

/-- A register field value names a register (R123). -/
def regOk (f : Nat) : Bool := decide (f < 48)

/-- A register field value names an a-register (R123). -/
def aregOk (f : Nat) : Bool := decide (32 ≤ f) && decide (f < 48)

/-- The operations of each class (R134–R145, R166). -/
def opKnown (cls op : Nat) : Bool :=
  match cls with
  | 0 => decide (op ≤ 0xF)
  | 1 => decide (op ≤ 5) || [0x8, 0x9, 0xE, 0xF].contains op
  | 2 => [0x0, 0x1, 0x2, 0x8, 0x9, 0xA, 0xB, 0xC].contains op
  | 3 => op == 0
  | 4 => decide (op ≤ 0xD) || (decide (0x10 ≤ op) && decide (op ≤ 0x18)) || (decide (0x20 ≤ op) && decide (op ≤ 0x23)) ||
      (decide (0x28 ≤ op) && decide (op ≤ 0x2C)) || (decide (0x30 ≤ op) && decide (op ≤ 0x35)) ||
      (decide (0x38 ≤ op) && decide (op ≤ 0x3B))
  | 5 => decide (op ≤ 3)
  | 6 => [0x0, 0x1, 0x2, 0x4, 0x5, 0x6, 0x8, 0x9, 0xC].contains op
  | _ => false

/-- `imm32` sign-extended to 64 bits (R135, R138). -/
def imm64 (w : Nat) : Nat := wrapI 64 (sext 32 (bits w 31 0))

/-- Some register of the list is pending (R125). -/
def Core.anyPend (c : Core) (fs : List Nat) : Bool := fs.any fun f => c.pend.contains f

/-! ## Handles -/

/-- The base lies in the core's own Cistern. -/
def inCistern (k off : Nat) : Bool := regionOf off = some (.cistern k)

/-- The core's Cistern is open (R224). -/
def State.cisOpen (s : State) (k : Nat) : Bool := s.flag (Reg.cisStatus k) 0

/-- Bytes of one stored row (R129, R222). -/
def Handle.rowBytes (h : Handle) : Nat := if h.pair then 8 * h.cols else cdiv (h.cols * h.ty.width) 8

/-- Bytes of the scale plane (R61, R62). -/
def Handle.planeBytes (h : Handle) : Nat := h.block.planeBytes h.rows h.cols

/-- The byte ranges of a handle's region: elements and scale plane (R131). -/
def Handle.ranges (h : Handle) : List (Nat × Nat) := [(h.base, h.rows * h.pitch), (h.scale, h.planeBytes)]

/-- Two byte ranges share a byte. -/
def rangesMeet (a b : Nat × Nat) : Bool := decide (a.1 < b.1 + b.2) && decide (b.1 < a.1 + a.2)

/-- Two handles' regions overlap (R131). -/
def Handle.overlaps (h g : Handle) : Bool := h.ranges.any fun a => g.ranges.any (rangesMeet a)

/-- The handles an instruction in flight reads. -/
def Flight.reads (f : Flight) : List (Nat × Handle) := f.ta.toList ++ f.tb.toList ++ f.tc.toList

/-- The handles in flight for writing (R108): destinations of MX, VX and SCALE instructions and of TLOADs. -/
def Core.writing (c : Core) : List (Nat × Handle) :=
  (c.mxq ++ c.vxq).flatMap (fun f => f.td.toList) ++
  (c.outs.filter fun a => a.kind = .tload).map fun a => (a.num, a.h)

/-- The handles in flight for reading. -/
def Core.reading (c : Core) : List (Nat × Handle) :=
  (c.mxq ++ c.vxq).flatMap Flight.reads ++ (c.outs.filter fun a => a.kind = .tstore).map fun a => (a.num, a.h)

/-- Handle `h` is busy (R108, R130). -/
def Core.busy (c : Core) (h : Nat) : Bool := (c.writing ++ c.reading).any fun e => e.1 == h

/-- Handle `h` is being written. -/
def Core.written (c : Core) (h : Nat) : Bool := c.writing.any fun e => e.1 == h

/-- What the checks of R131 and R106 say about a handle an instruction names. -/
inductive Ready where
  | ok | wait | illegal
  deriving DecidableEq, Repr

/-- Two findings together: an illegal handle before a wait. -/
def Ready.and : Ready → Ready → Ready
  | .illegal, _ => .illegal
  | _, .illegal => .illegal
  | .ok, .ok => .ok
  | _, _ => .wait

/-- A handle that is read (R131). -/
def Core.readable (c : Core) (h : Nat) : Ready :=
  match (c.handle h).st with
  | .free => .illegal
  | .loading => .wait
  | .allocated => if c.written h then .wait else .illegal
  | .resident => if c.written h then .wait else .ok

/-- A handle that is written: it has a region, it is not busy, and its region overlaps no busy handle's (R108, R131). -/
def Core.writable (c : Core) (h : Nat) : Ready :=
  if (c.handle h).st = .free then .illegal
  else if c.busy h || (c.writing ++ c.reading).any (fun e => e.2.overlaps (c.handle h)) then .wait
  else .ok

/-- The offset of element (i, j) of a handle's element array, in bits from its base; 8 bytes per element under PAIR
(R222). -/
def Handle.elemOff (h : Handle) (i j : Nat) : Nat := i * h.pitch + (if h.pair then 8 * j else j * h.ty.width / 8)

/-- The code of element (i, j) as stored; FP4 elements are nibbles, lower index in the low one (R39). Under PAIR the low
word holds hi. -/
def State.elem (s : State) (h : Handle) (i j : Nat) : Nat :=
  let o := h.base + h.elemOff i j
  if h.ty.width = 4 then
    let b := (s.memByte o).toNat
    if j % 2 = 0 then b % 16 else b / 16
  else s.memNat o (h.ty.width / 8)

/-- The lo word of a PAIR element (R222). -/
def State.elemLo (s : State) (h : Handle) (i j : Nat) : Nat := s.memNat (h.base + h.elemOff i j + 4) 4

/-- The scale byte of element (i, j) of a handle. -/
def State.elemScale (s : State) (h : Handle) (i j : Nat) : Nat :=
  (s.memByte (h.scale + h.block.scaleIx h.cols i j)).toNat

/-- The exact value of element (i, j): with its block scale (R54), and hi + lo under PAIR (R228). -/
def State.elemVal (s : State) (h : Handle) (i j : Nat) : FVal :=
  if h.pair then pairVal (s.elem h i j, s.elemLo h i j)
  else if h.block.scaled then scaledVal h.ty (s.elem h i j) (s.elemScale h i j)
  else h.ty.val (s.elem h i j)

/-- Some word the handle's elements lie in reads as the error value because of an error (R499). -/
def State.handleBad (s : State) (h : Handle) : Bool :=
  (List.range h.rows).any (fun i => s.rangeBad (h.base + i * h.pitch) h.rowBytes) || s.rangeBad h.scale h.planeBytes

/-- Counters and records of reading a handle's region. -/
def State.handleNotes (s : State) (h : Handle) : State :=
  (List.range h.rows).foldl (fun s i => s.readNotes 1 (h.base + i * h.pitch) h.rowBytes)
    (if h.planeBytes = 0 then s else s.readNotes 1 h.scale h.planeBytes)

/-- The bytes of one row from its element codes (R39). -/
def rowCodes (t : EType) : List Nat → List Byte
  | [] => []
  | [a] => if t.width = 4 then [BitVec.ofNat 8 (a % 16)] else leBytes (t.width / 8) a
  | a :: b :: r =>
    if t.width = 4 then BitVec.ofNat 8 (a % 16 + b % 16 * 16) :: rowCodes t r
    else leBytes (t.width / 8) a ++ rowCodes t (b :: r)

/-- Writes rows of element codes into a handle (pitch bytes beyond a row's end keep their value). -/
def State.putRows (s : State) (h : Handle) (i : Nat) : List (List Nat) → State
  | [] => s
  | r :: rs => (s.memWrite 1 (h.base + i * h.pitch) (rowCodes h.ty r)).putRows h (i + 1) rs

/-- Writes rows of PAIR elements (hi, lo) into a Cistern handle. -/
def State.putPairRows (s : State) (h : Handle) (i : Nat) : List (List (Nat × Nat)) → State
  | [] => s
  | r :: rs =>
    (s.memWrite 1 (h.base + i * h.pitch) (r.flatMap fun p => leBytes 4 p.1 ++ leBytes 4 p.2)).putPairRows h (i + 1) rs

/-! ## Addresses of a core program -/

/-- The kinds of a core's access to memory, for R336 and R389. -/
inductive Touch where
  | load | store | amo
  deriving DecidableEq, Repr

/-- What windows must grant for an access. -/
def Touch.want : Touch → Want
  | .load => .read | .store => .write | .amo => .atomic

/-- R335, R336, R346: what a core program's access to a local offset may reach. -/
def State.coreLocalOk (s : State) (t : Touch) (scalar : Bool) (o n : Nat) : Bool :=
  match regionOf o with
  | none => false
  | some .sync => scalar && t = .load && decide (o + n ≤ syncBase + 0x10000)
  | some .setup => scalar && (t = .load || t = .store) && decide (o < 0x1D000000000 + 0x100000)
  | some (.cistern _) => t = .load && s.mappedMem o n
  | some .dram => s.mappedMem o n
  | some (.larder _) => s.mappedMem o n
  | some _ => (t = .load || t = .store) && s.mappedMem o n

/-- R140, R335, R336, R391, R403, R443: a core program's access is admitted; otherwise it is a program fault with cause
0x05. -/
def State.coreMay (s : State) (t : Touch) (scalar : Bool) (a n : Nat) : Bool :=
  s.inHouse a && decide (aRoom a < s.rooms) && s.outAdmits a n t.want &&
  (!s.isLocal a || s.coreLocalOk t scalar (aOff a) n)

/-- The value an SLD of `n` bytes reads at a local offset (R334, R336). -/
def State.localRead (s : State) (o n : Nat) : Nat :=
  match regionOf o with
  | some .sync =>
    leNat ((List.range n).map fun i =>
      let x := o + i - syncBase
      if x < 0x4000 then BitVec.ofNat 8 (s.sync.sem (x / 4) / 256 ^ (x % 4))
      else if x < 0x4080 then
        BitVec.ofNat 8 (((List.range 8).map fun b => b2n (s.sync.event (8 * (x - 0x4000) + b)) * 2 ^ b).sum)
      else 0)
  | some .setup => bits (s.readReg ((o - 0x1D000000000) / 8 * 8)) 63 (8 * (o % 8)) % 256 ^ n
  | _ => s.memNat o n

end Sys2Proof.Machine
end

