-- ==== Sys2Proof/Machine/Issue.lean ====
section
/-! DEFINITION. The control unit (05_core_programs.md): issue of one instruction (R122, R134), program faults (R155), the
stopping of cores (R158), and the end of outstanding accesses (R125, R137). -/

namespace Sys2Proof.Machine

/-! ## LAUNCHes in flight -/

def State.lrun (s : State) (i : Nat) : LaunchRun := Tbl.get LaunchRun.none s.runs i
def State.setRun (s : State) (i : Nat) (r : LaunchRun) : State := { s with runs := Tbl.set LaunchRun.none s.runs i r }

/-- The tag of a descriptor (R451). -/
def Slot.tag (v : Slot) : Nat := v.word 1

/-! ## Stopping -/

/-- The wait of an MX instruction under a hold ends, and its cycles are counted (R121). -/
def State.endHeld (s : State) (k : Nat) : State :=
  let c := s.core k
  match c.heldAt with
  | none => s
  | some t => (s.incReg (Reg.arrayHeld k) (s.cycles k - t)).setCore k { c with heldAt := none }

/-- A hold stops MX issue on core `k`: test, repair or retirement, or the supply shed (R107, R476). -/
def State.mxHeld (s : State) (k : Nat) : Bool := (s.core k).hold || decide (4 ≤ s.fieldOf Reg.powerStatus 10 8)

/-- Waits under holds that are over end. -/
def State.endHolds (s : State) : State :=
  (s.cores.map Prod.fst).foldl (fun s k => if s.mxHeld k then s else s.endHeld k) s

/-- The core has nothing in flight (R158 step 2). -/
def Core.drained (c : Core) : Bool := c.outs.isEmpty && c.mxq.isEmpty && c.vxq.isEmpty && c.syncs.isEmpty

/-- The program's part on core `k` is over: its registers pend no more, its handles are FREE, and the LAUNCH knows it
(R137, R158 step 3). -/
def State.coreOver (s : State) (k : Nat) : State :=
  let c := s.core k
  match c.run with
  | none => s
  | some r =>
    let l := s.lrun r.launch
    (s.setCore k { c with run := none, pend := [], handles := [], inSync := false }).setRun r.launch
      { l with done := l.done ++ [r.idx] }

/-- A stopping core reaches step 3 of R158 once nothing is in flight on it. -/
def State.settle (s : State) (k : Nat) : State :=
  let c := s.core k
  match c.run with
  | some r => if r.stopping && c.drained then s.coreOver k else s
  | none => s

/-- R158: core `k` stops. It issues nothing further, and its waits are abandoned; a SEMWAIT or EVWAIT not yet granted takes
nothing. -/
def State.stopCore (s : State) (k : Nat) : State :=
  match (s.core k).run with
  | none => s
  | some r =>
    let s := (s.endWait k).endHeld k
    let s := s.dropWaiters fun w => match w with | .core j _ => j == k | _ => false
    let c := s.core k
    (s.setCore k { c with
      run := some { r with stopping := true }, inSync := false,
      syncs := c.syncs.filter fun o => o.kind ≠ .semwait && o.kind ≠ .evwait }).settle k

/-- A LAUNCH stops on all its cores (R158): those that run it stop, those that only queue it drop it. -/
def State.stopLaunch (s : State) (i : Nat) : State :=
  (s.lrun i).cores.zipIdx.foldl
    (fun s (k, ix) =>
      let c := s.core k
      if c.run.any fun r => r.launch == i then s.stopCore k
      else if (s.lrun i).done.contains ix then s
      else
        let l := s.lrun i
        (s.setCore k { c with queue := c.queue.filter fun q => q.1 != i }).setRun i { l with done := l.done ++ [ix] })
    s

/-- The completion status of a program fault's cause (R155). -/
def causeStatus (cause : Nat) : Nat := if cause = 5 then 0x15 else 0x14

/-- R155: a program fault of the instruction `w` at `pc` on core `k`. A fault that has no instruction word, a fetch past the program's end or of a
word that cannot be corrected, passes 0 for it: the spec does not say what CLASS_OP shows then (log 112). -/
def State.faultAt (s : State) (k cause pc w : Nat) : State :=
  match (s.core k).run with
  | none => s
  | some r =>
    let l := s.lrun r.launch
    let s := s.setReg (Reg.coreFault k) (pc % 8192 * 2 ^ 32 + cause * 2 ^ 8 + bits w 63 56)
    let s := s.raise (causeStatus cause) (cause * 2 ^ 8) 1 k pc (s.slot r.launch).tag
    let s := if l.fault.isNone then s.setRun r.launch { l with fault := some (cause, r.idx % 256) } else s
    s.stopLaunch r.launch

/-- The same for the instruction at the program counter. -/
def State.progFault (s : State) (k cause w : Nat) : State := s.faultAt k cause (s.core k).pc w

/-- A flag of the core's LAUNCH is raised (R156). -/
def State.markRun (s : State) (i : Nat) (f : LaunchRun → LaunchRun) : State := s.setRun i (f (s.lrun i))

/-- The LAUNCH of core `k` has read the error value (R156). -/
def State.markDead (s : State) (i : Nat) : State := s.markRun i fun l => { l with dead := true }

/-! ## Issue -/

/-- The place of word `pc` of a core's program store among the places of `ue` (R499). -/
def progPlace (k pc : Nat) : Nat := 2 ^ 42 + 65536 * k + 8 * pc

/-- The control unit of core `k` takes the instruction at its program counter (R122). When it is of class `cls` and
operation `op` it does `f`; an instruction outside the program, an uncorrectable word of the store (R499) and a reserved class or
operation (R134) are program faults; any other instruction is another command's, and nothing happens. A core that
runs no program, stops, is halted, or waits in SEMWAIT or EVWAIT issues nothing; a built-in program's instructions are no rows (R201, R267). -/
def State.issue (s : State) (k cls op : Nat) (f : Nat → State → State) : State :=
  let c := s.core k
  match c.run with
  | none => s
  | some r =>
    if r.stopping || r.builtin || c.inSync || s.flag (Reg.coreCtl k) 0 || s.coresHeld then s
    else if r.len ≤ c.pc then s.progFault k 6 0
    else if Tbl.get false s.ue (progPlace k c.pc) then
      ((s.incReg (Reg.sramUe k) 1).internal 0 1 k 2 k 0x300 0 (8 * c.pc)).progFault k 6 0
    else
      let w := (Tbl.get 0 c.prog c.pc).toNat
      if !opKnown (bits w 63 60) (bits w 59 54) then s.progFault k 1 w
      else if bits w 63 60 = cls ∧ bits w 59 54 = op then f w s
      else s

/-- The instruction has issued: the program counter moves to `pc`, and a wait at issue ends. -/
def State.issued (s : State) (k pc : Nat) : State :=
  let s := s.endWait k
  s.setCore k { s.core k with pc := pc }

/-- An instruction of core `k` has completed (R159). -/
def State.instrDone (s : State) (k : Nat) : State := s.incReg (Reg.coreInstrDone k) 1

/-- The instruction has issued and completed, and the next follows it. -/
def State.retire (s : State) (k : Nat) : State := (s.issued k ((s.core k).pc + 1)).instrDone k

/-- The instruction waits at issue for handles, registers or the partial pool (R122, R159). -/
def State.hold (s : State) (k : Nat) : State := s.noteWait k .operands

/-- The instruction waits at issue for an engine that is full or held (R102, R107, R163). -/
def State.holdEngine (s : State) (k : Nat) : State := s.noteWait k .engine

/-- A core register takes a value, and is pending no more. -/
def State.putReg (s : State) (k f v : Nat) : State :=
  let c := (s.core k).put f v
  s.setCore k { c with pend := c.pend.filter (· ≠ f) }

/-- A core register becomes pending (R125); s0 never does. -/
def State.pendReg (s : State) (k f : Nat) : State :=
  let c := s.core k
  if f = 0 then s else s.setCore k { c with pend := c.pend ++ [f] }

/-! ## Accesses -/

/-- The accesses of a core but the one numbered `id`. -/
def Core.without (c : Core) (id : Nat) : Core := { c with outs := c.outs.filter fun a => a.id ≠ id }

/-- Replaces the access numbered like `a`. -/
def Core.update (c : Core) (a : Access) : Core := { c with outs := c.outs.map fun b => if b.id = a.id then a else b }

/-- The value an SLD delivers from `n` bytes of value `v`: zero-extended, or sign-extended when `sub`[2] is set (R138). -/
def sldValue (sub n v : Nat) : Nat := if bit sub 2 then wrapI 64 (sext (8 * n) v) else v % 2 ^ (8 * n)

/-- The access `a` of core `k` is over, with the number it brings: its register takes the value, the LAUNCH is marked when
the error value was read (R156; a 4-byte old value is zero-extended, R347), and a refusal at the target is a program fault that leaves the destination unwritten
(R392). -/
def State.accessOver (s : State) (k : Nat) (a : Access) (v : Nat) : State :=
  let c := s.core k
  let s := s.setCore k (c.without a.id)
  if a.refused then s.faultAt k 5 a.pc a.word |>.settle k
  else
    let s := match c.run with
      | some r => if a.bad then s.markDead r.launch else s
      | none => s
    let s := match a.kind with
      | .sld => s.putReg k a.num (sldValue a.sub a.size v)
      | .amo => s.putReg k a.num (v % 2 ^ (8 * amoWidth a.sub))
      | .tqpop => (s.putReg k a.num v).incReg (Reg.coreTqPops k) 1
      | _ => s
    (s.instrDone k).settle k

/-- The far-side row addresses of a TLOAD or TSTORE and their lengths, then the plane's (R140). -/
def Access.parts (a : Access) : List (Nat × Nat) :=
  (List.range a.h.rows).map (fun i => (a.addr + i * a.pitch, a.h.rowBytes)) ++
  (if a.h.planeBytes = 0 then [] else [(a.plane, a.h.planeBytes)])

/-- The own-side places of the same parts. -/
def Handle.parts (h : Handle) : List (Nat × Nat) :=
  (List.range h.rows).map (fun i => (h.base + i * h.pitch, h.rowBytes)) ++
  (if h.planeBytes = 0 then [] else [(h.scale, h.planeBytes)])

/-- The byte of a list of cells at an address; the error value where none came (R141, R400). -/
def cellByte (cs : Cells) (a : Nat) : Byte :=
  match cs.find? fun c => c.1 == a with
  | some c => c.2
  | none => 0xFF

/-- The ranges of memory an access touches at its far side. -/
def Access.ranges (a : Access) : List (Nat × Nat) :=
  match a.kind with
  | .tload | .tstore => a.parts
  | .tqpop => []
  | .prog => []
  | _ => [(a.addr, a.size)]

/-- R333, R397: an access issued earlier by the core and not yet complete touches a byte this one touches. -/
def Core.mustWait (c : Core) (a : Access) : Bool :=
  c.outs.any fun b => decide (b.id < a.id) && b.ranges.any fun x => a.ranges.any (rangesMeet x)

/-- The bytes of a TLOAD are written into the handle, which becomes RESIDENT (R130, R140). -/
def State.tloadWrite (s : State) (k : Nat) (a : Access) (bytes : Nat → Nat → List Byte) : State :=
  let s := (a.parts.zip a.h.parts).foldl (fun s (f, o) => s.memWrite 2 o.1 (bytes f.1 f.2)) s
  let s := if a.h.pair || inCistern k a.h.base then
    s.incReg (Reg.cisLoaded k) (a.h.rows * a.h.rowBytes) else s
  let c := s.core k
  if (c.handle a.num).st = .loading then s.setCore k (c.setHandle a.num { c.handle a.num with st := .resident }) else s

/-- Some byte a TLOAD reads at its far side, or a TSTORE in its handle, carries an error. -/
def State.partsBad (s : State) (ps : List (Nat × Nat)) : Bool := ps.any fun p => s.rangeBad (aOff p.1) p.2

/-- The bytes core `k` reads of local memory: the error value where R17 leaves it no way there. -/
def State.coreBytes (s : State) (k o n : Nat) : List Byte :=
  (List.range n).map fun i => if s.coreCut k (o + i) then 0xFF else s.memByte (o + i)

/-- A local access is performed at its home (R333), and is over. One for which R17 leaves no way ends as to a dead target. -/
def State.perform (s : State) (k : Nat) (a : Access) : State :=
  let o := aOff a.addr
  match a.kind with
  | .sld =>
    if s.coreCut k o then (s.incReg Reg.fabTimeouts 1).accessOver k { a with bad := true } (2 ^ 64 - 1)
    else
      let b := s.rangeBad o a.size
      let v := s.localRead o a.size
      (s.readNotes 1 o a.size).accessOver k { a with bad := b } v
  | .sst =>
    match regionOf o with
    | some .setup => s.accessOver k a 0
    | _ =>
      if s.coreCut k o then (s.incReg Reg.fabTimeouts 1).accessOver k a 0
      else (s.memWrite 1 o (leBytes a.size a.data)).accessOver k a 0
  | .amo =>
    if s.coreCut k o then (s.incReg Reg.fabTimeouts 1).accessOver k { a with bad := true } (2 ^ 64 - 1)
    else
      let (s, v, b) := s.amoApply 1 o a.sub a.data a.cmp
      s.accessOver k { a with bad := b } v
  | .tload =>
    let b := s.partsBad a.parts || a.parts.any fun p => (unitsOf 64 (aOff p.1) p.2).any (s.coreCut k)
    let s' := a.parts.foldl (fun s p => s.readNotes 2 (aOff p.1) p.2) s
    (s'.tloadWrite k a fun f n => s.coreBytes k (aOff f) n).accessOver k { a with bad := b } 0
  | .tstore =>
    let b := s.handleBad a.h
    let s' := (s.handleNotes a.h)
    let s' := (a.parts.zip a.h.parts).foldl
      (fun t (f, o) =>
        (unitsOf 64 (aOff f.1) f.2).foldl
          (fun t u =>
            let lo := max u (aOff f.1)
            let hi := min (u + 64) (aOff f.1 + f.2)
            if s.coreCut k u then t else t.memWrite 2 lo (s.memBytes (o.1 + (lo - aOff f.1)) (hi - lo))) t) s'
    let s' := if inCistern k a.h.base then s'.incReg (Reg.cisStored k) (a.h.rows * a.h.rowBytes) else s'
    s'.accessOver k { a with bad := b } 0
  | .tqpop =>
    match (s.core k).run with
    | none => s.accessOver k a (2 ^ 64 - 1)
    | some r =>
      let l := s.lrun r.launch
      let v := s.slot r.launch
      if bit (v.word 4) 15 && decide (l.tile < bits (v.word 4) 63 39) then
        (s.setRun r.launch { l with tile := l.tile + 1 }).accessOver k a l.tile
      else s.accessOver k a (2 ^ 64 - 1)
  | .prog => s

end Sys2Proof.Machine
end

