-- ==== Sys2Proof/Machine/Tracker.lean ====
section
/-! DEFINITION. Cells and the transaction tracker (R360–R378, R395–R401): the checksum of a cell, the choice of its port, the
tag of a request, its completion at the requester. -/

namespace Sys2Proof.Machine

/-! ## Cells -/

/-- One bit step and one byte step of CRC-32C (reflected polynomial 0x82F63B78). -/
def crcBit (c : Nat) : Nat := if c % 2 = 1 then Nat.xor (c / 2) 0x82F63B78 else c / 2
def crcByte (c : Nat) (b : Byte) : Nat := (List.range 8).foldl (fun c _ => crcBit c) (Nat.xor c b.toNat)

/-- CRC-32C of a byte sequence. -/
def crc32c (bs : List Byte) : Nat := Nat.xor (bs.foldl crcByte 0xFFFFFFFF) 0xFFFFFFFF

/-- Words 0 to 2 of a header with `hops`, `spills`, `OLD`, `EPOCH` and `RETRY` zero (R360). -/
def cellWords (c : Cell) : List Nat :=
  [c.dstHouse * 2 ^ 48 + c.dstRoom * 2 ^ 43 + c.dstUnit * 2 ^ 37 + c.srcRoom * 2 ^ 32 + c.srcHouse * 2 ^ 16 + c.srcUnit * 2 ^ 10,
   c.ty * 2 ^ 60 + b2n c.pass * 2 ^ 56 + c.tag * 2 ^ 39 + c.len * 2 ^ 32 + c.aux * 2 ^ 16,
   c.addr]

/-- The types of which R361 gives a payload: an ACK carries one for an AMO alone. -/
def cellCarries (c : Cell) : Bool := !(c.ty == 0 || c.ty == 0xA || (c.ty == 9 && c.payload.isEmpty))

/-- The valid bytes of a cell's payload, of which `len` says how many there are (R360). -/
def cellValid (c : Cell) : List Byte := if cellCarries c then (List.range (c.len + 1)).map fun i => c.payload.getD i 0 else []

/-- The end-to-end checksum of a cell (R360). -/
def cellCrc (c : Cell) : Nat := crc32c ((cellWords c).flatMap (leBytes 8) ++ cellValid c)

/-- The cell with its checksum. -/
def cellSealed (c : Cell) : Cell := { c with e2e := BitVec.ofNat 32 (cellCrc c) }

/-- The checksum is right (R363). -/
def cellIntact (c : Cell) : Bool := c.e2e == BitVec.ofNat 32 (cellCrc c)

/-! ## Ports and routes -/

/-- A port carries cells: UP, not MISWIRED, not masked (R358). -/
def State.portIn (s : State) (p : Nat) : Bool :=
  s.flag (Reg.fabPortStatus p) 0 && !s.flag (Reg.fabPortStatus p) 3 && !s.flag Reg.fabPortMask p

/-- Cells that arrive on a port are taken: it is UP, and not MISWIRED (R358). One that is masked brings those under way (R369). -/
def State.portTakes (s : State) (p : Nat) : Bool := s.flag (Reg.fabPortStatus p) 0 && !s.flag (Reg.fabPortStatus p) 3

/-- The routing table in force: false A, true B (R382). -/
def State.activeB (s : State) : Bool := s.flag Reg.fabEpoch 0

/-- Room entry and house entry of a table (R364). -/
def State.roomRoute (s : State) (b : Bool) (r : Nat) : Nat := s.reg (if b then Reg.roomRouteB r else Reg.roomRouteA r)
def State.houseRoute (s : State) (b : Bool) (h : Nat) : Nat := s.reg (if b then Reg.houseRouteB h else Reg.houseRouteA h)

/-- The productive port towards room `r` of this house, where its entry is valid and the port in service (R364). -/
def State.portTo (s : State) (b : Bool) (r : Nat) : Option Nat :=
  let e := s.roomRoute b r
  if bit e 8 && s.portIn (bits e 4 0) then some (bits e 4 0) else none

/-- Where R364 sends a cell. -/
inductive Way where
  | here | port (p : Nat) | spill | door | miss
  deriving DecidableEq, Repr

/-- R364: where a cell for house `h`, room `r` goes, by table `b`. An entry for house `0xFFFF` is ignored (R443), and so is the room entry of this
room's own number: a relay that names it leaves no productive port. -/
def State.way (s : State) (b : Bool) (h r : Nat) : Way :=
  if h = s.house then
    if r = s.room then .here
    else match s.portTo b r with | some p => .port p | none => .spill
  else
    let e := s.houseRoute b h
    if h = 0xFFFF || !bit e 25 then .miss
    else if bit e 24 then
      match if bits e 20 16 = s.room then none else s.portTo b (bits e 20 16) with | some p => .port p | none => .spill
    else if bits e 8 0 = 0 then .miss
    else .door

/-- The fabric die of a port (R13). -/
def portDie (p : Nat) : Nat := p % 4

/-- R368: the house port a spilling cell takes: the first in increasing number from one above the last the die spilled
to that is in service and satisfies `ok`. -/
def State.spillPort (s : State) (die : Nat) (ok : Nat → Bool) : Option Nat :=
  let last := Tbl.get 30 s.lastSpill die
  ((List.range 31).map fun i => (last + 1 + i) % 31).find? fun p => s.portIn p && ok p

/-- A cell leaves on a port: it crosses one more link (R368) and is held for replay (R363). -/
def State.emit (s : State) (p : Nat) (c : Cell) : State :=
  let c := { c with hops := c.hops + 1 }
  { s with out := s.out ++ [.cell p c], replay := Tbl.modify [] s.replay p fun l => l ++ [c] }

/-- A cell spills from fabric die `die` (R368): it counts, and is marked OLD at 8 spills. -/
def State.spill (s : State) (die p : Nat) (c : Cell) : State :=
  let n := min (c.spills + 1) 15
  let s := s.incReg Reg.fabSpills 1
  let s := if n = 8 && !c.old then s.incReg Reg.fabOldMarked 1 else s
  ({ s with lastSpill := Tbl.set 30 s.lastSpill die p }).emit p { c with spills := n, old := c.old || decide (8 ≤ n) }

/-- R378: the room towards which the source routes a memory request for room `d`. -/
def State.firstHop (s : State) (c : Cell) : Nat :=
  let i := mix 0 1 0 (c.addr % 2 ^ 41 / 256) % 32
  if s.flag Reg.memCtl 0 && decide (c.ty ≤ 3) && i ≠ s.room && i ≠ c.dstRoom && decide (i < s.rooms) &&
    (s.portTo s.activeB i).isSome then i else c.dstRoom

/-- A port is slow and does not send in this slot, or its output register is full (R369); `idle` names the slow ports that do not send. -/
def State.portShut (s : State) (idle : List Nat) (p : Nat) : Bool :=
  (s.flag (Reg.fabPortStatus p) 2 && idle.contains p) || !(Tbl.get [] s.slowOut p).isEmpty

/-- House ports: outside a slot of CELL_TRANSIT no slow one is known to send. -/
def housePorts : List Nat := List.range 31

/-- A cell of this room's own takes the EPOCH of the active table (R382) and is put on an output: its productive port, or where it has none the
first it may spill to; `used` are the ports taken in the slot. The result names the port, and none where the cell waits on its die (R364,
R370). -/
def State.inject (s : State) (idle used : List Nat) (c : Cell) : State × Option Nat :=
  let c := { c with epoch := s.activeB }
  let ok := fun (p : Nat) => !used.contains p && !s.portShut idle p
  match s.way c.epoch c.dstHouse (if c.dstHouse = s.house then s.firstHop c else c.dstRoom) with
  | .port p => if ok p then (s.emit p c, some p) else (s, none)
  | .spill =>
    match s.spillPort 0 ok with
    | some p => (s.spill 0 p c, some p)
    | none => (s, none)
  | _ => (s, none)

/-! ## Doors: bulk messages that leave (R405–R407, R409) -/

/-- Door ports a house entry names: bit i is port 31 + i (R387). -/
def doorPorts (doors : Nat) : List Nat := ((List.range 9).filter (bit doors)).map (31 + ·)

/-- The door engine that takes what is routed to a house entry's door ports: one whose die carries such a port (R13). -/
def doorEngineOf (doors : Nat) : Nat :=
  let l := (doorPorts doors).map portDie
  l.getD (Sys2Proof.Config.doorEngine doors % l.length) 0

/-- Number of a source engine and a room in the tables of sequence numbers. -/
def doorKey (house room engine : Nat) : Nat := 4 * (32 * house + room) + engine

/-- CRC-32C over the checksum words of contained cells (R406). -/
def msgCrc (cells : List Cell) : Nat := crc32c (cells.flatMap fun c => leBytes 4 c.e2e.toNat)

/-- The 32 bytes of a message header (R406). -/
def DoorMsg.header (m : DoorMsg) : List Byte :=
  leBytes 4 m.seq ++ leBytes 2 m.cells.length ++ leBytes 1 (m.kind + b2n m.reset * 128) ++ leBytes 1 m.engine ++
  leBytes 4 (msgCrc m.cells) ++ leBytes 4 0 ++ leBytes 8 m.arg0 ++ leBytes 8 m.arg1

/-- The MSG cell that carries the header. -/
def DoorMsg.headCell (m : DoorMsg) (epoch : Bool) : Cell :=
  cellSealed
    { dstHouse := m.house, dstRoom := m.room, dstUnit := 9 + m.engine, srcHouse := m.srcHouse,
      srcRoom := m.srcRoom, srcUnit := 9 + m.engine, hops := 0, spills := 0, ty := 4, old := false,
      epoch := epoch, retry := false, pass := false, tag := 0,
      len := 31, aux := 0, addr := 0, weight := 0, payload := m.header, e2e := 0 }

/-- The cells of a message as they leave: word 0 of a contained cell names the destination room, its hops and spills restart, and its words 1–3
stay (R406). -/
def DoorMsg.wire (m : DoorMsg) (epoch : Bool) : List Cell :=
  m.headCell epoch :: m.cells.map fun c => { c with dstHouse := m.house, dstRoom := m.room, hops := 0, spills := 0 }

/-- Credits held for a door port (R407). -/
def State.credits (s : State) (p : Nat) : Nat := 32768 - Tbl.get 0 s.doorUsed p

/-- The port in service with the most credits, the lower of equals (R407). -/
def State.bestDoor (s : State) (doors : Nat) : Option Nat :=
  ((doorPorts doors).filter s.portIn).foldl (fun o p => match o with
    | none => some p
    | some q => if s.credits q < s.credits p then some p else some q) none

/-- Cells of one message leave on a port, one after the other. -/
def State.emitAll (s : State) (p : Nat) (cs : List Cell) : State := cs.foldl (fun s c => s.emit p c) s

/-- A message's cells are put on their way if they can be (R407); over the house mesh where the entry names a relay room. The Bool says that
they were. -/
def State.putMsg (s : State) (m : DoorMsg) : State × Bool :=
  let cells := m.wire s.activeB
  match s.way s.activeB m.house m.room with
  | .door =>
    match s.bestDoor (bits (s.houseRoute s.activeB m.house) 8 0) with
    | some p =>
      if cells.length ≤ s.credits p then
        (({ s with doorUsed := Tbl.modify 0 s.doorUsed p (· + cells.length) }).emitAll p cells, true)
      else (s, false)
    | none => (s, false)
  | .port p => if (Tbl.get [] s.slowOut p).isEmpty then (s.emitAll p cells, true) else (s, false)
  | .spill =>
    match s.spillPort m.engine fun p => (Tbl.get [] s.slowOut p).isEmpty with
    | some p => (cells.foldl (fun s c => s.spill m.engine p c) s, true)
    | none => (s, false)
  | _ => (s, false)

/-- Message `id` is kept no more. -/
def State.dropMsg (s : State) (id : Nat) : State := { s with doorMsgs := s.doorMsgs.filter fun m => m.id != id }
def State.updMsg (s : State) (m : DoorMsg) : State := { s with doorMsgs := s.doorMsgs.map fun x => if x.id = m.id then m else x }

/-- A closed message that has not left is sent when it can be; an ACK, and a message of another room that is passed on, is then kept no more. -/
def State.trySend (s : State) (m : DoorMsg) : State :=
  if !m.closed || m.sent then s
  else
    match s.putMsg m with
    | (s, true) =>
      let s := s.incReg Reg.doorMsgsSent 1
      if m.kind = 4 || m.srcHouse != s.house then s.dropMsg m.id else s.updMsg { m with sent := true }
    | (s, false) => s

/-- A message closes (R405): one that is acknowledged takes the next sequence number to its room, and RESET where one is due. -/
def State.closeMsg (s : State) (m : DoorMsg) : State :=
  if m.closed then s
  else if m.kind = 4 then
    let m := { m with closed := true }
    (s.updMsg m).trySend m
  else
    let key := doorKey m.house m.room m.engine
    let seq := Tbl.get 0 s.doorSeq key + 1
    let m := { m with closed := true, seq := seq % 2 ^ 32, reset := s.doorReset.contains key }
    let s := { s with doorSeq := Tbl.set 0 s.doorSeq key seq, doorReset := s.doorReset.filter (· != key) }
    (s.updMsg m).trySend m

/-- A new message. -/
def State.newMsg (s : State) (engine house room srcRoom kind : Nat) (cells : List Cell) : State × DoorMsg :=
  let m : DoorMsg := ⟨s.nextMsg, engine, house, room, s.house, srcRoom, kind, 0, false, cells, 0, 0, false, false, false, none⟩
  ({ s with doorMsgs := s.doorMsgs ++ [m], nextMsg := s.nextMsg + 1 }, m)

/-- A request for another house is packed into the open message of its issuing room for its destination (R405, R406), a MSG cell into a UNIT
message; a request of another room that a kept message already contains is not packed again. -/
def State.packDoor (s : State) (c : Cell) : State :=
  let e := doorEngineOf (bits (s.houseRoute s.activeB c.dstHouse) 8 0)
  let kind := if c.ty = 4 then 3 else 0
  let again := fun (d : Cell) => d.srcHouse == c.srcHouse && d.srcRoom == c.srcRoom && d.tag == c.tag && d.pass == c.pass && d.ty == c.ty
  if s.doorMsgs.any fun m => m.cells.any again then s
  else
    let mine := fun (m : DoorMsg) =>
      !m.closed && m.engine == e && m.house == c.dstHouse && m.room == c.dstRoom && m.srcRoom == c.srcRoom && m.kind == kind
    let (s, m) : State × DoorMsg := match s.doorMsgs.find? mine with
      | some m => (s, m)
      | none => s.newMsg e c.dstHouse c.dstRoom c.srcRoom kind []
    let m := { m with cells := m.cells ++ [c] }
    let s := s.updMsg m
    if 511 ≤ m.cells.length then s.closeMsg m else s

/-! ## Combining of reads (R379) -/

/-- Two LOADs may be combined. -/
def combines (a b : Cell) : Bool :=
  a.ty == 0 && b.ty == 0 && a.dstHouse == b.dstHouse && a.dstRoom == b.dstRoom && a.addr == b.addr && a.len == b.len && a.epoch == b.epoch &&
  !a.retry && !b.retry

/-- A LOAD that reaches the crossbar of fabric die `die` is absorbed by a combining opened within the last 64 ns; the Bool says so. -/
def State.absorb (s : State) (die : Nat) (c : Cell) : State × Bool :=
  let open_ := fun (b : Comb) => b.die == die && decide (s.now ≤ b.t0 + 64) && (match b.members with | m :: _ => combines m c | [] => false)
  if !s.flag Reg.fabCtl 0 then (s, false)
  else
    match s.combs.find? open_ with
    | none => (s, false)
    | some b =>
      (({ s with combs := s.combs.map fun x => if x = b then { b with members := b.members ++ [c] } else x }).incReg Reg.fabReadsCombined 1, true)

/-- Fabric die `die` can open a combining: it holds fewer than 4,096 (R379). -/
def State.combRoom (s : State) (die : Nat) : Bool := decide ((s.combs.filter fun b => b.die == die).length < 4096)

/-- A combining is opened by a LOAD that goes on under tag `t`, where its die can open one. -/
def State.openComb (s : State) (die t : Nat) (c : Cell) : State :=
  if c.ty = 0 && !c.retry && s.flag Reg.fabCtl 0 && s.combRoom die then
    { s with combs := s.combs ++ [⟨die, s.now, t, [c]⟩] }
  else s

/-! ## Requests (R373) -/

/-- Two requests of one requester to one line of one room keep their order, unless both are LOADs or both EATOMICs
(R397). -/
def ordered (a b : Cell) : Bool :=
  a.dstHouse == b.dstHouse && a.dstRoom == b.dstRoom && a.addr / 128 == b.addr / 128 && decide (a.ty ≤ 3) && decide (b.ty ≤ 3) &&
  !(a.ty == b.ty && (a.ty == 0 || a.ty == 3))

/-- RETRY_US has not passed since tag `t` was last transmitted (R373). -/
def State.tagWarm (s : State) (t : Nat) : Bool :=
  let x := Tbl.get 0 s.tagSent t
  x != 0 && decide (s.now + 1 < x + 1000 * s.fieldOf Reg.fabRetry 15 0)

/-- A tag that no outstanding request holds and that may be used again, tried from the cursor on (R373). -/
def State.freeTag (s : State) : Option Nat :=
  ((List.range (min 131072 (s.reqs.length + s.tagSent.length + 1))).map fun i => (s.nextTag + i) % 131072).find? fun t =>
    !(s.reqs.any fun r => !r.held && r.cell.tag == t) && !s.tagWarm t

/-- The request of tag `t` is transmitted now. -/
def State.noteSent (s : State) (t : Nat) : State := { s with tagSent := Tbl.set 0 s.tagSent t (s.now + 1) }

/-- A room of this house is marked dead (R399). -/
def State.roomDead (s : State) (r : Nat) : Bool := s.flag Reg.fabRoomDead r

/-- A request takes a tag, toggles its PASS, and is sent when an output is free (R373, R382). One for another house goes to
the door engine of R364. -/
def State.launchReq (s : State) (r : Req) : State × Req :=
  match s.freeTag with
  | none => (s, { r with held := true })
  | some t =>
    let p := !Tbl.get false s.passes t
    let c := cellSealed { r.cell with tag := t, pass := p, epoch := s.activeB }
    let s := { s with nextTag := (t + 1) % 131072, passes := Tbl.set false s.passes t p }
    let r := { r with cell := c, held := false }
    if c.dstHouse = s.house then
      match s.absorb 0 c with
      | (s, true) => (s.noteSent t, { r with sent := true })
      | (s, false) =>
        match s.inject housePorts [] c with
        | (s, none) => (s.openComb 0 t c, r)
        | (s, some _) => ((s.openComb 0 t c).noteSent t, { r with sent := true })
    else
      match s.way s.activeB c.dstHouse c.dstRoom with
      | .door => ((s.packDoor c).noteSent t, { r with door := true })
      | _ =>
        match s.inject housePorts [] c with
        | (s, none) => (s, r)
        | (s, some _) => (s.noteSent t, { r with sent := true })

/-- How a request ends at its requester. -/
inductive Answer where
  | data (bs : List Byte) (bad : Bool)
  | done
  | refused (status : Nat)
  | dead
  deriving DecidableEq, Repr

/-- A remote access of a core has got all its answers: an SLD or AMO takes its value, a store is over; a TLOAD waits for its
own completion, and a program's text for the start of its LAUNCH, or is dropped where that waits no more. -/
def State.coreAnswered (s : State) (k : Nat) (a : Access) : State :=
  if a.left ≠ 0 then s.setCore k ((s.core k).update a)
  else
    match a.kind with
    | .tload => if a.refused then s.accessOver k a 0 else s.setCore k ((s.core k).update a)
    | .prog =>
      if (s.core k).run.isNone && ((s.core k).queue.head?.any fun q => q.1 == a.num) then s.setCore k ((s.core k).update a)
      else s.setCore k ((s.core k).without a.id)
    | .sld => s.accessOver k a (leNat ((List.range a.size).map fun i => cellByte a.got (a.addr + i)))
    | .amo => s.accessOver k a (if a.bad then 2 ^ 64 - 1 else leNat ((List.range (amoWidth a.sub)).map fun i => cellByte a.got (a.addr + i)))
    | _ => s.accessOver k a 0

/-! ## Messages of units -/

/-- Room `r` of house `h` has been found dead (R322, R400, R415): so the rounds and the reductions of which it is a member take it, and its
acknowledgements count as received. -/
def State.peerLost (s : State) (h r : Nat) : State :=
  let add := fun (l : List (Nat × Nat)) => if l.contains (h, r) then l else l ++ [(h, r)]
  { s with
    exchs := s.exchs.map fun x => if x.peers.contains (h, r) then { x with dead := add x.dead } else x
    reds := s.reds.map fun x => if x.members.contains (h, r) then { x with dead := add x.dead } else x
    slots := s.slots.map fun e => if e.2.opcode = 6 then (e.1, { e.2 with addrs := e.2.addrs ++ [mkAddr h r 0] }) else e
    services := s.services.map fun x => { x with slots := x.slots.map fun v => { v with answers := v.answers.filter fun a => a.2 != (h, r) } } }

/-- The bytes of a route record (R306). -/
def Route.bytes (r : Route) (layer gen : Nat) : List Byte :=
  leBytes 4 r.token ++ leBytes 1 r.rank ++ leBytes 1 (b2n r.excess + 2 * b2n r.fwd + 4 * b2n r.brow + 8 * b2n r.bwd) ++ leBytes 2 gen ++
  leBytes 2 r.house ++ leBytes 1 r.room ++ leBytes 1 r.slot ++ leBytes 4 r.row ++ leBytes 4 r.weight ++ leBytes 2 layer ++ leBytes 2 0 ++
  leBytes 4 r.handle ++ leBytes 4 0

/-- A route record of the round at entry `e` is written (R306). -/
def State.putRoute (s : State) (e : Nat) (r : Route) : State :=
  let x := Tbl.get Round.none s.rounds e
  let s := { s with rounds := Tbl.set Round.none s.rounds e { x with
    routes := if x.routes.any (fun (q : Route) => q.idx == r.idx) then x.routes.map (fun (q : Route) => if q.idx = r.idx then r else q)
      else x.routes ++ [r] } }
  s.memWrite 6 (s.reg Reg.sluRrBase + 32 * r.idx) (r.bytes x.layer x.gen)

/-- The entry of a round's that is open. -/
def State.roundOf (s : State) (layer gen : Nat) : Option Nat :=
  (s.rounds.find? fun e => e.2.layer == layer && e.2.gen == gen && e.2.state != 0).map Prod.fst

/-- The answer of a request takes effect at the requester (R392, R396, R400). -/
def State.answer (s : State) (r : Req) (x : Answer) : State :=
  match r.who with
  | .core k id =>
    match (s.core k).outs.find? fun a => a.id == id with
    | none => s
    | some a =>
      let a := { a with left := a.left - 1 }
      let base := mkAddr r.cell.dstHouse 0 r.cell.addr
      let load := r.cell.ty == 0 || r.cell.ty == 2
      match x with
      | .data bs bad =>
        s.coreAnswered k { a with got := a.got ++ bs.zipIdx.map (fun e => (base + e.2, e.1)), bad := a.bad || bad }
      | .done => s.coreAnswered k a
      | .refused _ => s.coreAnswered k { a with refused := true }
      | .dead => s.coreAnswered k { a with bad := a.bad || load }
  | .slot id =>
    let v := s.slot id
    match x with
    | .refused st => s.setSlot id (if st = 0x13 then { v with cancelled := true } else { v with refused := true })
    | .dead => s.setSlot id { v with dead := true }
    | .data bs bad =>
      if bad then s.setSlot id { v with dead := true }
      else
        let base := mkAddr r.cell.dstHouse 0 r.cell.addr
        s.setSlot id { v with got := v.got ++ bs.zipIdx.map (fun e => (base + e.2, e.1)) }
    | .done => s
  | .unit _ => (match x with | .dead => s.peerLost r.cell.dstHouse r.cell.dstRoom | _ => s)
  | .msg n =>
    match x with
    | .dead => s.peerLost r.cell.dstHouse r.cell.dstRoom
    | .refused st =>
      if st = 0x13 then
        match s.kept.find? fun m => m.num == n with
        | some m => if (s.slot m.slot).stage = .started then s.setSlot m.slot { s.slot m.slot with cancelled := true, stage := .ended 0x13 0 } else s
        | none => s
      else s
    | _ => s
  | .comb => s

/-- R542: a request for another house whose entry is not valid in its own room is not sent: it counts, and its record names the house. -/
def State.unreachable (s : State) (c : Cell) : Bool :=
  c.dstHouse != s.house && s.way s.activeB c.dstHouse c.dstRoom = .miss

/-- The record of a request that ends as to a dead target (R401, R542). -/
def State.deadRecord (s : State) (c : Cell) : State := s.raise 0x20 0 14 0 (mkAddr c.dstHouse c.dstRoom (c.addr % 2 ^ 41)) (c.tag % 2 ^ 17)

/-- Where a request's requester sits: a core, the unit of a descriptor, or a fabric die. -/
def State.seatOf (s : State) (who : Requester) : UnitSeat :=
  match who with
  | .core k _ => .comp (k / 16)
  | .slot i => (s.slot i).seat
  | .unit u => .fab (u % 4)
  | _ => .fab 0

/-- R17 leaves a request no way from its requester to the fabric die it would leave by. -/
def State.reqCut (s : State) (r : Req) : Bool :=
  let u := s.seatOf r.who
  !s.pkgDown.isEmpty &&
  match s.way s.activeB r.cell.dstHouse (if r.cell.dstHouse = s.house then s.firstHop r.cell else r.cell.dstRoom) with
  | .port p => s.roomCut u (portDie p)
  | .door => s.roomCut u (doorEngineOf (bits (s.houseRoute s.activeB r.cell.dstHouse) 8 0))
  | _ => (List.range 4).all (s.roomCut u)

/-- R505: the door engine that a request for another house is routed to is disabled. -/
def State.doorOff (s : State) (c : Cell) : Bool :=
  c.dstHouse != s.house && s.way s.activeB c.dstHouse c.dstRoom = .door &&
  s.unitOff (76 + doorEngineOf (bits (s.houseRoute s.activeB c.dstHouse) 8 0))

/-- Two requests are one requester's: a core's, whichever its access (R397). -/
def Requester.same (a b : Requester) : Bool :=
  match a, b with
  | .core j _, .core k _ => j == k
  | _, _ => a = b

/-- Held requests that nothing earlier blocks any more are launched, in order. -/
def State.releaseReqs : Nat → State → State
  | 0, s => s
  | n + 1, s =>
    let i := s.reqs.length - (n + 1)
    match s.reqs[i]? with
    | none => s
    | some r =>
      if r.held && !((s.reqs.take i).any fun q => q.who.same r.who && ordered q.cell r.cell) then
        if (r.cell.dstHouse = s.house && s.roomDead r.cell.dstRoom) || s.reqCut r then
          State.releaseReqs n ((({ s with reqs := s.reqs.eraseIdx i }).incReg Reg.fabTimeouts 1).answer r .dead)
        else if s.unreachable r.cell then
          State.releaseReqs n ((((({ s with reqs := s.reqs.eraseIdx i }).incReg Reg.fabRouteMiss 1).incReg Reg.fabTimeouts 1).deadRecord
            r.cell).answer r .dead)
        else if s.doorOff r.cell then State.releaseReqs n (({ s with reqs := s.reqs.eraseIdx i }).answer r (.refused 0x13))
        else
          let (s, r) := s.launchReq r
          State.releaseReqs n { s with reqs := s.reqs.set i r }
      else State.releaseReqs n s

/-- The outstanding request at index `i` of the tracker ends. -/
def State.endReq (s : State) (i : Nat) (x : Answer) : State :=
  match s.reqs[i]? with
  | none => s
  | some r =>
    let s := ({ s with reqs := s.reqs.eraseIdx i }).answer r x
    s.releaseReqs s.reqs.length

/-- The unit that a request names as its source (R360, R362): a Sluice or a collective engine; 0 for the others, whose responses go to the
tracker. -/
def State.srcUnit (s : State) (who : Requester) : Nat :=
  match who with
  | .slot i => if (s.slot i).opcode = 5 then 1 + (s.slot i).ctx / 8 % 4 else if (s.slot i).opcode = 6 then 5 + (s.slot i).ctx / 8 % 4 else 0
  | .unit u => u - 67
  | .msg n => ((s.kept.find? fun m => m.num == n).map Kept.unit).getD 0
  | _ => 0

/-- A request of `who` is made. One for a room that R399 has marked dead completes without being sent (R400). -/
def State.request (s : State) (who : Requester) (ty h r unit aux addr weight len : Nat) (payload : List Byte) : State :=
  let c : Cell :=
    { dstHouse := h, dstRoom := r, dstUnit := unit, srcHouse := s.house, srcRoom := s.room, srcUnit := s.srcUnit who, hops := 0,
      spills := 0, ty := ty, old := false, epoch := s.activeB, retry := false, pass := false, tag := 0, len := len - 1,
      aux := aux, addr := addr % 2 ^ 46, weight := weight, payload := payload, e2e := 0 }
  let q : Req := ⟨c, who, true, false, false⟩
  let s := { s with reqs := s.reqs ++ [q] }
  s.releaseReqs 1

/-- The lines a byte range spans: (address, length) of each part within one 128-byte line (R395). -/
def lineParts (a n : Nat) : List (Nat × Nat) :=
  (unitsOf 128 a n).map fun u => (max u a, min (u + 128) (a + n) - max u a)

/-- LOAD requests for a range of another room; STORE requests carrying bytes there. -/
def State.loadRange (s : State) (who : Requester) (a n : Nat) : State :=
  (lineParts a n).foldl (fun s p => s.request who 0 (aHouse a) (aRoom a) 0 0 p.1 0 p.2 []) s

def State.storeRange (s : State) (who : Requester) (a : Nat) (bs : List Byte) : State :=
  (lineParts a bs.length).foldl
    (fun s p => s.request who 1 (aHouse a) (aRoom a) 0 0 p.1 0 p.2 ((bs.drop (p.1 - a)).take p.2)) s

/-- A message of a unit goes from unit `unit` to the unit of that number in room `r` of house `h` (R361, R362, R406); within the room it needs no cell. The spec gives what it says and not
its bytes. -/
def State.sendUnit (s : State) (who : Requester) (unit h r : Nat) (b : UnitBody) : State :=
  if h = s.house && r = s.room then { s with loop := s.loop ++ [b] }
  else
    let (f, s) := s.takeFree
    let n := f % 128 + 1
    ({ s with out := s.out ++ [Out.unit h r b] }).request who 4 h r unit 0 0 0 n (leBytes n (f / 128))

/-- A message that may be refused for retry is sent and kept. -/
def State.sendKept (s : State) (unit slot h r : Nat) (b : UnitBody) : State :=
  let m : Kept := ⟨s.nextKept, h, r, unit, slot, s.now, b⟩
  ({ s with kept := s.kept ++ [m], nextKept := s.nextKept + 1 }).sendUnit (.msg m.num) unit h r b

/-- Kept messages that satisfy `p` are kept no more. -/
def State.dropKept (s : State) (p : Kept → Bool) : State := { s with kept := s.kept.filter fun m => !p m }

/-- A message from this room itself is taken off its way; one from another room is as the command brings it. The Bool says that it has come. -/
def State.takeLoop (s : State) (h r : Nat) (b : UnitBody) : State × Bool :=
  if h = s.house && r = s.room then ({ s with loop := s.loop.erase b }, s.loop.contains b) else (s, true)

/-- A message is refused for retry (R281, R308, R312, R423): its sender learns so. -/
def State.refuseMsg (s : State) (h r : Nat) (b : UnitBody) (empty : Bool) : State :=
  if h = s.house && r = s.room then s else { s with out := s.out ++ [.again h r b empty] }

end Sys2Proof.Machine
end

