-- ==== Sys2Proof/Machine/Flags.lean ====
section
/-! DEFINITION. The events and counts that go with a result (R48, R255): conversions, saturations and flushes by type, and
the writing of a tile of values into a handle with its roundings and block scales (R55, R56, R66, R112). -/

namespace Sys2Proof.Machine

/-- How many events of one kind are in a list. -/
def evCount (e : Ev) (l : List (Nat × Ev)) : Nat := (l.filter fun x => x.2 = e).length

/-- R255: the elements a rounding wrote into type `t`, with their events. -/
def State.countConv (s : State) (t : EType) (l : List (Nat × Ev)) : State :=
  ((s.incReg (Reg.rngConv t.code) l.length).incReg (Reg.rngSat t.code) (evCount .sat l)).incReg
    (Reg.rngFlush t.code) (evCount .flush l)

/-- The inputs of R77 for a result: seed, salt, stream and position base. -/
structure SrIn where
  seed : Nat
  salt : Nat
  stream : Nat
  pos : Nat
  deriving DecidableEq, Repr

/-- The random value of the element with linear index `i`. -/
def SrIn.at (r : SrIn) (i : Nat) : Nat := rand16 r.seed r.salt r.stream (r.pos + i)

/-- Element (i, j) of rows of values; +0 beyond their ends. -/
def cellOf (vs : List (List FVal)) (i j : Nat) : FVal := (vs.getD i []).getD j (.zero false)

/-- The block scales for a tile of values, in the order of the scale plane (R61, R62, R66). -/
def tileScales (t : EType) (b : Block) (c? : Option Nat) (rows cols : Nat) (vs : List (List FVal)) : List Nat :=
  (List.range (b.planeBytes rows cols)).map fun n =>
    (writeBlock t .rne false c? ((b.cells rows cols n).map fun p => (cellOf vs p.1 p.2, 0))).scale

/-- One element under its block's scale: a block of scale 0xFF writes zero codes and counts no event (R67). -/
def blockElem (t : EType) (mode : Rnd) (e5inf : Bool) (c r : Nat) (v : FVal) : Nat × Ev :=
  if c = 255 then (0, .none) else (codesUnder t mode e5inf c [(v, r)]).headD (0, .none)

/-- The codes and events of a tile of values in type `t` and block shape `b`, row by row. -/
def tileCodes (t : EType) (b : Block) (mode : Rnd) (e5inf : Bool) (sr : SrIn) (scales : List Nat) (rows cols : Nat)
    (vs : List (List FVal)) : List (List (Nat × Ev)) :=
  (List.range rows).map fun i =>
    (List.range cols).map fun j =>
      let v := cellOf vs i j
      let r := if mode = .sr then sr.at (i * cols + j) else 0
      if b.scaled then blockElem t mode e5inf (scales.getD (b.scaleIx cols i j) 0) r v else t.conv mode e5inf r v

/-- A tile of values is rounded into a handle's type, written with its scale plane, and counted. The events come back for
counts kept elsewhere. -/
def State.writeTile (s : State) (h : Handle) (mode : Rnd) (sr : SrIn) (c? : Option Nat) (vs : List (List FVal)) :
    State × List (Nat × Ev) :=
  let scales := tileScales h.ty h.block c? h.rows h.cols vs
  let codes := tileCodes h.ty h.block mode false sr scales h.rows h.cols vs
  let s := s.putRows h 0 (codes.map fun r => r.map Prod.fst)
  let s := if scales.isEmpty then s else s.memWrite 1 h.scale (scales.map (BitVec.ofNat 8))
  (s.countConv h.ty codes.flatten, codes.flatten)

/-- The value element (i, j) of a handle reads as, after a tile was written (R90). -/
def State.yout (s : State) (h : Handle) (i j : Nat) : FVal := s.elemVal h i j

end Sys2Proof.Machine
end

