-- ==== Sys2Proof/Machine/Array.lean ====
section
/-! DEFINITION. The matrix array (04_matrix_array.md): issue of MMA (R98–R108, R128, R133, R142, R195, R225), its result (R109–R113,
R226–R227), its timing counters (R101–R103, R121), and the choice and capture of an MX dip (R85–R87). -/

namespace Sys2Proof.Machine

/-! ## Geometry of a product -/

/-- Rank of an array type among the rates of R69. -/
def EType.rank : EType → Nat
  | .fp4 => 0
  | .e4m3 | .e5m2 => 1
  | .bf16 | .fp16 => 2
  | .hf19 => 3
  | _ => 4

/-- The slower operand's rank; it is the dip format class of R84's table too. -/
def pairRank (a b : EType) : Nat := max a.rank b.rank

/-- K_w, cycles per streamed row and stationary load of a pair (R100). -/
def kWidth (rank : Nat) : Nat := [512, 256, 128, 128, 128].getD rank 128
def rowCycles (rank : Nat) : Nat := [1, 1, 1, 2, 6].getD rank 1
def loadCycles (rank : Nat) : Nat := [128, 128, 128, 128, 256].getD rank 128

/-- Ld and r of one operand by type and reading (R194). -/
def ldOf (t : EType) (across : Bool) : Nat :=
  match t with
  | .fp4 => if across then 256 else 128
  | .hf19 => if across then 256 else 128
  | .fp32 => if across then 512 else 256
  | _ => 128
def rOf (t : EType) (across : Bool) : Nat :=
  match t with
  | .hf19 => if across then 4 else 2
  | .fp32 => if across then 12 else 6
  | _ => 1

/-- ⌈log₂ n⌉. -/
def clog2 (n : Nat) : Nat := if n ≤ 1 then 0 else (n - 1).log2 + 1

/-- M, N, K, and the fields of an MX word (R133, R142). -/
structure MxShape where
  m : Nat
  n : Nat
  k : Nat
  k2 : Nat
  deriving DecidableEq, Repr

def mxShape (w : Nat) (a b : Handle) : MxShape :=
  { m := if bit w 35 then a.cols else a.rows, k := if bit w 35 then a.rows else a.cols,
    k2 := if bit w 34 then b.cols else b.rows, n := if bit w 34 then b.rows else b.cols }

/-- The rate of streaming and loading an instruction gets (R104). -/
def mxLd (w : Nat) (a b : Handle) : Nat := max (loadCycles (pairRank a.ty b.ty)) (ldOf b.ty (bit w 34))
def mxR (w : Nat) (a b : Handle) : Nat := max (rowCycles (pairRank a.ty b.ty)) (rOf a.ty (bit w 35))

/-- Passes (R100), streamed rows (R101), bytes of partial pool (R106). -/
def mxPasses (w : Nat) (a b : Handle) : Nat := cdiv (mxShape w a b).k (kWidth (pairRank a.ty b.ty))
def mxRows (w : Nat) (a b : Handle) : Nat := roundUp (mxShape w a b).m 16
def mxPool (w : Nat) (a b : Handle) : Nat := clog2 (mxPasses w a b) * 0x10000

/-- A handle is tile-aligned (R195). -/
def Handle.tileAligned (h : Handle) : Bool := h.base % 128 == 0 && h.pitch % 128 == 0

/-! ## Issue -/

/-- The cause of the program fault an MMA with these operands is, none where it is legal (R98, R104, R105, R132, R133, R195,
R225; the pool of R128 apart). What makes it an illegal instruction comes before its handle errors (log 52). -/
def State.mmaCause (s : State) (k w : Nat) (a b d : Handle) : Option Nat :=
  let x := mxShape w a b
  let cis := inCistern k d.base
  let dt := EType.ofCode (bits w 31 28)
  if bit w 0 || bits w 24 23 = 3 || dt.isNone || (Block.ofCode (bits w 27 25)).isNone then some 1
  else if !a.ty.isArray || !b.ty.isArray then some 1
  else if 128 < x.m || 128 < x.n || 16384 < x.k then some 1
  else if bit w 35 && (a.ty = .fp4 || a.block = .mx || !a.tileAligned) then some 1
  else if (!bit w 34 && b.block = .mx) || (bit w 34 && !b.tileAligned) then some 1
  else if cis && (!s.cisOpen k || bits w 24 23 ≠ (if s.flag (Reg.cisStatus k) 1 then 0 else 2) || dt ≠ some .fp32 || bits w 27 25 ≠ 0) then some 1
  else if inCistern k a.base || inCistern k b.base then some 2
  else if x.k ≠ x.k2 then some 2
  else if (if bit w 32 then decide (d.rows ≠ x.n ∨ d.cols ≠ x.m) else decide (d.rows ≠ x.m ∨ d.cols ≠ x.n)) then some 2
  else if dt ≠ some d.ty || bits w 27 25 ≠ d.block.code || !d.ty.isArray || (d.ty = .fp4 && d.block = .none) then some 2
  else none

/-- The registers an MMA reads: seed, salt and position only under SR (R142); a Cistern result takes seed and salt from the
accumulation (R226). -/
def mmaRegs (w : Nat) (cis : Bool) : List Nat :=
  if bits w 24 23 = 2 then (if cis then [] else [bits w 14 10, bits w 9 5]) ++ [32 + bits w 4 1] else []

/-- R85: the instruction with count `n` is the one sampled in its period of 2^`rate`: which one is given by the value of R76 at
the period's first count. -/
def State.sampled (s : State) (k rate n : Nat) : Bool :=
  let first := n / 2 ^ rate * 2 ^ rate
  n - first == rand16 (s.reg Reg.dipSeed) k 0xFFFF first % 2 ^ rate

/-- The dip sampler of core `k` takes dips (R93–R95). -/
def State.dipOn (s : State) (k : Nat) : Bool :=
  s.flag Reg.dipCtl 0 && !s.flag Reg.dipStatus 0 && !s.flag Reg.dipStatus (16 + k / 16)

/-- The partial pool the instructions in the array hold. -/
def Core.poolUsed (c : Core) : Nat :=
  (c.mxq.map fun f => match f.ta, f.tb with | some a, some b => mxPool f.word a.2 b.2 | _, _ => 0).sum

/-- An MX instruction waits under a hold from now on (R121). -/
def State.noteHeld (s : State) (k : Nat) : State :=
  let c := s.core k
  if s.mxHeld k && c.heldAt.isNone then s.setCore k { c with heldAt := some (s.cycles k) } else s

/-- The cycles of a pass, and the cycles of it in which rows stream (R101, R102). -/
def mxPass (w : Nat) (a b : Handle) : Nat := max (mxRows w a b * mxR w a b) (mxLd w a b)
def mxStream (w : Nat) (a b : Handle) : Nat := mxRows w a b * mxR w a b

/-- R102: the cycle at which the rows of an instruction issued in cycle `now` enter, and the cycles in which no row enters because its first load has
not ended; `run` is the instruction that runs. -/
def mxEnters (now : Nat) (w : Nat) (a b : Handle) (run : Option Flight) : Nat × Nat :=
  let ld := mxLd w a b
  match run with
  | none => (now + ld, ld)
  | some f =>
    match f.ta, f.tb with
    | some (_, x), some (_, y) =>
      let swap := f.since + (mxPasses f.word x y - 1) * mxPass f.word x y
      let load := max now swap
      (max (swap + mxPass f.word x y) (load + ld), load + ld - max load (swap + mxStream f.word x y))
    | _, _ => (now + ld, ld)

/-- The MMA enters the array (R102, R106, R108), with the dip it gives rise to (R85, R86). -/
def State.mmaGo (s : State) (k w : Nat) : State :=
  let s := s.endHeld k
  let c := s.core k
  let n := c.mxn
  let take := s.dipOn k && (c.forceMx || s.sampled k (s.fieldOf Reg.dipCtl 7 4) n)
  let enters := mxEnters (s.cycles k) w (c.handle (bits w 47 42)) (c.handle (bits w 41 36)) c.mxq.head?
  let f : Flight :=
    { word := w, td := some (bits w 53 48, c.handle (bits w 53 48)), ta := some (bits w 47 42, c.handle (bits w 47 42)),
      tb := some (bits w 41 36, c.handle (bits w 41 36)), tc := none, scalar := 0, seed := c.get (bits w 14 10),
      salt := c.get (bits w 9 5) % 2 ^ 32, pos := c.get (32 + bits w 4 1), rd := none, cold := false, amax := 0,
      sample := if take then some (c.dipn, n) else none, launch := (c.run.map Run.launch).getD 0,
      since := enters.1, loadWait := enters.2 }
  let s := if c.mxq.isEmpty then s.incReg (Reg.arrayIdle k) (s.cycles k - c.idleAt) else s
  (s.setCore k { c with
    mxq := c.mxq ++ [f], mxn := n + 1, dipn := if take then c.dipn + 1 else c.dipn, forceMx := if take then false else c.forceMx }).issued k (c.pc + 1)

/-- MMA (R106, R142): waits at issue until its conditions hold. -/
def execMma (k : Fin 256) (s : State) : Host.Outcome State Fault Refusal :=
  .next (s.issue k 3 0 fun w s =>
    let c := s.core k
    let a := c.handle (bits w 47 42)
    let b := c.handle (bits w 41 36)
    let d := c.handle (bits w 53 48)
    let ready := ((c.readable (bits w 47 42)).and (c.readable (bits w 41 36))).and
      ((c.writable (bits w 53 48)).and (if bit w 33 then c.readable (bits w 53 48) else .ok))
    if bit w 0 || bits w 24 23 = 3 then s.progFault k 1 w
    else if a.st = .free || b.st = .free || d.st = .free then s.progFault k 2 w
    else
      match s.mmaCause k w a b d with
      | some cause => s.progFault k cause w
      | none =>
        let pool := ((c.run.map Run.banks).getD 0) * 0x40000
        if pool < mxPool w a b then s.progFault k 3 w
        else
          match ready with
          | .illegal => s.progFault k 2 w
          | .wait => s.hold k
          | .ok =>
            if c.anyPend (mmaRegs w (inCistern k d.base)) then s.hold k
            else if pool < c.poolUsed + mxPool w a b then s.hold k
            else if 2 ≤ c.mxq.length then s.holdEngine k
            else if s.mxHeld k then (s.noteHeld k).holdEngine k
            else s.mmaGo k w)

/-! ## The product (R109–R112) -/

/-- The HF19 high part and residual of an FP32 operand (R83); other operands are whole. -/
def hfSplit (t : EType) (x : FVal) : FVal × FVal :=
  if t = .fp32 then
    let h := EType.val .hf19 (EType.conv .hf19 .rtz true 0 x).1
    (h, EType.val .hf19 (EType.rne .hf19 (x.sub h)))
  else (x, .zero false)

/-- R109: the product of a pair of elements, by three passes where one is FP32 (R83). -/
def mxProduct (ta tb : EType) (x y : FVal) : FVal :=
  if ta = .fp32 || tb = .fp32 then
    match x, y with
    | .nan, _ => .nan
    | _, .nan => .nan
    | .inf _, _ => v32 (Sys2Proof.Config.threePassInf (fl x) (fl y))
    | _, .inf _ => v32 (Sys2Proof.Config.threePassInf (fl x) (fl y))
    | _, _ =>
      let a := hfSplit ta x
      let b := hfSplit tb y
      ((a.1.mul b.1).add (a.1.mul b.2)).add (a.2.mul b.1)
  else x.mul y

/-- Pairs the neighbours of one level of a tree, left operand first. -/
def pairUp {α : Type} (f : α → α → α) : List α → List α
  | a :: b :: r => f a b :: pairUp f r
  | l => l

/-- A fixed pairwise tree (R111): levels are formed until one node is left. -/
def treeSum {α : Type} (f : α → α → α) (z : α) : Nat → List α → α
  | 0, l => l.headD z
  | n + 1, l =>
    match l with
    | [] => z
    | [a] => a
    | l => treeSum f z n (pairUp f l)

/-- Consecutive runs of `n` elements. -/
def chunks {α : Type} (n : Nat) : Nat → List α → List (List α)
  | 0, _ => []
  | f + 1, l => if l.isEmpty then [] else l.take n :: chunks n f (l.drop n)

/-- An exact sum; a sum of zeros is −0 only where every term is (R52). -/
def exactSum : List FVal → FVal
  | [] => .zero false
  | x :: xs => xs.foldl FVal.add x

/-- R110, R111: the root for the products of one output element: groups of 32 summed exactly and rounded to FP32, then the
tree of rounded sums. -/
def mxRoot (ps : List FVal) : FVal :=
  let groups := (chunks 32 ps.length ps).map fun g => flv (exactSum g)
  treeSum (fun a b => flv (a.add b)) (.zero false) groups.length groups

/-- The operand elements of output element (m, n): products' factors in order of K. -/
def State.mxFactors (s : State) (w : Nat) (a b : Handle) (m n : Nat) : List (FVal × FVal) :=
  (List.range (mxShape w a b).k).map fun i =>
    (if bit w 35 then s.elemVal a i m else s.elemVal a m i, if bit w 34 then s.elemVal b n i else s.elemVal b i n)

/-- The root of output element (m, n). -/
def State.mxElem (s : State) (w : Nat) (a b : Handle) (m n : Nat) : FVal :=
  mxRoot ((s.mxFactors w a b m n).map fun p => mxProduct a.ty b.ty p.1 p.2)

/-- The stored place of output element (m, n), and back, under `d_trans` (R99). -/
def mxStored (w m n : Nat) : Nat × Nat := if bit w 32 then (n, m) else (m, n)

/-- The roots in stored order. -/
def State.mxRoots (s : State) (w : Nat) (a b d : Handle) : List (List FVal) :=
  (List.range d.rows).map fun i =>
    (List.range d.cols).map fun j => let p := mxStored w i j; s.mxElem w a b p.1 p.2

/-- D0 of the stored element (i, j) (R99). -/
def State.mxOld (s : State) (w : Nat) (d : Handle) (i j : Nat) : FVal :=
  if bit w 33 then s.elemVal d i j else .zero false

/-- The inputs of R77 for an MX result outside the Cistern. -/
def Flight.mxSr (f : Flight) : SrIn := ⟨f.seed, f.salt, bits f.word 22 15, f.pos⟩

/-- R226: the random value of a stored element in the Cistern. -/
def State.cisRand (s : State) (k : Nat) (f : Flight) (i j : Nat) : Nat :=
  rand16 (s.reg (Reg.cisSeed k)) (s.fieldOf (Reg.cisStatus k) 63 48) (s.reg (Reg.cisStream k) + bits f.word 22 15)
    (bits f.pos 47 0 + i * bits f.pos 63 48 + j)

/-- What an MX instruction writes: the state with the destination written, and the FP32 result y of each stored
element (R112, R226–R228). -/
def State.mxWrite (s : State) (k : Nat) (f : Flight) (a b d : Handle) : State × List (List FVal) :=
  let roots := s.mxRoots f.word a b d
  if inCistern k d.base then
    if d.pair then
      let ps := roots.zipIdx.map fun r => r.1.zipIdx.map fun x =>
        if bit f.word 33 then pairAdd (s.elem d r.2 x.2) (s.elemLo d r.2 x.2) x.1 else pairAdd 0 0 x.1
      -- a conversion into FP32 for each element; one whose hi overflows saturates (R48, R255)
      let evs := ps.flatMap fun r => r.map fun p => (p.1, if (v32 p.1).isFin || (v32 p.1).isNan then Ev.none else Ev.sat)
      (((s.putPairRows d 0 ps).countConv .fp32 evs).incReg (Reg.cisMxAdds k) 1,
        ps.map fun r => r.map fun p => flv (pairVal p))
    else
      let cs := roots.zipIdx.map fun r => r.1.zipIdx.map fun x =>
        EType.conv .fp32 .sr true (s.cisRand k f r.2 x.2) ((s.mxOld f.word d r.2 x.2).add x.1)
      (((s.putRows d 0 (cs.map fun r => r.map Prod.fst)).countConv .fp32 cs.flatten).incReg (Reg.cisMxAdds k) 1,
        cs.map fun r => r.map fun c => v32 c.1)
  else
    let ys := roots.zipIdx.map fun r => r.1.zipIdx.map fun x => flv ((s.mxOld f.word d r.2 x.2).add x.1)
    ((s.writeTile d ((Rnd.ofCode (bits f.word 24 23)).getD .rne) f.mxSr none ys).1, ys)

/-! ## Dips of MX instructions (R86, R87) -/

/-- The columns dip `n` checks (R86). -/
def dipCols (n cols : Nat) : List Nat :=
  let c := n % 32
  (if c < cols then [c] else [c % cols]) ++ [c + 32, c + 64, c + 96].filter (· < cols)

/-- The checked elements of an MX dip: operands and old value from `s`, which holds the memory before the instruction; the
narrowed value from `t`, which holds it after. -/
def State.mxDip (s t : State) (k : Nat) (f : Flight) (a b d : Handle) (ys : List (List FVal)) (n count : Nat) : Dip :=
  let x := mxShape f.word a b
  let row := rand16 (s.reg Reg.dipSeed) k 0xFFFF count % x.m
  { core := k, launch := f.launch, cls := pairRank a.ty b.ty,
    cells := (dipCols n x.n).map fun col =>
      let st := mxStored f.word row col
      let old := s.mxOld f.word d st.1 st.2
      let ps := (s.mxFactors f.word a b row col).map fun p => p.1.mul p.2
      { row := row, col := col, y := fl (cellOf ys st.1 st.2),
        w := ps.foldl (fun w p => fl64 (w.add p)) (fl64 old),
        amag := ps.foldl (fun w p => fl64 (w.add p.abs)) (fl64 old.abs),
        yout := if inCistern k d.base || (d.ty = .fp32 && !d.block.scaled) then none else some (t.yout d st.1 st.2) } }

/-! ## Completion -/

/-- Array counters of one instruction (R101–R103, R121): rows streamed and padded, and the cycles in which its first load and those of its later
passes held the rows back. -/
def State.mxCounts (s : State) (k : Nat) (f : Flight) (a b : Handle) : State :=
  let p := mxPasses f.word a b
  let rows := mxRows f.word a b
  (((s.incReg (Reg.arrayMxDone k) 1).incReg (Reg.arrayStream k) (p * mxStream f.word a b)).incReg (Reg.arrayPad k)
    (p * (rows - (mxShape f.word a b).m))).incReg (Reg.arrayLoad k)
      (f.loadWait + (p - 1) * (mxPass f.word a b - mxStream f.word a b))

/-- A handle an instruction wrote becomes RESIDENT (R130). -/
def State.resident (s : State) (k n : Nat) : State :=
  let c := s.core k
  if (c.handle n).st = .free then s else s.setCore k (c.setHandle n { c.handle n with st := .resident })

/-- MX_COMPLETE (R109–R113): the instruction at the head of core `k`'s array completes and writes its result; the other of
the two, if any, runs on (R102). -/
def execMxComplete (k : Fin 256) (s : State) : Host.Outcome State Fault Refusal :=
  match (s.core k).mxq with
  | [] => .next s
  | f :: rest =>
    match f.ta, f.tb, f.td with
    | some (_, a), some (_, b), some (n, d) =>
      let bad := s.handleBad a || s.handleBad b || (bit f.word 33 && s.handleBad d)
      let s1 := (s.handleNotes a).handleNotes b
      let s1 := if bit f.word 33 then s1.handleNotes d else s1
      let (t, ys) := s1.mxWrite k f a b d
      let t := match f.sample with
        | none => t
        | some (dn, count) => { t with dips := t.dips ++ [s1.mxDip t k f a b d ys dn count] }
      let t := if bad then t.markDead f.launch else t
      let c := t.core k
      let t := t.setCore k { c with mxq := rest, idleAt := if rest.isEmpty then t.cycles k else c.idleAt }
      .next ((((t.mxCounts k f a b).resident k n).instrDone k).settle k)
    | _, _, _ => .next s

end Sys2Proof.Machine
end

