-- ==== Sys2Proof/Machine/Loads.lean ====
section
/-! DEFINITION. The load and landing class (R138–R141, R347), the arrival of values (R125), and TWAIT, FENCE and TQPOP
(R145, R153). -/

namespace Sys2Proof.Machine

/-! ## Scalar accesses -/

/-- Address of a scalar access: ra + `imm32` (R138). -/
def Core.effAddr (c : Core) (w : Nat) : Nat := (c.get (bits w 47 42) + imm64 w) % 2 ^ 64

/-- An access of the instruction that core `k` has just issued is outstanding; one to another room goes out as requests (R395). -/
def State.startAccess (s : State) (k : Nat) (a : Access) (send : State → Requester → State) : State :=
  let c := s.core k
  let a := { a with
    id := c.nextId, remote := !(s.isLocal a.addr) && a.kind ≠ .tqpop, pc := c.pc - 1, word := (Tbl.get 0 c.prog (c.pc - 1)).toNat }
  let s := s.setCore k { c with nextId := c.nextId + 1, outs := c.outs ++ [a] }
  if a.remote then send s (.core k a.id) else s

/-- An access with only what a scalar access needs. -/
def scalarAccess (kind : AKind) (addr size num sub data cmp : Nat) : Access :=
  ⟨0, kind, addr, size, num, sub, data, cmp, Handle.none, 0, 0, false, 1, [], false, false, 0, 0⟩

/-- A scalar access of class 2: reserved fields (`ok`), pending registers, alignment (cause 0x04), reach (cause 0x05), then
the access is outstanding and its register, if it writes one, pends. -/
def State.scalarAcc (s : State) (k op : Nat) (ok : Nat → Bool) (regs : Nat → List Nat) (size : Nat → Nat) (t : Touch)
    (mk : Core → Nat → Nat → Access) (dest : Bool) (send : Access → State → Requester → State) : State :=
  s.issue k 2 op fun w s =>
    let c := s.core k
    if !(ok w) then s.progFault k 1 w
    else if c.anyPend (regs w) then s.hold k
    else
      let a := c.effAddr w
      if a % size w ≠ 0 then s.progFault k 4 w
      else if !s.coreMay t true a (size w) then s.progFault k 5 w
      else
        let x := mk c w a
        let s := s.issued k (c.pc + 1)
        let s := if dest then s.pendReg k x.num else s
        s.startAccess k x (send x)

/-- SLD (R138). -/
def execSld (k : Fin 256) (s : State) : Host.Outcome State Fault Refusal :=
  .next (s.scalarAcc k 0
    (fun w => regOk (bits w 53 48) && regOk (bits w 47 42) && bits w 41 36 == 0 && !bit w 35)
    (fun w => [bits w 53 48, bits w 47 42]) (fun w => 2 ^ bits w 33 32) .load
    (fun _ w a => scalarAccess .sld a (2 ^ bits w 33 32) (bits w 53 48) (bits w 35 32) 0 0) true
    (fun x s r => s.loadRange r x.addr x.size))

/-- SST (R138). -/
def execSst (k : Fin 256) (s : State) : Host.Outcome State Fault Refusal :=
  .next (s.scalarAcc k 1
    (fun w => bits w 53 48 == 0 && regOk (bits w 47 42) && regOk (bits w 41 36) && bits w 35 34 == 0)
    (fun w => [bits w 47 42, bits w 41 36]) (fun w => 2 ^ bits w 33 32) .store
    (fun c w a => scalarAccess .sst a (2 ^ bits w 33 32) 0 0 (c.get (bits w 41 36)) 0) false
    (fun x s r => s.storeRange r x.addr (leBytes x.size x.data)))

/-- An AMO with code `sub` (R138, R347): the row of another code leaves the instruction alone. -/
def State.amo (s : State) (k sub : Nat) : State :=
  if bits ((Tbl.get 0 (s.core k).prog (s.core k).pc).toNat) 35 32 ≠ sub then s
  else
    s.scalarAcc k 2
      (fun w => regOk (bits w 53 48) && regOk (bits w 47 42) && regOk (bits w 41 36))
      (fun w => [bits w 53 48, bits w 47 42, bits w 41 36]) (fun _ => amoWidth sub) .amo
      (fun c w a => scalarAccess .amo a (amoWidth sub) (bits w 53 48) sub (c.get (bits w 41 36)) (c.get (bits w 53 48)))
      true
      (fun x s r => s.request r 2 (aHouse x.addr) (aRoom x.addr) 0 x.sub x.addr 0 16 (leBytes 8 x.data ++ leBytes 8 x.cmp))

/-- AMO_SWAP (R347). -/
def execAmoSwap (k : Fin 256) (s : State) : Host.Outcome State Fault Refusal := .next (s.amo k 0)

/-- AMO_CAS (R347). -/
def execAmoCas (k : Fin 256) (s : State) : Host.Outcome State Fault Refusal := .next (s.amo k 1)

/-- AMO_ADD (R347). -/
def execAmoAdd (k : Fin 256) (s : State) : Host.Outcome State Fault Refusal := .next (s.amo k 2)

/-- AMO_AND (R347). -/
def execAmoAnd (k : Fin 256) (s : State) : Host.Outcome State Fault Refusal := .next (s.amo k 3)

/-- AMO_OR (R347). -/
def execAmoOr (k : Fin 256) (s : State) : Host.Outcome State Fault Refusal := .next (s.amo k 4)

/-- AMO_XOR (R347). -/
def execAmoXor (k : Fin 256) (s : State) : Host.Outcome State Fault Refusal := .next (s.amo k 5)

/-- AMO_SMAX (R347). -/
def execAmoSmax (k : Fin 256) (s : State) : Host.Outcome State Fault Refusal := .next (s.amo k 6)

/-- AMO_SMIN (R347). -/
def execAmoSmin (k : Fin 256) (s : State) : Host.Outcome State Fault Refusal := .next (s.amo k 7)

/-- AMO_UMAX (R347). -/
def execAmoUmax (k : Fin 256) (s : State) : Host.Outcome State Fault Refusal := .next (s.amo k 8)

/-- AMO_UMIN (R347). -/
def execAmoUmin (k : Fin 256) (s : State) : Host.Outcome State Fault Refusal := .next (s.amo k 9)

/-- AMO_ADD32 (R347). -/
def execAmoAdd32 (k : Fin 256) (s : State) : Host.Outcome State Fault Refusal := .next (s.amo k 10)

/-- AMO_CAS32 (R347). -/
def execAmoCas32 (k : Fin 256) (s : State) : Host.Outcome State Fault Refusal := .next (s.amo k 11)

/-- AMO_FADD32 (R347). -/
def execAmoFadd32 (k : Fin 256) (s : State) : Host.Outcome State Fault Refusal := .next (s.amo k 12)

/-- AMO_FADD32X2 (R347). -/
def execAmoFadd32x2 (k : Fin 256) (s : State) : Host.Outcome State Fault Refusal := .next (s.amo k 13)

/-- AMO_FMAX32 (R347). -/
def execAmoFmax32 (k : Fin 256) (s : State) : Host.Outcome State Fault Refusal := .next (s.amo k 14)

/-- AMO_FADD16X4 (R347). -/
def execAmoFadd16x4 (k : Fin 256) (s : State) : Host.Outcome State Fault Refusal := .next (s.amo k 15)

/-- PENDING_VALUE_ARRIVES (R125): the `i`-th outstanding access of core `k`, a local one that no earlier one of the core
holds back, is performed at its home. TLOADs end by their own row. -/
def execPendingValueArrives (k : Fin 256) (i : Nat) (s : State) : Host.Outcome State Fault Refusal :=
  match (s.core k).outs[i]? with
  | none => .next s
  | some a =>
    if a.remote || a.kind = .tload || (s.core k).mustWait a then .next s else .next (s.perform k a)

/-! ## Handles -/

/-- The own area a byte range of a handle lies in wholly (R129): the core's scratch below the partial pool, its Landing
or its Cistern. -/
def ownArea (k banks o n : Nat) : Bool :=
  (decide (scratchBase k ≤ o) && decide (o + n ≤ scratchBase k + (48 - banks) * 0x40000)) ||
  (decide (landingBase k ≤ o) && decide (o + n ≤ landingBase k + 0x100000)) ||
  (decide (cisternBase k ≤ o) && decide (o + n ≤ cisternBase k + 0x1000000))

/-- The handle a TDEF would bind (R129, R139, R222): none where R129 or R222 is broken. -/
def tdefHandle (k banks : Nat) (pairMode : Bool) (baseOk planeOk : Bool) (base shape plane keep : Nat) (t : EType)
    (b : Block) : Option Handle :=
  let rows := bits shape 13 0 + 1
  let cols := bits shape 29 16 + 1
  let pitch := bits shape 63 32
  let cis := inCistern k base
  let h : Handle :=
    ⟨if keep = 1 then .resident else .allocated, base, rows, cols, pitch, t, b, if b.scaled then plane else 0,
      cis && pairMode⟩
  if bits shape 15 14 ≠ 0 || bits shape 31 30 ≠ 0 then none
  else if !t.blockOk b.scaled then none
  else if !baseOk || base % 32 ≠ 0 || pitch % 32 ≠ 0 || decide (pitch < h.rowBytes) then none
  else if !ownArea k banks base (rows * pitch) then none
  else if b.scaled && (!planeOk || !ownArea k banks plane h.planeBytes) then none
  else if cis && (t ≠ .fp32 || b.scaled) then none
  else some h

/-- TDEF (R129, R131, R139). -/
def execTdef (k : Fin 256) (s : State) : Host.Outcome State Fault Refusal :=
  .next (s.issue k 2 8 fun w s =>
    let c := s.core k
    let im := bits w 31 0
    if !(aregOk (bits w 47 42) && regOk (bits w 41 36) && bits w 35 32 == 0 && bits im 31 14 == 0 && regOk (bits im 13 8)) then
      s.progFault k 1 w
    else
      match EType.ofCode (bits im 3 0), Block.ofCode (bits im 6 4) with
      | some t, some b =>
        if c.anyPend ([bits w 47 42, bits w 41 36] ++ if b.scaled then [bits im 13 8] else []) then s.hold k
        else if (c.handle (bits w 53 48)).st ≠ .free then s.progFault k 2 w
        else
          let base := c.get (bits w 47 42)
          let plane := c.get (bits im 13 8)
          match tdefHandle k ((c.run.map Run.banks).getD 0) (s.flag (Reg.cisStatus k) 1) (s.isLocal base) (s.isLocal plane)
              (aOff base) (c.get (bits w 41 36)) (aOff plane) (bits im 7 7) t b with
          | none => s.progFault k 2 w
          | some h => (s.setCore k (c.setHandle (bits w 53 48) h)).retire k
      | _, _ => s.progFault k 1 w)

/-- TREL (R131): waits while the handle is busy, then makes it FREE. -/
def execTrel (k : Fin 256) (s : State) : Host.Outcome State Fault Refusal :=
  .next (s.issue k 2 9 fun w s =>
    let c := s.core k
    if bits w 47 0 ≠ 0 then s.progFault k 1 w
    else if c.busy (bits w 53 48) then s.hold k
    else (s.setCore k (c.setHandle (bits w 53 48) Handle.none)).retire k)

/-- Fields of a TLOAD or TSTORE hold no reserved value (R138). -/
def tmoveOk (w : Nat) : Bool :=
  regOk (bits w 47 42) && regOk (bits w 41 36) && bits w 35 32 == 0 && bits w 31 6 == 0 && regOk (bits w 5 0)

/-- The access of a TLOAD or TSTORE of handle `h` (R140). -/
def Core.tmove (c : Core) (kind : AKind) (w : Nat) (h : Handle) : Access :=
  let a : Access :=
    ⟨0, kind, c.get (bits w 47 42), 0, bits w 53 48, 0, 0, 0, h, bits (c.get (bits w 41 36)) 31 0, c.get (bits w 5 0), false,
      0, [], false, false, 0, 0⟩
  { a with left := (a.parts.map fun p => (lineParts p.1 p.2).length).sum }

/-- Registers a TLOAD or TSTORE reads: the scale-plane register only for a block-scaled handle. -/
def tmoveRegs (w : Nat) (h : Handle) : List Nat :=
  [bits w 47 42, bits w 41 36] ++ if h.block.scaled then [bits w 5 0] else []

/-- TLOAD (R138, R140, R224). -/
def execTload (k : Fin 256) (s : State) : Host.Outcome State Fault Refusal :=
  .next (s.issue k 2 10 fun w s =>
    let c := s.core k
    let n := bits w 53 48
    let h := c.handle n
    if !tmoveOk w then s.progFault k 1 w
    else if c.anyPend (tmoveRegs w h) then s.hold k
    else
      match c.writable n with
      | .illegal => s.progFault k 2 w
      | .wait => s.hold k
      | .ok =>
        if inCistern k h.base && !s.cisOpen k then s.progFault k 1 w
        else
          let a := c.tmove .tload w h
          if !(a.parts.all fun p => s.coreMay .load false p.1 p.2) then s.progFault k 5 w
          else
            let s := s.setCore k (c.setHandle n { h with st := .loading })
            (s.issued k (c.pc + 1)).startAccess k a fun s r => a.parts.foldl (fun s p => s.loadRange r p.1 p.2) s)

/-- TLOAD_COMPLETE (R130, R140, R141): the TLOAD into handle `h` has all its data, or has timed out; the handle becomes
RESIDENT. -/
def execTloadComplete (k : Fin 256) (h : Fin 64) (s : State) : Host.Outcome State Fault Refusal :=
  match (s.core k).outs.find? fun a => a.kind = .tload && a.num == h.val with
  | none => .next s
  | some a =>
    if (s.core k).mustWait a then .next s
    else if a.remote then
      if a.left ≠ 0 then .next s
      else .next ((s.tloadWrite k a fun f n => (List.range n).map fun i => cellByte a.got (f + i)).accessOver k a 0)
    else .next (s.perform k a)

/-- The bytes a TSTORE sends, one list for each part. -/
def State.tstoreBytes (s : State) (h : Handle) : List (List Byte) := h.parts.map fun o => s.memBytes o.1 o.2

/-- TSTORE (R138, R140, R221): copies the handle out. -/
def execTstore (k : Fin 256) (s : State) : Host.Outcome State Fault Refusal :=
  .next (s.issue k 2 11 fun w s =>
    let c := s.core k
    let n := bits w 53 48
    let h := c.handle n
    if !tmoveOk w then s.progFault k 1 w
    else if c.anyPend (tmoveRegs w h) then s.hold k
    else
      match c.readable n with
      | .illegal => s.progFault k 2 w
      | .wait => s.hold k
      | .ok =>
        let a := c.tmove .tstore w h
        if !(a.parts.all fun p => s.coreMay .store false p.1 p.2) then s.progFault k 5 w
        else
          let bad := s.handleBad h
          (s.issued k (c.pc + 1)).startAccess k { a with bad := bad && !s.isLocal a.addr } fun s r =>
            let s := if inCistern k h.base then s.incReg (Reg.cisStored k) (h.rows * h.rowBytes) else s
            ((a.parts.zip (s.tstoreBytes h)).foldl (fun t (f, bs) => t.storeRange r f.1 bs) (s.handleNotes h)))

/-- TZERO (R138, R224, R231): +0 in every element, scale 0x00 in every block; the handle becomes RESIDENT. -/
def execTzero (k : Fin 256) (s : State) : Host.Outcome State Fault Refusal :=
  .next (s.issue k 2 12 fun w s =>
    let c := s.core k
    let n := bits w 53 48
    let h := c.handle n
    if bits w 47 0 ≠ 0 then s.progFault k 1 w
    else
      match c.writable n with
      | .illegal => s.progFault k 2 w
      | .wait => s.hold k
      | .ok =>
        if inCistern k h.base && !s.cisOpen k then s.progFault k 1 w
        else
          let s := h.parts.foldl (fun s o => s.memWrite 1 o.1 (List.replicate o.2 0)) s
          (s.setCore k ((s.core k).setHandle n { h with st := .resident })).retire k)

/-! ## TWAIT, FENCE, TQPOP -/

/-- The fields of a SYNC word hold no reserved value (R145). -/
def syncOk (w : Nat) : Bool :=
  bits w 41 36 == 0 && bits w 34 32 == 0 && regOk (bits w 47 42) && (!bit w 35 || bits w 31 16 == 0)

/-- TWAIT (R145): until the handle is RESIDENT and not busy. -/
def execTwait (k : Fin 256) (s : State) : Host.Outcome State Fault Refusal :=
  .next (s.issue k 6 9 fun w s =>
    let c := s.core k
    let n := bits w 53 48
    if !syncOk w then s.progFault k 1 w
    else if (c.handle n).st = .resident && !c.busy n then s.retire k
    else s.noteWait k .sync)

/-- FENCE (R145): until every SLD, SST, AMO, TLOAD and TSTORE the core issued earlier has completed. -/
def execFence (k : Fin 256) (s : State) : Host.Outcome State Fault Refusal :=
  .next (s.issue k 6 8 fun w s =>
    let c := s.core k
    if !syncOk w then s.progFault k 1 w
    else if c.outs.all fun a => a.kind = .tqpop then s.retire k
    else s)

/-- TQPOP (R145, R153): rd pends until the index arrives. -/
def execTqpop (k : Fin 256) (s : State) : Host.Outcome State Fault Refusal :=
  .next (s.issue k 6 12 fun w s =>
    let c := s.core k
    let f := bits w 53 48
    if !(syncOk w && regOk f) then s.progFault k 1 w
    else if c.anyPend [f] then s.hold k
    else ((s.issued k (c.pc + 1)).pendReg k f).startAccess k (scalarAccess .tqpop 0 0 f 0 0 0) fun s _ => s)

end Sys2Proof.Machine
end

