-- ==== Sys2Proof/Machine/SyncOps.lean ====
section
/-! DEFINITION. Semaphore and event instructions (R145–R149): their issue, and their application at the Larder. -/

namespace Sys2Proof.Machine

/-- The object number of a SYNC word (R145). -/
def Core.syncObj (c : Core) (w : Nat) : Nat := if bit w 35 then c.get (bits w 47 42) else bits w 31 16

/-- The registers a SYNC word names: `ra` under `IX`. -/
def syncRegs (w : Nat) : List Nat := if bit w 35 then [bits w 47 42] else []

/-- A semaphore or event instruction of operation `op` over `size` objects (R145, R146, R148): it issues, and its operation
goes to the Larder. `dest` says that it writes `rd`, `wait` that the core waits for it. -/
def State.syncIssue (s : State) (k op size : Nat) (kind : SKind) (dest wait : Bool) : State :=
  s.issue k 6 op fun w s =>
    let c := s.core k
    let rd := bits w 53 48
    if !(syncOk w && (!dest || regOk rd)) then s.progFault k 1 w
    else if c.anyPend (syncRegs w ++ if dest then [rd] else []) then s.hold k
    else if size ≤ c.syncObj w then s.progFault k 6 w
    else
      let op : SyncOp := ⟨kind, c.syncObj w, bits w 15 0, rd, c.nextId⟩
      let s := s.issued k (c.pc + 1)
      let s := if dest then s.pendReg k rd else s
      let c := s.core k
      let s := s.setCore k { c with syncs := c.syncs ++ [op], inSync := wait }
      if wait then s.noteWait k .sync else s

/-- SEMWAIT (R145). -/
def execSemwait (k : Fin 256) (s : State) : Host.Outcome State Fault Refusal :=
  .next (s.syncIssue k 0 4096 .semwait false true)

/-- SEMSIG (R145). -/
def execSemsig (k : Fin 256) (s : State) : Host.Outcome State Fault Refusal :=
  .next (s.syncIssue k 1 4096 .semsig false false)

/-- SEMTRY (R145). -/
def execSemtry (k : Fin 256) (s : State) : Host.Outcome State Fault Refusal :=
  .next (s.syncIssue k 2 4096 .semtry true false)

/-- EVWAIT (R145). -/
def execEvwait (k : Fin 256) (s : State) : Host.Outcome State Fault Refusal :=
  .next (s.syncIssue k 4 1024 .evwait false true)

/-- EVSET (R145). -/
def execEvset (k : Fin 256) (s : State) : Host.Outcome State Fault Refusal :=
  .next (s.syncIssue k 5 1024 .evset false false)

/-- EVCLR (R145). -/
def execEvclr (k : Fin 256) (s : State) : Host.Outcome State Fault Refusal :=
  .next (s.syncIssue k 6 1024 .evclr false false)

/-- Every store the core issued before the access numbered `n` is complete (R148). -/
def Core.storesBefore (c : Core) (n : Nat) : Bool :=
  c.outs.all fun a => !(decide (a.id < n) && (a.kind = .sst || a.kind = .tstore || a.kind = .amo))

/-- SEMTRY at the Larder (R147): it never takes ahead of a waiter. -/
def State.semTry (s : State) (o n : Nat) : State × Bool :=
  if (s.sync.waiters o).isEmpty && decide (n ≤ s.sync.sem o) then
    ({ s with sync := s.sync.setSem o (s.sync.sem o - n) }, true)
  else (s, false)

/-- One semaphore or event operation of core `k` takes effect (R147). -/
def State.applySync (s : State) (k : Nat) (o : SyncOp) : State :=
  match o.kind with
  | .semwait => s.semWait o.obj (.core k o.n)
  | .semsig =>
    let (s, sat) := s.semSignal o.obj o.n
    (s.incReg (Reg.coreSyncOverflows k) (b2n sat)).instrDone k
  | .semtry =>
    let (s, ok) := s.semTry o.obj o.n
    (s.putReg k o.rd (b2n ok)).instrDone k
  | .evwait => s.eventWait o.obj (.core k 0)
  | .evset => (s.eventSet o.obj).instrDone k
  | .evclr => (s.eventClear o.obj).instrDone k

/-- SYNC_OP_APPLY (R147, R148): the Larder applies the next semaphore or event operation of core `k`, in the order of issue,
once the stores issued before it are visible. -/
def execSyncOpApply (k : Fin 256) (s : State) : Host.Outcome State Fault Refusal :=
  match (s.core k).syncs with
  | [] => .next s
  | o :: rest =>
    if (s.core k).storesBefore o.after then
      let s := s.setCore k { s.core k with syncs := rest }
      .next ((s.applySync k o).settle k)
    else .next s

end Sys2Proof.Machine
end

