-- ==== Sys2Proof/Machine/Desc.lean ====
section
/-! DEFINITION. Descriptors (17_host_interface.md R443–R464, R435–R436): their fetch, their start, the addresses they name and the
bytes behind them, their end and their completion records; FENCE and SIGNAL. -/

namespace Sys2Proof.Machine

/-! ## Status codes (R468) -/

abbrev stOk : Nat := 0
abbrev stClamped : Nat := 1
abbrev stPartial : Nat := 2
abbrev stCold : Nat := 3
abbrev stPoolEmpty : Nat := 0x10
abbrev stOverlap : Nat := 0x11
abbrev stSkew : Nat := 0x12
abbrev stCancelled : Nat := 0x13
abbrev stInvalid : Nat := 0x14
abbrev stDenied : Nat := 0x15
abbrev stRemote : Nat := 0x16
abbrev stDead : Nat := 0x20
abbrev stRetired : Nat := 0x22
abbrev stMismatch : Nat := 0x23

/-- Precedence of the checks made before execution (R214, R404): smaller first. -/
def checkRank (st : Nat) : Nat :=
  if st = stInvalid then 0 else if st = stRemote then 1 else if st = stDenied then 2 else if st = stOverlap then 3
  else if st = stRetired then 4 else 5

/-- The first failing check. -/
def firstBad (l : List (Option Nat)) : Option Nat :=
  (l.filterMap id).foldl (fun o x => match o with
    | none => some x
    | some y => if checkRank x < checkRank y then some x else some y) none

/-! ## Descriptor words (R451–R461) -/

/-- Reserved bits of the body words `0x10` to `0x38` of each opcode (R453–R461). -/
def reservedMasks (op : Nat) : List Nat :=
  let all := 0xFFFFFFFFFFFFFFFF
  match op with
  | 1 => [0, 0, 0x7000000000, 0xFFF80000, 0, 0xFFFFFFFF00000000]
  | 2 => [0, 0, 0, 0, 0xF000000000000000, 0xFFFF000000000000]
  | 3 => [0, 0, 0, 0xFFFFFFFFFFFFFFF8, all, all]
  | 4 => [0, 0, 0, 0, 0xFE000080, all]
  | 5 => [0xFFC0E00000000080, 0, 0, 0, 0, 0]
  | 6 => [0xFFFFFFFF0000F000, 0, 0, 0, 0, all]
  | 7 => [0, 0, 0, 0xFFFFFE0000FE0000, 0xFFFFFFFF00000000, all]
  | 8 => [0xFFFFFC00F000FFF8, 0xFFFFFFFF00000000, all, all, all, all]
  | 9 => [0xFFC0FC00F000FFE0, 0xFFFFFFFF00000000, 0, 0, all, all]
  | 10 => [all, all, all, all, all, all]
  | _ => [0xFFFFFFFFFF80F8C0, 0, 0, all, all, all]

/-- R452: the opcode is known and no reserved bit is set. -/
def Slot.valid (v : Slot) : Bool :=
  decide (1 ≤ v.opcode) && decide (v.opcode ≤ 11) && Nat.land (v.word 0) 0xFFFFF000F000F800 == 0 &&
  ((reservedMasks v.opcode).zipIdx.all fun m => Nat.land (v.word (2 + m.2)) m.1 == 0)

/-! ## Fetch (R446–R449) -/

/-- Entries of a ring between its head and its last accepted tail. -/
def State.ringWaiting (s : State) (n : Nat) : Nat :=
  let size := s.ringSize (Reg.ringCfg n)
  (s.reg (Reg.ringTail n) + size - s.fieldOf (Reg.ringHead n) 15 0) % size

/-- The words of the entry at index `i` of ring `n`. -/
def State.ringEntry (s : State) (n i : Nat) : List Nat :=
  (List.range 8).map fun w => leNat (s.hostRead (s.reg (Reg.ringBase n) + 64 * i + 8 * w) 8)

/-- One entry is fetched into a slot (R446, R449); `st` is the status it ends with at once, if any. -/
def State.fetchOne (s : State) (n : Nat) (st : Option Nat) : State :=
  let h := s.fieldOf (Reg.ringHead n) 15 0
  let cfg := Reg.ringCfg n
  let denied := !(s.owned && s.flag cfg 62)
  let v : Slot := { Slot.none with
    ring := n, ctx := 8 * s.fieldOf cfg 21 16 + s.fieldOf cfg 10 8, cq := s.fieldOf cfg 39 32, words := s.ringEntry n h,
    stage := match st with
      | some x => .ended x 0
      | none => if denied then .ended stDenied 0 else .fetched }
  ({ s.setSlot s.nextSlot v with nextSlot := s.nextSlot + 1 }).setField (Reg.ringHead n) 15 0 ((h + 1) % s.ringSize cfg)

/-- `k` entries are fetched. -/
def State.fetchMany (s : State) (n : Nat) (st : Option Nat) : Nat → State
  | 0 => s
  | k + 1 => (s.fetchOne n st).fetchMany n st k

/-- The part is in ACTIVE or IDLE, its cellar latch is clear and the root PLL is locked: its units run (R487, R491, R503). -/
def State.running (s : State) : Bool := !s.coresHeld && s.flag Reg.clkStatus 0

/-- Queue engines start descriptors: not at shed level 4 or above (R474), and not during an entry (R488). -/
def State.starts (s : State) : Bool := s.running && decide (s.fieldOf Reg.powerStatus 10 8 < 4) && s.entry.isNone

/-- The queue engines fetch (R445, R475): nothing holds them, and the link is up. -/
def State.mayFetch (s : State) : Bool := s.ready && s.linkUp && s.running && !s.flag Reg.hostStatus 4

/-- DESCRIPTOR_FETCH (R446, R448, R449): a queue engine fetches up to `n`, at most 16, of the entries of a ring. -/
def execDescriptorFetch (ring : Fin 4096) (n : Nat) (s : State) : Host.Outcome State Fault Refusal :=
  .next (if s.mayFetch && s.flag (Reg.ringCfg ring) 63 then
    s.fetchMany ring none (min (min n 16) (s.ringWaiting ring)) else s)

/-! ## Records (R462–R464) -/

/-- A completion record is written into its ring (R462, R463); it is the earliest of its cores that may be suspect where none was
written since their last passed test (R92). -/
def State.writeComp (s : State) (r : CompRec) : State :=
  let q := nextSeq (s.fieldOf Reg.hostSeq 31 0)
  let s := s.setField Reg.hostSeq 31 0 q
  let s := r.cores.foldl (fun s k =>
    let c := s.core k
    if c.suspect.isNone then s.setCore k { c with suspect := some q } else s) s
  let s := { s with ringStop := s.ringStop.filter s.ringBusy }
  (s.ringWrite (Reg.cqBase r.cq) (Reg.cqCfg r.cq) (Reg.cqTail r.cq) (Reg.cqShadow r.cq)
    (leBytes 8 r.tag ++ leBytes 4 q ++ leBytes 2 r.status ++ leBytes 2 r.info)).countIrq r.cq (Reg.cqCfg r.cq)

/-- Records held on the die are written in order, as far as their rings have free slots (R442, R464). -/
def State.flushCompsN : Nat → State → State
  | 0, s => s
  | n + 1, s =>
    let i := s.comps.length - (n + 1)
    match s.comps[i]? with
    | none => s
    | some r =>
      if s.cqFree r.cq then State.flushCompsN n (({ s with comps := s.comps.eraseIdx i }).writeComp r)
      else State.flushCompsN n s

def State.flushComps (s : State) : State := s.flushCompsN s.comps.length

/-- The status of a descriptor at its end: a refusal at a target ranks after `CANCELLED` (R392), a dead target after
`DIP_MISMATCH` (R214). -/
def Slot.final (v : Slot) (st info : Nat) : Nat × Nat :=
  if v.cancelled then (stCancelled, v.info)
  else if v.refused && st != stCancelled then (stDenied, v.info)
  else if v.dead && decide (st < 0x10) then (stDead, 0)
  else (st, info)

/-- The physical cores of a LAUNCH. -/
def State.coresOf (s : State) (i : Nat) : List Nat := (s.lrun i).cores

/-- A COLLECTIVE or an UPDATE that completes is counted, whatever its status (R437); an UPDATE with the conversions of its pieces, and one that updated
gives its step (R274). -/
def State.countDone (s : State) (v : Slot) (st : Nat) : State :=
  if v.opcode = 6 then s.incReg Reg.colDone 1
  else if v.opcode ≠ 7 then s
  else
    let s := (v.convs.foldl (fun s c =>
      ((s.incReg (Reg.rngConv c.1) c.2.1).incReg (Reg.rngSat c.1) c.2.2.1).incReg (Reg.rngFlush c.1) c.2.2.2) s).incReg Reg.updDone 1
    if st = stOk || st = stPartial then s.setReg Reg.updLastStep (v.word 4) else s

/-- A descriptor's end is recorded: its signal, then its record (R452, R463). -/
def State.finish (s : State) (i : Nat) (st info : Nat) : State :=
  let v := s.slot i
  let (st, info) := v.final st info
  let s := s.countDone v st
  let s := if bit (v.word 0) 10 && decide (st < 0x10) then (s.semSignal (bits (v.word 0) 43 32) 1).1 else s
  let r : CompRec := ⟨v.ring, v.cq, v.tag, st, info, s.coresOf i⟩
  let s := { (s.setSlot i Slot.none) with runs := Tbl.erase s.runs i }
  if s.linkUp then s.writeComp r else { s with comps := s.comps ++ [r] }

/-- Every core of the LAUNCH, or of the built-in program, in slot `i` has ended or stopped, and its dips are resolved (R91, R154). -/
def State.launchOver (s : State) (i : Nat) : Bool :=
  decide ((s.lrun i).done.length = (s.lrun i).cores.length) && s.dips.all fun d => d.launch != i

/-- DESCRIPTOR_END (R452, R463, R464): the descriptor in slot `i` has ended; once its requests are over, its cores have stopped (R158) and its ring
takes a record, its signal is given and its record written. Under the fault latch none is written (R503). -/
def execDescriptorEnd (i : Nat) (s : State) : Host.Outcome State Fault Refusal :=
  match (s.slot i).stage with
  | .ended st info =>
    .next (if !s.slotBusy i && s.launchOver i && s.cqTakes (s.slot i).cq && !s.flag Reg.fltLatch 0 then s.finish i st info else s)
  | _ => .next s

/-! ## Start (R435, R452) -/

/-- A slot takes a stage. -/
def State.setStage (s : State) (i : Nat) (g : Stage) : State := s.setSlot i { s.slot i with stage := g }

/-- A descriptor ends with a status. -/
def State.endSlot (s : State) (i st info : Nat) : State := s.setStage i (.ended st info)

/-- A waiting head whose semaphore has been taken becomes ready. -/
def State.headReady (s : State) (i : Nat) : State :=
  let v := s.slot i
  if v.stage = .waiting && v.grant then s.setSlot i { v with stage := .ready, grant := false } else s

/-- DESCRIPTOR_START (R435, R447, R452): context `ctx` takes its next descriptor; one that is not valid ends, one that waits for
its semaphore holds the context. -/
def execDescriptorStart (ctx : Fin 512) (s : State) : Host.Outcome State Fault Refusal :=
  if !s.starts then .next s
  else
    match s.slots.find? fun e => e.2.ctx == ctx.val && s.holdsCtx e.2 with
    | some (i, _) => .next (s.headReady i)
    | none =>
      match s.ctxNext ctx with
      | none => .next s
      | some i =>
        let v := s.slot i
        let s := { s with ctxTurn := Tbl.set 0 s.ctxTurn ctx (v.ring + 1) }
        if !v.valid then .next (s.endSlot i stInvalid 0)
        else if bit (v.word 0) 9 then
          .next (((s.setStage i .waiting).semWait (bits (v.word 0) 27 16) (.slot i 1)).headReady i)
        else .next (s.setStage i .ready)

/-- The descriptor in slot `i` is ready and has opcode `op`; one that has begun goes on at shed level 4 (R476). -/
def State.opReady (s : State) (i op : Nat) : Bool :=
  (s.slot i).stage = .ready && (s.slot i).opcode == op && (s.starts || (s.running && ((s.slot i).step != 0 || !(s.slot i).asks.isEmpty)))

/-! ## Addresses of descriptors (R335, R389–R391, R443, R444) -/

/-- R335, R391, R404, R443, R444: what ends a command whose descriptor reads `n` bytes at `a`; `host` says that the role may name
host memory. -/
def State.readBad (s : State) (host : Bool) (a n : Nat) : Option Nat :=
  if n = 0 then none
  else if isHost a then (if !host then some stInvalid else if s.hostAdmits a n false then none else some stDenied)
  else if aHouse a ≠ s.house then some stRemote
  else if !s.outAdmits a n .read || decide (s.rooms ≤ aRoom a) then some stDenied
  else if s.isLocal a && !s.mappedMem (aOff a) n then some stDenied
  else none

/-- The range lies in the GEOM block of the set-up aperture, where a job's write is ignored (R26). -/
def inGeom (a n : Nat) : Bool := decide (0x1D000000000 ≤ aOff a) && decide (aOff a + n ≤ 0x1D000100000)

/-- The range begins in a Cistern. -/
def inSomeCistern (a : Nat) : Bool := match regionOf (aOff a) with | some (.cistern _) => true | _ => false

/-- The same for a write; a Cistern is written by its own core alone, whichever room it is in (R221, R335). -/
def State.writeBad (s : State) (host : Bool) (a n : Nat) : Option Nat :=
  if n = 0 then none
  else if isHost a then (if !host then some stInvalid else if s.hostAdmits a n true then none else some stDenied)
  else if !s.outAdmits a n .write || (s.inHouse a && decide (s.rooms ≤ aRoom a)) || inSomeCistern a then some stDenied
  else if s.isLocal a && !inGeom a n && !s.mappedMem (aOff a) n then some stDenied
  else none

/-- A byte a descriptor reads: host memory, this room's memory, or what its LOADs have brought from another room; the error value where none
came, or where R17 leaves no way (R71, R400, R444). -/
def State.descByte (s : State) (v : Slot) (a : Nat) : Byte :=
  if isHost a then
    (if s.hostCut v.seat || v.badHost.any fun r => decide (r.1 ≤ bits a 45 0) && decide (bits a 45 0 < r.1 + r.2) then 0xFF
     else s.hostByte (bits a 45 0))
  else if s.isLocal a then (if s.reachCut v.seat (aOff a) then 0xFF else s.memByte (aOff a))
  else cellByte v.got a

/-- `n` bytes, and the little-endian number they hold. -/
def State.descBytes (s : State) (v : Slot) (a n : Nat) : List Byte := (List.range n).map fun i => s.descByte v (a + i)
def State.descNat (s : State) (v : Slot) (a n : Nat) : Nat := leNat (s.descBytes v a n)

/-- R17 leaves the unit of a descriptor no way to some byte of a range of this room or of the host. -/
def State.rangeCut (s : State) (v : Slot) (a n : Nat) : Bool :=
  !s.pkgDown.isEmpty &&
  if isHost a then s.hostCut v.seat else s.isLocal a && (unitsOf 64 (aOff a) n).any (s.reachCut v.seat)

/-- A read of the range gives the error value somewhere: `TARGET_DEAD` (R400, R444, R499). -/
def State.descDead (s : State) (v : Slot) (a n : Nat) : Bool :=
  if isHost a then s.rangeCut v a n || v.badHost.any fun r => decide (r.1 < bits a 45 0 + n) && decide (bits a 45 0 < r.1 + r.2)
  else if s.isLocal a then s.rangeCut v a n || s.rangeBad (aOff a) n
  else (List.range n).any fun i => !(v.got.any fun c => c.1 == a + i)

/-- What reading the range does beside giving bytes: counters and records of local memory. Reads of other rooms are requests of their own. -/
def State.descNotes (s : State) (kind a n : Nat) : State := if !isHost a && s.isLocal a then s.readNotes kind (aOff a) n else s

/-- An access of slot `i` has met no way under R17: it counts, and the command completes as to a dead target. -/
def State.slotCut (s : State) (i : Nat) : State := (s.setSlot i { s.slot i with dead := true }).incReg Reg.fabTimeouts 1

/-- Bytes a descriptor writes: host memory, this room's memory, or requests to another room. What R17 leaves no way to is not written. -/
def State.descWrite (s : State) (i kind a : Nat) (bs : List Byte) : State :=
  let v := s.slot i
  if isHost a then (if s.hostCut v.seat then s.slotCut i else s.hostStore (bits a 45 0) bs)
  else if s.isLocal a then
    if s.rangeCut v a bs.length then
      (unitsOf 64 (aOff a) bs.length).foldl
        (fun t u =>
          let lo := max u (aOff a)
          let hi := min (u + 64) (aOff a + bs.length)
          if t.reachCut v.seat u then t.slotCut i else t.memWrite kind lo ((bs.drop (lo - aOff a)).take (hi - lo))) s
    else s.memWrite kind (aOff a) bs
  else s.storeRange (.slot i) a bs

/-! ## Descriptors and tables read once (R182, R263, R265, R395) -/

/-- The bytes of a range that the queue engine has read. -/
def Slot.tab (v : Slot) (a n : Nat) : Option (List Byte) := (v.tabs.find? fun t => t.1 == a && t.2.length == n).map Prod.snd

/-- The queue engine reads a range for slot `i`, once: at once in this room and the host, by LOADs in another room of the house. A range in which a
read gives the error value is not had. -/
def State.fetchTab (s : State) (i a n : Nat) : State :=
  let v := s.slot i
  if v.asks.contains (a, n) then s
  else
    let s := s.setSlot i { v with asks := v.asks ++ [(a, n)] }
    if isHost a || s.isLocal a then
      let t := s.descNotes 3 a n
      if s.descDead v a n then t else t.setSlot i { t.slot i with tabs := (t.slot i).tabs ++ [(a, s.descBytes v a n)] }
    else s.loadRange (.slot i) a n

/-- The ranges asked for that LOADs have brought whole become tables. -/
def Slot.takeGot (v : Slot) : Slot :=
  if v.got.isEmpty then v
  else
    let new := v.asks.filter fun r => (v.tab r.1 r.2).isNone && (List.range r.2).all fun j => v.got.any fun c => c.1 == r.1 + j
    { v with tabs := v.tabs ++ new.map fun r => (r.1, (List.range r.2).map fun j => cellByte v.got (r.1 + j)), got := [] }

/-- While the link is down, accesses to host memory are held (R442): those of one of these ranges. -/
def State.hostHeld (s : State) (l : List (Nat × Nat)) : Bool := !s.linkUp && l.any fun r => isHost r.1 && r.2 != 0

/-- The ranges are read; the Bool says that nothing is outstanding for the slot. -/
def State.fetchTabs (s : State) (i : Nat) (l : List (Nat × Nat)) : State × Bool :=
  if s.hostHeld (l.filter fun r => !(s.slot i).asks.contains r) then (s, false) else
  let s := l.foldl (fun s r => s.fetchTab i r.1 r.2) s
  if s.slotBusy i then (s, false) else (s.setSlot i (s.slot i).takeGot, true)

/-- LOADs for the ranges that lie in other rooms of the house, issued in order. -/
def State.loadAll (s : State) (i : Nat) (l : List (Nat × Nat)) : State :=
  l.foldl (fun s r => if r.2 = 0 || !s.inHouse r.1 || s.isLocal r.1 then s else s.loadRange (.slot i) r.1 r.2) s

/-! ## FENCE and SIGNAL (R459, R460) -/

/-- A FENCE's next condition is looked at (R459): 0 DRAIN, 1 and 2 EVENT, 3 and 4 SEM, 5 all hold. -/
def State.fenceStep (s : State) (i : Nat) : State :=
  let v := s.slot i
  let w := v.word 2
  let go := fun (s : State) (n : Nat) => s.setSlot i { s.slot i with step := n, grant := false }
  match v.step with
  | 0 => if bit w 0 && s.earlier i then s else go s 1
  | 1 => if bit w 2 then (go s 2).eventWait (bits w 41 32) (.slot i 0) else go s 3
  | 2 => if v.grant then go s 3 else s
  | 3 => if bit w 1 then (go s 4).semWait (bits w 27 16) (.slot i (bits (v.word 3) 31 0)) else go s 5
  | 4 => if v.grant then go s 5 else s
  | _ => s

/-- FENCE_DESCRIPTOR (R459): the FENCE in slot `i` goes on as far as its conditions hold, and ends when they all have. -/
def execFenceDescriptor (i : Nat) (s : State) : Host.Outcome State Fault Refusal :=
  if !s.opReady i 8 then .next s
  else
    let s := ((((s.fenceStep i).fenceStep i).fenceStep i).fenceStep i).fenceStep i
    .next (if (s.slot i).step = 5 then s.endSlot i stOk 0 else s)

/-- The actions of a SIGNAL after its write (R460). -/
def State.signalRest (s : State) (i : Nat) : State :=
  let v := s.slot i
  let w := v.word 2
  let s := s.endSlot i stOk 0
  let s := if bit w 0 then (s.semSignal (bits w 27 16) (bits (v.word 3) 31 0)).1 else s
  let s := if bit w 1 then s.eventSet (bits w 41 32) else if bit w 2 then s.eventClear (bits w 41 32) else s
  if bit w 4 then s.raiseVec (bits w 53 48) else s

/-- SIGNAL (R460): acts once every earlier descriptor of its context has completed: its write, and once that is visible the rest;
a write that was refused or met a dead room ends it. -/
def execSignal (i : Nat) (s : State) : Host.Outcome State Fault Refusal :=
  let v := s.slot i
  if !s.opReady i 9 || s.earlier i || s.slotBusy i || (bit (v.word 2) 3 && v.step = 0 && s.hostHeld [(v.word 4, 8)]) then .next s
  else if v.step = 1 then .next (if v.refused || v.dead then s.endSlot i stOk 0 else s.signalRest i)
  else if bit (v.word 2) 1 && bit (v.word 2) 2 then .next (s.endSlot i stInvalid 0)
  else
    match if bit (v.word 2) 3 then s.writeBad true (v.word 4) 8 else none with
    | some st => .next (s.endSlot i st 0)
    | none =>
      let s := if bit (v.word 2) 3 then s.descWrite i 3 (v.word 4) (leBytes 8 (v.word 5)) else s
      .next (if s.slotBusy i then s.setSlot i { s.slot i with step := 1 } else s.signalRest i)

end Sys2Proof.Machine
end

