-- ==== Sys2Proof/Machine/Measure.lean ====
section
/-! DEFINITION. Measurements (20_boot_and_security.md R516, R520, R521): SHAKE256, the eight measurement registers, and the changes of
protections that register 4 records. -/

namespace Sys2Proof.Machine

/-! ## SHAKE256

PRESUMED: FIPS 202, which R516 names, gives the function; the spec does not restate it. -/

/-- Rotation of a 64-bit lane to the left. -/
def rotl (w n : Nat) : Nat := w * 2 ^ n % 2 ^ 64 + w / 2 ^ (64 - n)

/-- Rotation offsets of lane x + 5y. -/
def kRot : List Nat := [0, 1, 62, 28, 27, 36, 44, 6, 55, 20, 3, 10, 43, 25, 39, 41, 45, 15, 21, 8, 18, 2, 61, 56, 14]

/-- Round constants. -/
def kRound : List Nat :=
  [0x0000000000000001, 0x0000000000008082, 0x800000000000808A, 0x8000000080008000, 0x000000000000808B, 0x0000000080000001] ++
  [0x8000000080008081, 0x8000000000008009, 0x000000000000008A, 0x0000000000000088, 0x0000000080008009, 0x000000008000000A] ++
  [0x000000008000808B, 0x800000000000008B, 0x8000000000008089, 0x8000000000008003, 0x8000000000008002, 0x8000000000000080] ++
  [0x000000000000800A, 0x800000008000000A, 0x8000000080008081, 0x8000000000008080, 0x0000000080000001, 0x8000000080008008]

/-- Lane (x, y) of a sponge state. -/
def lane (a : List Nat) (x y : Nat) : Nat := a.getD (x % 5 + 5 * (y % 5)) 0

/-- A state from its lanes. -/
def lanes (f : Nat → Nat → Nat) : List Nat := (List.range 25).map fun i => f (i % 5) (i / 5)

/-- One round of Keccak-f[1600]. -/
def kRoundStep (a : List Nat) (rc : Nat) : List Nat :=
  let c := (List.range 5).map fun x => (List.range 5).foldl (fun v y => Nat.xor v (lane a x y)) 0
  let d := (List.range 5).map fun x => Nat.xor (c.getD ((x + 4) % 5) 0) (rotl (c.getD ((x + 1) % 5) 0) 1)
  let t := lanes fun x y => Nat.xor (lane a x y) (d.getD x 0)
  -- lane (x, y) of the permuted state is lane (x + 3y, x) of t
  let b := lanes fun x y => rotl (lane t (x + 3 * y) x) (kRot.getD ((x + 3 * y) % 5 + 5 * x) 0)
  let e := lanes fun x y => Nat.xor (lane b x y) (Nat.land (2 ^ 64 - 1 - lane b (x + 1) y) (lane b (x + 2) y))
  e.set 0 (Nat.xor (lane e 0 0) rc)

/-- Keccak-f[1600]. -/
def keccakF (a : List Nat) : List Nat := kRound.foldl kRoundStep a

/-- Absorbs `n` blocks of 136 bytes. -/
def absorb : Nat → List Byte → List Nat → List Nat
  | 0, _, a => a
  | n + 1, bs, a =>
    absorb n (bs.drop 136)
      (keccakF ((List.range 25).map fun i =>
        if i < 17 then Nat.xor (a.getD i 0) (leNat ((bs.drop (8 * i)).take 8)) else a.getD i 0))

/-- SHAKE256 with 64 bytes of output. -/
def shake256 (bs : List Byte) : List Byte :=
  let n := bs.length / 136 + 1
  let pad := n * 136 - bs.length
  let padded := bs ++ (if pad = 1 then [0x9F] else [0x1F] ++ List.replicate (pad - 2) 0 ++ [0x80])
  ((absorb n padded (List.replicate 25 0)).take 8).flatMap (leBytes 8)

/-! ## Measurement registers (R520) -/

/-- The 64 bytes of measurement register `r`. -/
def State.meas (s : State) (r : Nat) : List Byte :=
  (List.range 8).flatMap fun w => leBytes 8 (s.reg (Reg.secMeas (8 * r + w)))

/-- Measurement register `r` takes 64 bytes. -/
def State.setMeas (s : State) (r : Nat) (bs : List Byte) : State :=
  (List.range 8).foldl (fun s w => s.setReg (Reg.secMeas (8 * r + w)) (leNat ((bs.drop (8 * w)).take 8))) s

/-- R520: register `r` is extended with data. -/
def State.extend (s : State) (r : Nat) (d : List Byte) : State := s.setMeas r (shake256 (s.meas r ++ d))

/-- R520: the geometry table that register 5 is extended with at each published epoch. -/
def State.geomData (s : State) : List Byte :=
  (([Reg.geomCores, Reg.geomDram, Reg.geomStacks, Reg.geomEpoch].map s.reg) ++
    (List.range 256).map fun l => s.reg (Reg.geomCoreMap l)).flatMap (leBytes 8)

/-- R520, R521: a protection at offset `o` changes from `old` to `new`: register 4 is extended; `keeper` says that keeper firmware
makes the change on its own. -/
def State.noteProt (s : State) (keeper : Bool) (o old new : Nat) : State :=
  if old = new then s
  else
    let s := s.extend 4 (leBytes 8 o ++ leBytes 8 old ++ leBytes 8 new ++ leBytes 8 s.now)
    if keeper then s.incReg Reg.secKeeperChanges 1 else s

/-- A protection register takes a value. -/
def State.setProt (s : State) (keeper : Bool) (o v : Nat) : State :=
  (s.setReg o v).noteProt keeper o (s.reg o) (v % 2 ^ 64)

end Sys2Proof.Machine
end

