-- ==== Sys2Proof/Machine/Wear.lean ====
section
/-! DEFINITION. Fuses (R508, R509), the retirement of cores (R30, R119, R506), geometry epochs (R32, R33), the array
self-test and its repairs (R117–R120, R496), and the dip sampler's comparison (R88–R94). -/

namespace Sys2Proof.Machine

/-! ## Fuses -/

/-- The two words of a fuse log entry (R509). -/
def Fuse.words (f : Fuse) : Nat × Nat :=
  let w0 := f.kind + f.nth * 2 ^ 8 + f.target % 2 ^ 16 * 2 ^ 16 + f.line * 2 ^ 32
  (w0, f.fw % 2 ^ 32 + crc32c (leBytes 8 w0 ++ leBytes 4 f.fw) * 2 ^ 32)

/-- Fuses of one kind. -/
def State.fusesOf (s : State) (kind : Nat) : List Fuse := s.fuses.filter fun f => f.kind == kind

/-- Entry `i` of the fuse log shows in GEOM_FUSE_LOG (R26). -/
def State.showFuse (s : State) (i : Nat) (f : Fuse) : State :=
  (s.setReg (Reg.geomFuseLog (2 * i)) f.words.1).setReg (Reg.geomFuseLog (2 * i + 1)) f.words.2

/-- A fuse is blown: its entry shows in the log at once, and GEOM_FUSE_COUNT rises (R29, R509). -/
def State.blow (s : State) (kind nth target line : Nat) : State :=
  let f : Fuse := ⟨kind, nth, target, line, s.reg Reg.geomFw⟩
  let s := (s.showFuse s.fuses.length f).extend 2 (leBytes 8 f.words.1 ++ leBytes 8 f.words.2)
  { s.setReg Reg.geomFuseCount (s.fuses.length + 1) with fuses := s.fuses ++ [f] }

/-! ## Retirement of a core -/

/-- A LAUNCH runs or waits on core `k`: `k` is among its cores and has not ended there (R506). -/
def LaunchRun.waitsOn (l : LaunchRun) (k : Nat) : Bool :=
  l.cores.zipIdx.any fun e => e.1 == k && !l.done.contains e.2

/-- R506 step 1: every LAUNCH running or queued on core `k` is cancelled on all its cores. -/
def State.retireLaunches (s : State) (k : Nat) : State :=
  ((s.runs.filter fun e => e.2.waitsOn k).map Prod.fst).foldl
    (fun s i => (s.markRun i fun l => { l with retired := true }).stopLaunch i) s

/-- R30, R119, R506: core `k` is retired. -/
def State.retire1 (s : State) (k : Nat) : State :=
  let c := s.core k
  let tag := match c.run with | some r => (s.slot r.launch).tag | none => 0
  let suspect := c.suspect.getD 0
  let n := (s.fusesOf 5).length
  let l := s.logical k
  let s := s.retireLaunches k
  let s := s.setCore k { s.core k with hold := true, inTest := false, testDue := false }
  let s := (s.setFlag (Reg.arrayStatus k) 3 true).setField (Reg.arrayStatus k) 2 1 0
  let s := if l < 256 then s.setFlag (Reg.geomCoreMap l) 30 true else s
  let s := if s.flag Reg.geomCtl 1 then s else { s with geomGo := false }
  let s := (s.setFlag Reg.geomCtl 1 true).setFlag Reg.geomCause 0 true
  let s := if n < 32 then s.blow 5 (n + 1) k 0 else s.internal 0 0 0 0x11 k 0 0 0
  s.raise 0x22 l 1 k (suspect + min (n + 1) 32 * 2 ^ 32) tag

/-! ## Geometry epochs -/

/-- No LAUNCH is executing on any core (R32). -/
def State.noLaunch (s : State) : Bool := s.cores.all fun e => e.2.run.isNone

/-- A logical core has RETIRE_PENDING set. -/
def State.retPending (s : State) (l : Nat) : Bool := bit (s.coreMap l) 31 && bit (s.coreMap l) 30

/-- R33 steps 2–4: the cores behind the pending logical numbers leave the map, and the highest numbers take their
places. -/
def State.remap (s : State) : State :=
  let logical := s.fieldOf Reg.geomCores 8 0
  let p := (List.range logical).filter s.retPending
  let n := logical - p.length
  let gone := p.map s.phys
  let movers := ((List.range logical).filter fun l => decide (n ≤ l) && !s.retPending l).reverse
  let holes := p.filter (· < n)
  let t := (holes.zip movers).foldl (fun t m => t.setField (Reg.geomCoreMap m.1) 7 0 (s.phys m.2)) s
  let t := (List.range logical).foldl
    (fun t l =>
      let t := t.setFlag (Reg.geomCoreMap l) 30 false
      if n ≤ l then t.setFlag (Reg.geomCoreMap l) 31 false else t) t
  let t := gone.foldl (fun t k => t.setCore k { t.core k with retired := true }) t
  (t.setField Reg.geomCores 8 0 n).setField Reg.geomCores 37 32 (t.fusesOf 5).length

/-- A table is published (R33, R34, R492): measurement 5 is extended while the epoch counter is odd, the counter then stands two
above its value, and the record of R497 is raised. -/
def State.newEpoch (s : State) : State :=
  let o := s.fieldOf Reg.geomEpoch 31 0
  let e := (o + 2) % 2 ^ 32
  let s := s.setReg Reg.geomEpoch ((o + 1) % 2 ^ 32)
  let s := (s.extend 5 s.geomData).setReg Reg.geomEpoch e
  s.raise 0 (e % 2 ^ 16) 0 0 (s.reg Reg.geomCores) 0

/-- GEOM_EPOCH_APPLY (R32, R33): a pending change is applied at a quiet point after a STEP_CLOSE or ADVANCE. -/
def execGeomEpochApply (s : State) : Host.Outcome State Fault Refusal :=
  if s.flag Reg.geomCtl 1 && s.geomGo && s.noLaunch then
    let s := s.remap
    .next ({ ((s.setFlag Reg.geomCtl 1 false).setReg Reg.geomCause 0) with geomGo := false }).newEpoch
  else .next s

/-- GEOM_CTL takes a word: ADVANCE is ignored while no change is pending. -/
def State.advance (s : State) (v : Nat) : State := if bit v 0 && s.flag Reg.geomCtl 1 then { s with geomGo := true } else s

/-- ADVANCE (R26, R32). -/
def execAdvance (v : Word) (s : State) : Host.Outcome State Fault Refusal := .next (s.advance v.toNat)

/-! ## Self-test (R117–R120, R496) -/

/-- The hold of R117 is set on a core. -/
def State.holdCore (s : State) (k : Nat) : State :=
  (s.setCore k { s.core k with hold := true }).setFlag (Reg.arrayStatus k) 1 true

/-- ROTATING_SELF_TEST (R117): the 50 ms test sets its hold on every core in service. -/
def execRotatingSelfTest (s : State) : Host.Outcome State Fault Refusal :=
  .next (if s.ready then ((List.range 256).filter s.inService).foldl State.holdCore s else s)

/-- SELF_TEST_START (R5, R117): a test that was asked for sets its hold, and starts once the MX, VX and SCALE instructions already
issued are complete; keeper firmware runs it. -/
def execSelfTestStart (k : Fin 256) (s : State) : Host.Outcome State Fault Refusal :=
  let c := s.core k
  if !s.keeperRuns || s.coreRetired k || !(c.hold || c.testDue) then .next s
  else
    let s := s.holdCore k
    let c := s.core k
    let c := { c with testDue := false }
    .next (s.setCore k (if c.mxq.isEmpty && c.vxq.isEmpty then { c with inTest := true } else c))

/-- The spare line R118 chooses for a fault when `rows` spare rows and `cols` spare columns are used: (column?, line); none where no spare line
covers it. -/
def spareLine (rows cols : Nat) (f : ArrayFault) : Option (Bool × Nat) :=
  let row := fun (r : Nat) => if rows < 2 then some (false, r) else none
  let col := fun (c : Nat) => if cols < 2 then some (true, c) else none
  match f with
  | .cells r c => if rows < 2 then some (false, r) else match c with | some c => col c | none => none
  | .rowPath r => row r
  | .colPath c => col c
  | .spareRow r => row r
  | .spareCol c => col c

/-- A fault that shows no more once the line is replaced. -/
def fixedBy (f : ArrayFault) (l : Bool × Nat) : Bool :=
  match f with
  | .cells r c => if l.1 then c == some l.2 else r == l.2
  | .rowPath r => !l.1 && r == l.2
  | .spareRow r => !l.1 && r == l.2
  | .colPath c => l.1 && c == l.2
  | .spareCol c => l.1 && c == l.2

/-- The lines that the faults of one test need, in order (R118); none where the lines left do not cover them all. -/
def planLines (rows cols : Nat) (used : List (Bool × Nat)) : List ArrayFault → Option (List (Bool × Nat))
  | [] => some used
  | f :: fs =>
    if used.any (fixedBy f) then planLines rows cols used fs
    else
      match spareLine rows cols f with
      | none => none
      | some l => planLines (if l.1 then rows else rows + 1) (if l.1 then cols + 1 else cols) (used ++ [l]) fs

/-- One spare line is used (R118): fuse, log, ARRAY_REPAIR, REPAIRING, record. -/
def State.repair (s : State) (k : Nat) (isCol : Bool) (line : Nat) : State :=
  let r := Reg.arrayRepair k
  let rows := s.fieldOf r 1 0
  let cols := s.fieldOf r 3 2
  let s := if isCol then s.blow 2 (cols + 1) k line else s.blow 1 (rows + 1) k line
  let s := if isCol then (s.setField r (31 + 8 * cols) (24 + 8 * cols) line).setField r 3 2 (cols + 1)
    else (s.setField r (15 + 8 * rows) (8 + 8 * rows) line).setField r 1 0 (rows + 1)
  let s := s.setFlag (Reg.arrayStatus k) 2 true
  s.internal (rows + cols + 1) 0 0 0x10 k (b2n isCol * 2 ^ 15 + line) ((s.core k).suspect.getD 0) 0

/-- A test passes (R117): it is counted and the hold released. -/
def State.testPassed (s : State) (k : Nat) : State :=
  let st := Reg.arrayStatus k
  let s := (s.setField st 47 16 (s.fieldOf st 47 16 + 1)).setField st 2 1 0
  (s.setCore k { s.core k with hold := false, inTest := false, testDue := false, suspect := none }).endHeld k

/-- SELF_TEST_DONE (R5, R117–R119, R496): the test of core `k` ends with what it found. It passes; or the lines left cover all it found, keeper firmware
uses one of them, the hold stays and the test runs again, so that the lines are blown, logged and tested one at a time (R118); or the core is
retired, with no line used where what one test found cannot all be covered (R119, log 111). -/
def execSelfTestDone (k : Fin 256) (found : List ArrayFault) (vectorFails : Bool) (s : State) :
    Host.Outcome State Fault Refusal :=
  if !s.keeperRuns || !(s.core k).inTest then .next s
  else if vectorFails then .next (s.retire1 k)
  else
    match planLines (s.fieldOf (Reg.arrayRepair k) 1 0) (s.fieldOf (Reg.arrayRepair k) 3 2) [] found with
    | some [] => .next (s.testPassed k)
    | some (l :: _) => .next (s.repair k l.1 l.2)
    | none => .next (s.retire1 k)

/-- ARRAY_CTL of core `k` takes a word: TEST_NOW is ignored while TESTING, REPAIRING or RETIRED is 1, and before keeper firmware runs (log 37). -/
def State.testNow (s : State) (k v : Nat) : State :=
  if s.keeperRuns && bit v 0 && s.fieldOf (Reg.arrayStatus k) 3 1 == 0 then s.setCore k { s.core k with testDue := true } else s

/-- TEST_NOW (R117, R121). -/
def execTestNow (k : Fin 256) (v : Word) (s : State) : Host.Outcome State Fault Refusal := .next (s.testNow k v.toNat)

/-! ## The dip sampler -/

/-- The smallest magnitude that rounds to infinity in FP32, 2^128 − 2^103. R88's words name it, and its number, (2 − 2^−24) × 2^128, is twice that: the
words are followed (log 116). -/
def wideInf : FVal := .fin false (2 ^ 25 - 1) 103

/-- The spacing of the result type at `w` (R88): BF16 in class 6, FP32 else. -/
def dipSpacing (cls : Nat) (w : FVal) : FVal :=
  let ex := match w with | .fin _ m e => if m = 0 then -126 else max ((m.log2 : Int) + e) (-126) | _ => -126
  .fin false 1 (ex - if cls = 6 then 7 else 23)

/-- The comparison metric of an element as an FP32 value (R88); none where it matches by a special-value rule. R88 does not say what e is where w is NaN
and y is not, taken as +∞ here, nor where w and A are infinite and y is finite: the quotient is NaN, exceeds no threshold and enters the
statistics (log 116). -/
def DipCell.metric (c : DipCell) (cls : Nat) : Option FVal :=
  let y := v32 c.y
  let inf := FVal.inf false
  let plain : FVal :=
    if !y.isFin then inf
    else if 5 ≤ cls then flv ((y.sub c.w).abs.div (dipSpacing cls c.w))
    else if c.amag.isZero then (if y.isZero then .zero false else inf)
    else flv ((y.sub c.w).abs.div c.amag)
  if c.w.isNan then (if y.isNan then none else some inf)
  else if wideInf.le c.w.abs then (if y = .inf c.w.sign then none else some plain)
  else some plain

/-- A statistics register of die and class, as an FP32 value. -/
def State.stat (s : State) (o : Nat) : FVal := v32 (s.reg o % 2 ^ 32)

/-- R89: the current threshold of a class on a die. R89 does not give the arithmetic: each step is rounded to FP32 (log 116). -/
def State.dipThreshold (s : State) (die cls : Nat) : FVal :=
  let i := 8 * die + cls
  let st := s.stat (Reg.dipTStatic cls)
  if s.fieldOf (Reg.dipCount i) 47 0 < 1024 || !s.flag Reg.dipCtl 2 then st
  else
    let sigma := flv (s.stat (Reg.dipVar i)).sqrt
    let t := flv ((s.stat (Reg.dipMean i)).add (flv ((FVal.ofInt (s.fieldOf Reg.dipCtl 39 32)).mul sigma)))
    st.max true ((s.stat (Reg.dipTFloor cls)).max false t)

/-- The weight of the `n`-th update (R90). -/
def dipWeight (n : Nat) : FVal := if n ≤ 1024 then flv (oneVal32.div (.ofInt n)) else .fin false 1 (-10)
where
  /-- 1. -/
  oneVal32 : FVal := .fin false 1 0

/-- R90: a matching element enters the statistics of its class. -/
def State.dipStats (s : State) (die cls : Nat) (e : FVal) : State :=
  let i := 8 * die + cls
  let n := min (s.fieldOf (Reg.dipCount i) 47 0 + 1) (2 ^ 48 - 1)
  let w := dipWeight n
  let mean := s.stat (Reg.dipMean i)
  let var := s.stat (Reg.dipVar i)
  let d := flv (e.sub mean)
  (((s.setReg (Reg.dipCount i) n).setReg (Reg.dipMean i) (fl (mean.add (flv (d.mul w))))).setReg (Reg.dipVar i)
    (fl (var.add (flv ((flv ((flv (d.mul d)).sub var)).mul w))))).setReg (Reg.dipWorst i)
    (fl ((s.stat (Reg.dipWorst i)).maxnum false e))

/-- R90: the output error of a narrowed MX result. -/
def State.dipQerr (s : State) (die cls : Nat) (w y : FVal) : State :=
  if !s.flag Reg.dipCtl 3 || !w.isFin || !y.isFin then s
  else
    let i := 8 * die + cls
    let x : FVal := if w.isZero then .zero false else flv ((y.sub w).abs.div w.abs)
    let q := Tbl.get 0 s.dipq i + 1
    let m := s.stat (Reg.dipQerr i)
    ({ s with dipq := Tbl.set 0 s.dipq i q }).setReg (Reg.dipQerr i) (fl (m.add (flv ((flv (x.sub m)).mul (dipWeight q)))))

/-- R92, R500: a mismatch raises its record and sets the hold of R117 at once. DIP_MISMATCHES rises with it, whatever the test then finds: R92 speaks
of a passed test, R96 of mismatches since power-up (log 116). -/
def State.dipMismatch (s : State) (d : Dip) (c : DipCell) : State :=
  let k := d.core
  let r := Reg.dipMismatches k
  let s := s.setReg r ((s.reg r + 1) % 2 ^ 32)
  let s := s.raise 0x23 d.cls 10 k (c.y + fl c.w * 2 ^ 32) ((s.core k).suspect.getD 0 + c.row * 2 ^ 32 + c.col * 2 ^ 40)
  let s := s.markRun d.launch fun l => { l with mismatch := true }
  if s.coreRetired k then s else s.holdCore k

/-- One checked element (R88–R92); a shed sampler's statistics are frozen (R93). The thresholds are read here: a write of them acts on a dip already
taken and not yet compared, where R89 says that it takes effect for the next dip (log 116). -/
def State.dipCell (s : State) (d : Dip) (c : DipCell) : State :=
  let die := d.core / 16
  let frozen := s.flag Reg.dipStatus 0
  let s := match c.yout with
    | some y => if frozen then s else s.dipQerr die d.cls c.w y
    | none => s
  match c.metric d.cls with
  | none => s
  | some e =>
    if (s.dipThreshold die d.cls).lt e then s.dipMismatch d c
    else if frozen then s else s.dipStats die d.cls e

/-- DIP_RESOLVED (R88): the earliest dip of core `k` that is not resolved is compared. -/
def execDipResolved (k : Fin 256) (s : State) : Host.Outcome State Fault Refusal :=
  match s.dips.find? fun d => d.core == k.val with
  | none => .next s
  | some d => .next (d.cells.foldl (fun s c => s.dipCell d c) { s with dips := s.dips.erase d })

/-- FORCED_MX_DIP (R85): FORCE_PERIOD × 64 µs have passed without an MX dip of core `k`; 0 disables forcing. -/
def execForcedMxDip (k : Fin 256) (s : State) : Host.Outcome State Fault Refusal :=
  if s.fieldOf Reg.dipCtl 23 16 = 0 then .next s else .next (s.setCore k { s.core k with forceMx := true })

/-- DIP_SELF_CHECK (R94): the sampler of die `d` checks its wide unit; a wrong result stops it. -/
def execDipSelfCheck (d : Fin 16) (ok : Bool) (s : State) : Host.Outcome State Fault Refusal :=
  .next (if ok then s else (s.setFlag Reg.dipStatus (16 + d) true).internal 0 10 d 0x34 d 0 0 0)

end Sys2Proof.Machine
end

