-- ==== Sys2Proof/Machine/Identity.lean ====
section
/-! DEFINITION. What start-up derives from the fuses (20_boot_and_security.md R513, R519, R520): the security state, the identity key, and
step 1 of the start-up sequence. -/

namespace Sys2Proof.Machine

/-- The hot-swap stage is closed and RESET_N is high: start-up goes on (R471, R531). -/
def State.powered (s : State) : Bool := s.power && !s.resetHeld

/-- The anti-rollback counter and the revoked-key mask that fuses hold (R517, R518). -/
def State.counterFuses (s : State) : Nat := (s.fusesOf 6).length
def State.keyFuses (s : State) : Nat := (s.fusesOf 7).foldl (fun m f => setBits m f.target f.target 1) 0

/-- Measurement 3 is extended with the security state (R520). -/
def State.noteSecurity (s : State) : State :=
  s.extend 3 (Sys2Proof.Config.securityState (s.fieldOf Reg.secKeys 4 0) (s.fieldOf Reg.secRollback 6 0) (s.reg Reg.secDebug))

/-- Registers whose values are read from fuses (R26, R525): the fuse log, the counter, the revoked keys, the production fuse. -/
def State.loadFuses (s : State) : State :=
  let s := s.fuses.zipIdx.foldl (fun s f => s.showFuse f.2 f.1) s
  (((s.setReg Reg.geomFuseCount s.fuses.length).setReg Reg.secRollback s.counterFuses).setReg Reg.secKeys s.keyFuses).setReg Reg.secDebug
    (b2n s.production)

/-- The bytes of the fuse log. -/
def State.fuseLog (s : State) : List Byte := s.fuses.flatMap fun f => leBytes 8 f.words.1 ++ leBytes 8 f.words.2

/-- Step 1 of R513: the boot ROM's measurements, and the identity public key. -/
def State.bootStep1 (s : State) : State :=
  if s.boot ≠ 0 then s
  else
    let s := (s.extend 0 Sys2Proof.Config.bootRom).extend 2 (Sys2Proof.Config.fuseArray s.fuseLog ++ s.fuseLog)
    let s := (List.range 8).foldl (fun s i => s.setReg (Reg.secIdPk i) (Sys2Proof.Config.identityKey i).toNat) s
    { s.noteSecurity with boot := 1 }

/-- The 64 bytes of the identity public key. -/
def identityPk : List Byte := (List.range 8).flatMap fun i => leBytes 8 (Sys2Proof.Config.identityKey i).toNat

/-- The device identifier (R519). -/
def deviceId : List Byte := (shake256 identityPk).take 16

end Sys2Proof.Machine
end

