-- ==== Sys2Proof/Machine/Ports.lean ====
section
/-! DEFINITION. Ports and links (14_fabric.md R358–R366, R382–R386, R34): training, replay, failure and masks, the routing tables' swap, and the
house and room coordinates. -/

namespace Sys2Proof.Machine

/-! ## Ports in service -/

/-- The mask of a port shows in its status, and GEOM_PORTS_UP follows it (R31, R387). -/
def State.syncPort (s : State) (p : Nat) : State :=
  let m := s.flag Reg.fabPortMask p
  (s.setFlag (Reg.fabPortStatus p) 1 m).setFlag Reg.geomPortsUp p (s.flag (Reg.fabPortStatus p) 0 && !m)

/-- R358: a house port's far end reports another house, or this room. -/
def State.miswired (s : State) (p : Nat) : Bool :=
  let st := s.reg (Reg.fabPortStatus p)
  decide (p < 31) && (bits st 63 48 != s.house || bits st 44 40 == s.room)

/-- R358 evaluated for port `p`: a port found miswired raises its record, at training and whenever it becomes so. -/
def State.evalPort (s : State) (trained : Bool) (p : Nat) : State :=
  let r := Reg.fabPortStatus p
  if !s.flag r 0 then s
  else
    let m := s.miswired p
    let s' := s.setFlag r 3 m
    if m && (trained || !s.flag r 3) then
      s'.internal p 7 p 0x20 p (s.fieldOf r 44 40) 0 (s.fieldOf r 63 48)
    else s'

/-- The outputs a slot has left: the slow ports that do not send in it, and the ports taken. Outside the slots of CELL_TRANSIT `slot` is false:
no slow port is known to send, and a port that takes a cell is free again for the next. -/
structure Outputs where
  slot : Bool
  idle : List Nat
  used : List Nat
  deriving DecidableEq, Repr

/-- Between slots. -/
def Outputs.none : Outputs := ⟨false, housePorts, []⟩

/-- A port has taken a cell. -/
def Outputs.take (o : Outputs) (p : Nat) : Outputs := if o.slot then { o with used := p :: o.used } else o

/-- Re-injected cells leave as spills, before any cell of this room's own (R384). -/
def State.flushReinj (s : State) (o : Outputs) : State × Outputs :=
  s.reinj.foldl
    (fun (s, o) (f, c) =>
      match s.spillPort (portDie f) fun q => q != f && !o.used.contains q && !s.portShut o.idle q with
      | some q => (s.spill (portDie f) q c, o.take q)
      | none => ({ s with reinj := s.reinj ++ [(f, c)] }, o))
    ({ s with reinj := [] }, o)

/-- Cells that wait for an output leave when there is one (R370). -/
def State.flushOut (s : State) (o : Outputs) : State × Outputs :=
  s.waiting.foldl
    (fun (s, o) c =>
      match s.inject o.idle o.used c with
      | (t, some p) => (t, o.take p)
      | (_, none) => ({ s with waiting := s.waiting ++ [c] }, o))
    ({ s with waiting := [] }, o)

/-- A cell of this room's own leaves, or waits on its die for an output (R370). -/
def State.sendCell (s : State) (c : Cell) : State :=
  match s.inject housePorts [] c with
  | (t, some _) => t
  | (_, none) => { s with waiting := s.waiting ++ [c] }

/-- Requests that have a tag and have not been transmitted are put on an output when one is free (R373). -/
def State.flushReqs (s : State) (o : Outputs) : State :=
  ((List.range s.reqs.length).foldl
    (fun (s, o) i =>
      match s.reqs[i]? with
      | some r =>
        if r.held || r.sent || r.door then (s, o)
        else
          match s.inject o.idle o.used r.cell with
          | (t, some p) =>
            ({ t with reqs := t.reqs.set i { r with cell := { r.cell with epoch := s.activeB }, sent := true } }.noteSent r.cell.tag, o.take p)
          | (_, none) => (s, o)
      | none => (s, o))
    (s, o)).1

/-- What waits for an output goes on: cells of failed links first, then responses, then requests. -/
def State.flushAll (s : State) (o : Outputs) : State :=
  let (s, o) := s.flushReinj o
  let (s, o) := s.flushOut o
  s.flushReqs o

/-- A port has come into service, or a table into force: what waited for an output goes on. -/
def State.portsChanged (s : State) : State := s.flushAll .none

/-- A port completes training (R358, R359): it tells its far end its house, room and number, and records what the far end reports. One that failed before stays masked (R386). -/
def State.portTrain (s : State) (p house room port : Nat) (slow : Bool) : State :=
  let s := { s.setReg (Reg.fabPortStatus p) (house % 2 ^ 16 * 2 ^ 48 + room % 32 * 2 ^ 40 + port % 64 * 2 ^ 32 + b2n slow * 4 + 1) with
    linkFails := Tbl.set 0 s.linkFails p 0 }
  let s := { s with out := s.out ++ [Out.hello p s.house s.room] }
  ((s.syncPort p).evalPort true p).portsChanged

/-- FAR_END_COORDINATES (R34): port `p` receives new coordinates from its far end, and R358 is evaluated for it again. -/
def execFarEndCoordinates (p : Fin 40) (house : Fin 65536) (room : Fin 32) (s : State) : Host.Outcome State Fault Refusal :=
  let r := Reg.fabPortStatus p
  .next (if s.flag r 0 then (((s.setField r 63 48 house).setField r 44 40 room).evalPort false p).portsChanged else s)

/-! ## Failure -/

/-- A cell of a failed link leaves as a spill on another port in service (R384); where none can take it now, it waits ahead of this room's own
cells. -/
def State.reinject (s : State) (p : Nat) (c : Cell) : State := { s with reinj := s.reinj ++ [(p, c)] }

/-- R384: port `p` goes down. A cell that waits in its output register leaves as those of its replay buffer do, though it does not count as one
of them: R369 says nothing of it (log 117). Cells of a door port's messages are sent again by their door engine (R409). -/
def State.portDown (s : State) (p : Nat) : State :=
  let r := Reg.fabPortStatus p
  if !s.flag r 0 then s
  else
    let cells := if p < 31 then Tbl.get [] s.replay p else []
    let s := (((s.setFlag r 0 false).setFlag r 2 false).setFlag r 3 false).setFlag Reg.fabPortMask p true
    let parked := Tbl.get [] s.slowOut p
    let s := ({ s with replay := Tbl.set [] s.replay p [], slowOut := Tbl.erase s.slowOut p, linkFails := Tbl.set 0 s.linkFails p 0 }).syncPort p
    let s := (((cells ++ parked).foldl (fun s c => s.reinject p c) s).incReg Reg.fabReinjected cells.length).portsChanged
    s.internal p 7 p 0x21 p 0 0 cells.length

/-- The far end has acknowledged the first `n` cells of a port's replay buffer (R363). -/
def State.acked (s : State) (p n : Nat) : State :=
  { s with replay := Tbl.modify [] s.replay p fun l => l.drop n }

/-- PORT_DOWN (R363, R384): loss of signal or of lock on port `p`, whose far end has acknowledged `n` more cells. -/
def execPortDown (p : Fin 40) (n : Nat) (s : State) : Host.Outcome State Fault Refusal :=
  .next ((s.acked p n).portDown p)

/-- LINK_REPLAY (R363): the far end of port `p` has acknowledged `n` more cells and the next failed the link CRC; it is sent again from the
replay buffer. The third failure in a row takes the port down. -/
def execLinkReplay (p : Fin 40) (n : Nat) (s : State) : Host.Outcome State Fault Refusal :=
  let s := s.acked p n
  let f := if n = 0 then Tbl.get 0 s.linkFails p + 1 else 1
  let s := { s with linkFails := Tbl.set 0 s.linkFails p f }
  if 3 ≤ f then .next (s.portDown p)
  else
    match Tbl.get [] s.replay p with
    | c :: _ => .next { s with out := s.out ++ [.cell p c] }
    | [] => .next s

/-- Every port goes down at once, its cells lost (R478, R488). -/
def State.allPortsDown (s : State) : State :=
  let s := (List.range 40).foldl
    (fun s p => (((s.setFlag (Reg.fabPortStatus p) 0 false).setFlag (Reg.fabPortStatus p) 2 false).setFlag (Reg.fabPortStatus p) 3 false).syncPort p)
    s
  { s with replay := [], slowOut := [], reinj := [], linkFails := [] }

/-- FAB_PORT_MASK takes a word: the operator sets mask bits, and clears those of ports that are up and not miswired. -/
def State.portMask (s : State) (v : Nat) : State :=
  ((List.range 40).foldl
    (fun s p =>
      let r := Reg.fabPortStatus p
      if bit v p then (s.setFlag Reg.fabPortMask p true).syncPort p
      else if s.flag r 0 && !s.flag r 3 then (s.setFlag Reg.fabPortMask p false).syncPort p
      else s) s).portsChanged

/-- PORT_MASK_WRITE (R386). -/
def execPortMaskWrite (v : Word) (s : State) : Host.Outcome State Fault Refusal := .next (s.portMask v.toNat)

/-! ## Routing tables -/

/-- Every house entry of both tables becomes invalid (R34, R366). -/
def State.housesInvalid (s : State) : State :=
  let inv := fun (o : Nat) =>
    (decide (Reg.houseRouteA 0 ≤ o) && decide (o < Reg.houseRouteA 65536)) ||
    (decide (Reg.houseRouteB 0 ≤ o) && decide (o < Reg.houseRouteB 65536))
  (s.regs.filter fun e => inv e.1).foldl (fun s e => s.setFlag e.1 25 false) s

/-- The room part of a table is filled from the far rooms of the house ports (R366); the lowest port leads to a room that several
reach. -/
def State.fillRooms (s : State) (b : Bool) : State :=
  (List.range 32).foldl
    (fun s r =>
      let o := if b then Reg.roomRouteB r else Reg.roomRouteA r
      match (List.range 31).find? fun p =>
        s.flag (Reg.fabPortStatus p) 0 && !s.flag (Reg.fabPortStatus p) 3 && s.fieldOf (Reg.fabPortStatus p) 44 40 == r with
      | some p => s.setReg o (2 ^ 8 + p)
      | none => s.setReg o 0)
    s

/-- FAB_EPOCH takes a word: DRAIN_US is taken when in range; SWAP 1 exchanges the tables unless one drains. -/
def State.swapWrite (s : State) (v : Nat) : State :=
  let d := bits v 31 16
  let s := if 1 ≤ d ∧ d ≤ 10000 then s.setField Reg.fabEpoch 31 16 d else s
  if bit v 1 && !s.flag Reg.fabEpoch 2 then
    ((s.setFlag Reg.fabEpoch 0 (!s.flag Reg.fabEpoch 0)).setFlag Reg.fabEpoch 2 true).portsChanged
  else s

/-- SWAP (R383). -/
def execSwap (v : Word) (s : State) : Host.Outcome State Fault Refusal := .next (s.swapWrite v.toNat)

/-- DRAIN_END (R383): DRAIN_US has passed since the swap. -/
def execDrainEnd (s : State) : Host.Outcome State Fault Refusal := .next (s.setFlag Reg.fabEpoch 2 false)

/-- FAB_ROOM_DEAD takes a word: a write of 1 clears a room's bit. -/
def State.deadClear (s : State) (v : Nat) : State := s.setReg Reg.fabRoomDead (Nat.land (s.reg Reg.fabRoomDead) (2 ^ 32 - 1 - v % 2 ^ 32))

/-- ROOM_DEAD_CLEAR (R401). -/
def execRoomDeadClear (v : Word) (s : State) : Host.Outcome State Fault Refusal := .next (s.deadClear v.toNat)

/-! ## Coordinates (R34) -/

/-- The new coordinates go to the far end of every port that is up. -/
def State.tellFar (s : State) : State :=
  { s with out := s.out ++ ((List.range 40).filter fun p => s.flag (Reg.fabPortStatus p) 0).map fun p => .coords p s.house s.room s.rooms }

/-- FAB_COORD takes a word (R34): house, rooms and room, while no job owns the Criaro, as an epoch of its own, whose last step clears PENDING,
though a core retirement may wait. Before READY the table is not published, so that no epoch passes; before keeper firmware runs nothing applies
the write (log 119). -/
def State.coordWrite (s : State) (v : Nat) : State :=
  let h := bits v 31 16
  let n := bits v 13 8
  let r := bits v 4 0
  if s.owned || h = 0xFFFF || n = 0 || decide (32 < n) || decide (n ≤ r) || !s.keeperRuns then s
  else
    let w := h * 2 ^ 16 + n * 2 ^ 8 + r
    let s := (s.setReg Reg.fabCoord w).setReg Reg.geomHouse w
    let s := (List.range 40).foldl (fun s p => s.evalPort false p) s.tellFar
    let s := (s.fillRooms s.activeB).housesInvalid
    (if s.ready then (s.setFlag Reg.geomCtl 1 false).newEpoch else s).portsChanged

/-- FAB_COORD_WRITE (R34). -/
def execFabCoordWrite (v : Word) (s : State) : Host.Outcome State Fault Refusal := .next (s.coordWrite v.toNat)

/-! ## On-package links (R17) -/

/-- The links there are (R14): compute and memory, fabric and memory, fabric and fabric, cellar and memory. -/
def pkgLink (a b : Nat) : Bool :=
  let mem := fun (d : Nat) => decide (16 ≤ d) && decide (d < 20)
  let fab := fun (d : Nat) => decide (20 ≤ d) && decide (d < 24)
  (decide (min a b < 16) && mem (max a b)) || (mem (min a b) && (fab (max a b) || max a b == 24)) || (fab a && fab b && a != b)

/-- Takes a link between two dies down: its record, in which R498 does not say how links are numbered on a die, and what R17 says of
a compute die that has lost its four memory links. -/
def State.pkgLinkDown (s : State) (a b : Nat) : State :=
  let key := 32 * min a b + max a b
  if s.pkgDown.contains key || !pkgLink a b then s
  else
    let (f, s) := s.takeFree
    let s := ({ s with pkgDown := s.pkgDown ++ [key] }).internal 0 0 0 5 (min a b) (f % 2 ^ 16) 0 0
    let c := min a b
    if decide (c < 16) && (List.range 4).all (fun m => s.pkgDown.contains (32 * c + 16 + m)) then
      ((List.range 16).map (16 * c + ·)).foldl (fun s k => if s.inService k then s.retire1 k else s) s
    else s

/-- ONPKG_LINK_DOWN (R17): the link between dies `a` and `b` goes down, and its traffic takes a detour. -/
def execOnpkgLinkDown (a b : Fin 25) (s : State) : Host.Outcome State Fault Refusal := .next (s.pkgLinkDown a b)

/-- ONPKG_LINK_RETRY (R17): a transfer between dies `a` and `b` fails its CRC; `again` says that it is a retry of the transfer that failed
before. Three retries in a row that fail take the link down. -/
def execOnpkgLinkRetry (a b : Fin 25) (again : Bool) (s : State) : Host.Outcome State Fault Refusal :=
  let key := 32 * min a.val b.val + max a.val b.val
  let n := if again then Tbl.get 0 s.pkgFails key + 1 else 0
  let s := { s with pkgFails := Tbl.set 0 s.pkgFails key n }
  .next (if 3 ≤ n then s.pkgLinkDown a b else s)

end Sys2Proof.Machine
end

