-- ==== Sys2Proof/Machine/Power.lean ====
section
/-! DEFINITION. Power input, clocks and low-power states (18_power_and_clocks.md R471–R494), the thermal step, trip and alarm (R502), the
fault latch (R503), and what each state keeps. -/

namespace Sys2Proof.Machine

/-! ## What a power state loses (R478, R484, R487) -/

/-- R487: a place that DEEP and protected off keep. -/
def State.survives (s : State) (p : Nat) : Bool :=
  if p < 2 ^ 41 then s.flag Reg.powerRetain (stackOf p)
  else
    match regionOf (p - 2 ^ 41) with
    | some (.larder m) =>
      s.flag Reg.powerRetain (16 + m) && decide (1 ≤ bits (s.reg Reg.memLarderCfg) (4 * m + 3) (4 * m)) &&
      decide ((p - 2 ^ 41 - 0x18000000000) % 0x10000000 < 2 ^ 24)
    | some (.scratch n) =>
      s.flag (Reg.powerRetainCores (n / 64)) (n % 64) && !s.coreRetired n && decide ((p - 2 ^ 41 - 0x19000000000) % 0xC00000 < 0x40000)
    | _ => false

/-- A place in scratch, Landing, Cistern or a program store, which NAP loses (R127, R237, R484). -/
def onCompute (p : Nat) : Bool :=
  decide (2 ^ 42 ≤ p) || decide (2 ^ 41 ≤ p) &&
    match regionOf (p - 2 ^ 41) with
    | some (.scratch _) => true
    | some (.landing _) => true
    | some (.cistern _) => true
    | _ => false

/-- Memory loses the places that satisfy `p`. -/
def State.loseMem (s : State) (p : Nat → Bool) : State := { s with mem := s.mem.clear p, ue := s.ue.clear p }

/-- The repairs of a core's array from the fuses (R116, R513). -/
def State.loadRepair (s : State) (k : Nat) : State :=
  s.fuses.foldl
    (fun s f =>
      let r := Reg.arrayRepair k
      if f.target ≠ k then s
      else if f.kind = 1 then (s.setField r (7 + 8 * f.nth) (8 * f.nth) f.line).setField r 1 0 f.nth
      else if f.kind = 2 then (s.setField r (23 + 8 * f.nth) (16 + 8 * f.nth) f.line).setField r 3 2 f.nth
      else s)
    s

/-- Core reset of core `k`: its state and its CORE block are as after reset, its repairs are loaded again, and a core out of service
stays so. -/
def State.coreReset (s : State) (k : Nat) : State :=
  let out := s.flag (Reg.arrayStatus k) 3
  let c := s.core k
  let s := s.resetRegs fun o => decide (Reg.coreBlock k ≤ o) && decide (o < Reg.coreBlock k + 0x4000)
  let s := { s.setCore k { Core.init with retired := c.retired, suspect := c.suspect, cyc0 := s.centi } with tbusy := Tbl.erase s.tbusy k }
  (s.loadRepair k).setFlag (Reg.arrayStatus k) 3 (out || c.retired)

/-- Every core is reset, and what runs on cores is gone. -/
def State.resetCores (s : State) : State := (List.range 256).foldl State.coreReset { s with runs := [], dips := [] }

/-- NAP: scratch, Landing, Cistern, core and queue-engine state are lost (R484). -/
def State.napLoss (s : State) : State := { ((s.writeBack fun _ => true).loseMem onCompute).resetCores with slots := [], ringStop := [], ctxTurn := [] }

/-- DEEP and protected off: everything is lost but what R487 keeps, the cellar and the link (R484). -/
def State.deepLoss (s : State) : State :=
  let s := ((s.writeBack (s.flag Reg.powerRetain)).loseMem fun p => !s.survives p).resetCores
  { s with
    sync := ⟨[], [], [], []⟩, hists := [], dipq := [], ctxTurn := [], lines := [], lineRead := []
    reqs := [], passes := [], nextTag := 0, tagSent := [], applied := [], combs := [], waiting := [], replay := [], lastSpill := [], linkFails := []
    reinj := [], slowOut := [], doorMsgs := [], doorSeq := [], doorReset := [], doorUsed := [], doorIn := [], doorBacks := []
    pools := [], refs := [], rounds := [], holds := [], exchs := [], services := [], dones := [], kept := [], loop := [], reds := []
    sumpFrom := [], lateParts := [] }

/-- What the fuses say of the stacks (R356, R509): map-outs spent and retirement. -/
def State.loadStacks (s : State) : State :=
  s.fuses.foldl
    (fun s f =>
      if f.kind = 3 then s.setField (Reg.memStackStatus (f.target / 128)) 11 8 f.nth
      else if f.kind = 4 then s.setFlag (Reg.memStackStatus f.target) 1 true
      else s)
    s

/-- Every ring is disabled. -/
def State.ringsOff (s : State) : State :=
  (s.regs.filter fun e => decide (Reg.ringCfg 0 ≤ e.1) && decide (e.1 < Reg.ringCfg 4096)).foldl (fun s e => s.setFlag e.1 63 false) s

/-- Protections outside the GEOM, HOST, POWER and SEC blocks that a wake returns to their reset values (R492, R521). -/
def deepProts : List Nat :=
  [Reg.dipCtl] ++ (List.range 32).flatMap fun i => [Reg.owinScope i, Reg.owinRange i, Reg.iwinScope i, Reg.iwinRange i]

/-- What measurement 4 records of the protections that a wake has returned to their reset values; `s` is the state before (R95, R520, R521). -/
def State.noteDeepProts (s t : State) : State :=
  let t := deepProts.foldl (fun t o => t.noteProt true o (s.reg o) (t.reg o)) t
  ((List.range 84).filter s.unitOff).foldl (fun t u => t.noteProt true Reg.unitCmd (u + 2 ^ 16) u) t

/-- A wake from DEEP or protected off returns the registers outside GEOM, HOST, POWER and SEC to their reset values (R492), but FAB_COORD,
MEM_CTL.PLACEMENT and MEM_LARDER_CFG, and the fault latch, which only a reset clears (R503); rings come back disabled. Every history is reset
(R254), and what the range counters are compared with at the next STEP_CLOSE returns to 0 with them (R256). -/
def State.deepRegs (s : State) : State :=
  let keepP := s.flag Reg.memCtl 0
  let t := ((s.resetRegs fun o =>
    decide (0x300000 ≤ o) && decide (o < 0x1000000) && o != Reg.fabCoord && o != Reg.memLarderCfg && o != Reg.fltLatch).setFlag
    Reg.memCtl 0 keepP).loadStacks.resetCores
  { (s.noteDeepProts t).ringsOff with hists := [], rngMark := [] }

/-! ## Steps of the core clock (R481) -/

/-- The shed level: thresholds tripped (R474). -/
def State.shedLevel (s : State) : Nat := popCount s.tripped 5

/-- The shed step. -/
def shedStep (l : Nat) : Nat := if 3 ≤ l then 4 else if 2 ≤ l then 2 else 0

/-- The effective core step: the slowest of the four, of those available (R481). -/
def State.effStep (s : State) : Nat :=
  (([s.fieldOf Reg.clkCtl 2 0, s.capStep, s.thermStep, shedStep s.shedLevel]).filter fun x => s.flag Reg.geomClockSteps x).foldl max 0

/-- The next slower and the next faster step available; `x` itself where there is none. -/
def State.slower (s : State) (x : Nat) : Nat :=
  ((List.range 5).find? fun y => decide (x < y) && s.flag Reg.geomClockSteps y).getD x
def State.faster (s : State) (x : Nat) : Nat :=
  ((List.range 5).reverse.find? fun y => decide (y < x) && s.flag Reg.geomClockSteps y).getD x

/-- POWER_STATUS.STEP and SHED, DIP_STATUS.SHED and HOST_STATUS.FETCH_HELD follow what they report (R93, R474, R481, R488, R503). -/
def State.syncPower (s : State) : State :=
  let st := s.fieldOf Reg.powerStatus 2 0
  let held := s.flag Reg.hostStatus 3 || decide (4 ≤ s.shedLevel) || s.flag Reg.fltLatch 0 || s.entry.isSome || decide (2 ≤ st)
  (((s.setField Reg.powerStatus 18 16 s.effStep).setField Reg.powerStatus 10 8 s.shedLevel).setFlag Reg.dipStatus 0
    (decide (1 ≤ s.shedLevel))).setFlag Reg.hostStatus 4 held

/-- The power state takes a value. -/
def State.setPower (s : State) (st : Nat) : State := (s.setField Reg.powerStatus 2 0 st).syncPower

/-! ## Wakes and privileged sources (R485–R491) -/

/-- A wake of NAP, DEEP or protected off begins (R491, R492): cores restart on the fast oscillator, the root PLL is to lock, after NAP to the
reference it had (R480). -/
def State.wakeNow (s : State) (cause : Nat) : State :=
  let st := s.fieldOf Reg.powerStatus 2 0
  let s := if st = 2 then s else s.deepRegs
  let s := (s.setFlag Reg.powerStatus 20 false).setFlag Reg.clkStatus 0 false
  let s := if st = 2 then s else s.setFlag Reg.clkStatus 1 false
  ({ s with wakeHeld := none, tooHot := false }.noteWake cause).setPower 6

/-- The hottest logic-die sensor: its index (4 × die + sensor) and its reading. -/
def State.hottest (s : State) : Nat × Nat :=
  (List.range 100).foldl (fun m i => if m.2 < s.fieldOf (Reg.thermC i) 7 0 then (i, s.fieldOf (Reg.thermC i) 7 0) else m)
    (0, s.fieldOf (Reg.thermC 0) 7 0)

/-- R479, R502: protected off may be left: the shed level is 0, and one entered for temperature has cooled. -/
def State.offOver (s : State) : Bool :=
  s.shedLevel == 0 && (!s.tooHot || decide (s.hottest.2 ≤ s.fieldOf Reg.thermCfg 7 0))

/-- A wake source occurs in a state it wakes (R490); in protected off it is held until that may be left. -/
def State.wakeFrom (s : State) (cause : Nat) : State :=
  if s.fieldOf Reg.powerStatus 2 0 = 4 && !s.offOver then { s with wakeHeld := some (s.wakeHeld.getD cause) } else s.wakeNow cause

/-- A wake source with number `cause` occurs; `from` lists the states it wakes (R490). A privileged one abandons an entry (R489). -/
def State.wakeSource (s : State) (cause : Nat) (privileged : Bool) (wakes : List Nat) : State :=
  let st := s.fieldOf Reg.powerStatus 2 0
  if s.entry.isSome then (if privileged then { s with abortDue := true } else s)
  else if !wakes.contains st then s
  else if st = 1 then s.leaveIdle cause
  else s.wakeFrom cause

/-- A held wake takes effect once protected off may be left (R479). -/
def State.heldWake (s : State) : State :=
  match s.wakeHeld with
  | some c => if s.fieldOf Reg.powerStatus 2 0 = 4 && s.offOver then s.wakeNow c else s
  | none => s

/-! ## Requests of the operator (R486) -/

def State.anyBusy (s : State) : Bool := !s.slots.isEmpty || !s.comps.isEmpty

/-- A request is acted on (R486, R490): ACTIVE wakes; NAP or DEEP begins an entry, or is ignored. -/
def State.actReq (s : State) (t : Nat) : State :=
  let st := s.fieldOf Reg.powerStatus 2 0
  if t = 0 then (if st = 2 || st = 3 || st = 4 then s.wakeFrom 6 else s)
  else if st = t then s
  else if s.owned || s.anyBusy || s.shedLevel != 0 || st = 4 || s.flag Reg.fltLatch 0 then s.setFlag Reg.powerStatus 22 true
  else ({ s.setFlag Reg.powerStatus 22 false with entry := some t, abortDue := false }).setPower 5

/-- A request held during an entry or a wake is acted on (R486). -/
def State.actHeld (s : State) : State :=
  match s.heldReq with
  | some t => ({ s with heldReq := none }).actReq t
  | none => s

/-- A write of POWER_REQ with TARGET `t`. Keeper firmware carries the change out (R4): while it does not run the register takes the value and nothing
follows (log 37). -/
def State.powerWrite (s : State) (t : Nat) : State :=
  let s := s.setField Reg.powerReq 2 0 t
  if !s.keeperRuns then s
  else if s.entry.isSome || s.fieldOf Reg.powerStatus 2 0 = 6 then { s with heldReq := some t } else s.actReq t

/-- POWER_REQ_NAP (R486). -/
def execPowerReqNap (s : State) : Host.Outcome State Fault Refusal := .next (s.powerWrite 2)

/-- POWER_REQ_DEEP (R486). -/
def execPowerReqDeep (s : State) : Host.Outcome State Fault Refusal := .next (s.powerWrite 3)

/-- POWER_REQ_ACTIVE (R490). -/
def execPowerReqActive (s : State) : Host.Outcome State Fault Refusal := .next (s.powerWrite 0)

/-- The quiet point of R488: no descriptor has started, no core runs, no fabric transaction is outstanding. -/
def State.quiet (s : State) : Bool := s.slots.all (fun e => e.2.stage ≠ .started) && s.noLaunch && s.reqs.isEmpty

/-- STATE_ENTRY_QUIET (R488, R489): the quiet point is reached. A privileged source that occurred meanwhile abandons the entry at AP1;
otherwise the steps are taken and the state committed. -/
def execStateEntryQuiet (s : State) : Host.Outcome State Fault Refusal :=
  match s.entry with
  | none => .next s
  | some t =>
    if !s.quiet then .next s
    else if s.abortDue then
      .next (({ s with entry := none, abortDue := false }.incReg Reg.powerAborts 1).setPower 0).actHeld
    else
      let s := { s with entry := none }
      let s := if t = 2 then s.napLoss else (s.allPortsDown.deepLoss.setFlag Reg.hostStatus 0 false)
      .next (s.setPower t).actHeld

/-- IDLE_ENTRY (R485): IDLE_HOLD_US has passed since the last core ended; the part enters IDLE when the event is set and every core is
idle with an empty queue. -/
def execIdleEntry (s : State) : Host.Outcome State Fault Refusal :=
  if s.flag Reg.powerCtl 16 && s.sync.event (s.fieldOf Reg.powerCtl 9 0) && s.fieldOf Reg.powerStatus 2 0 == 0 && s.entry.isNone &&
      s.cores.all (fun e => e.2.run.isNone && e.2.queue.isEmpty) then
    .next (s.setPower 1)
  else .next s

/-- CELLAR_TIMER (R489, R490): the armed timer expires. -/
def execCellarTimer (s : State) : Host.Outcome State Fault Refusal :=
  .next (if s.flag Reg.powerTimer 63 then s.wakeSource 5 true [1, 2, 3, 4] else s)

/-- I3C_PRIVATE_WRITE (R490, R538): the board controller's wake, an edge. -/
def execI3cPrivateWrite (s : State) : Host.Outcome State Fault Refusal := .next (s.wakeSource 7 false [2, 3])

/-! ## Protected off (R478) -/

/-- Every fetched descriptor without a record ends CANCELLED. -/
def State.cancelFetched (s : State) : State :=
  s.slots.foldl (fun s e => s.setSlot e.1 { e.2 with cancelled := true, stage := .ended stCancelled 0 }) s

/-- The steps of R478; fetched descriptors end, but not under the fault latch (R503). -/
def State.protectedOff (s : State) : State :=
  let s := s.allPortsDown.deepLoss
  let s := if s.flag Reg.fltLatch 0 then s else s.cancelFetched
  ({ s.ringsOff with entry := none, abortDue := false }.setFlag Reg.hostStatus 0 false).setPower 4

/-! ## Supply (R471–R475) -/

/-- The record of a change of shed level (R475, R497). -/
def State.shedRecord (s : State) (rose : Bool) : State :=
  let l := s.shedLevel
  if l = 5 && rose then s.raise 0x30 13 12 0 (s.reg Reg.powerInput) 0
  else s.raise 0 (l + 8 * b2n rose) 12 0 (s.reg Reg.powerInput) 0

/-- SHED_TRIP (R474, R475, R478): V_in has stayed below threshold `t` (0 for 43.0 V to 4 for 38.0 V) for 20 µs. -/
def execShedTrip (t : Fin 5) (s : State) : Host.Outcome State Fault Refusal :=
  if bit s.tripped t.val then .next s
  else
    let s : State := { s with tripped := setBits s.tripped t.val t.val 1 }
    let s := s.incReg (Reg.powerShedCount (s.shedLevel - 1)) 1
    let s := s.syncPower
    if s.shedLevel = 5 then .next (s.protectedOff.shedRecord true)
    else
      let s := s.shedRecord true
      .next (if s.fieldOf Reg.powerStatus 2 0 = 3 && s.entry.isNone then s.noteWake 4 else s.wakeSource 4 true [1, 2, 4])

/-- SHED_CLEAR (R474, R475, R479): V_in has stayed at or above threshold `t` plus 0.5 V for 20 µs. -/
def execShedClear (t : Fin 5) (s : State) : Host.Outcome State Fault Refusal :=
  if !bit s.tripped t.val then .next s
  else
    let s := ({ s with tripped := setBits s.tripped t.val t.val 0 }.syncPower.endHolds).shedRecord false
    .next (s.wakeSource 4 true [1, 2, 3, 4]).heldWake

/-- A quotient whose rounding the spec does not state: the floor, or one more where it is not exact. -/
def State.ratio (s : State) (a b : Nat) : Nat × State :=
  if b = 0 || a % b = 0 then (a / b, s) else let (f, s) := s.takeFree; (a / b + f % 2, s)

/-- INPUT_SAMPLE (R472): V_in in 10 mV, current in 10 mA and power in W. -/
def execInputSample (v i p : Fin 65536) (s : State) : Host.Outcome State Fault Refusal :=
  let s : State := { s with inputs := ((v.val, i.val, p.val) :: s.inputs).take 10000, energy := s.energy + p }
  let l := s.inputs.take 10
  let (v, s) := s.ratio ((l.map fun x => x.1).sum) l.length
  let (i, s) := s.ratio ((l.map fun x => x.2.1).sum) l.length
  let (p, s) := s.ratio ((l.map fun x => x.2.2).sum) l.length
  .next ((s.setReg Reg.powerInput (p * 2 ^ 48 + i * 2 ^ 16 + v)).setReg Reg.powerEnergy (s.energy / 100000))

/-- CAP_CHECK (R483): the average of the last WINDOW_MS against the cap. -/
def execCapCheck (s : State) : Host.Outcome State Fault Refusal :=
  let w := s.fieldOf Reg.powerCap 23 16
  let l := (s.inputs.take (100 * w)).map fun x => x.2.2
  let cap := s.fieldOf Reg.powerCap 12 0
  let above := decide (cap * l.length < l.sum)
  let low := decide (100 * l.sum < 97 * cap * l.length)
  let s : State := { s with capBelow := if low then s.capBelow + 1 else 0 }
  let s := s.setFlag Reg.powerStatus 21 (above && s.slower s.capStep == s.capStep)
  let step :=
    if above then s.slower s.capStep
    else if decide (10 * w ≤ s.capBelow) && decide (s.fieldOf Reg.clkCtl 2 0 ≤ s.faster s.capStep) then s.faster s.capStep
    else s.capStep
  .next (if step = s.capStep then s else ({ s with capStep := step }.incReg Reg.powerCapSteps 1).syncPower)

/-- The cycles of core `k`, and those in which its array held an MX instruction. -/
def State.busyOf (s : State) (k : Nat) : Nat × Nat :=
  let c := s.core k
  let idle := s.reg (Reg.arrayIdle k) + if c.mxq.isEmpty then s.cycles k - c.idleAt else 0
  (s.cycles k, s.cycles k - idle)

/-- The cores in service with what they count now. -/
def State.busyNow (s : State) : Tbl (Nat × Nat) := ((List.range 256).filter s.inService).map fun k => (k, s.busyOf k)

/-- Core cycles of the cores in service since the last record, and those in which their arrays held an MX instruction; of a core that has been reset
since, from its reset on. -/
def State.busyCycles (s : State) : Nat × Nat :=
  s.busyNow.foldl
    (fun n e =>
      let old := Tbl.get (0, 0) s.tbusy e.1
      (n.1 + (e.2.1 - old.1), n.2 + (e.2.2 - old.2)))
    (0, 0)

/-- The hottest stack: its number and its temperature. -/
def State.hotStack (s : State) : Nat × Nat :=
  (List.range 16).foldl
    (fun m i => if m.2 < s.fieldOf (Reg.memStackStatus i) 39 32 then (i, s.fieldOf (Reg.memStackStatus i) 39 32) else m)
    (0, s.fieldOf (Reg.memStackStatus 0) 39 32)

/-- TELEMETRY_RECORD (R473): TELEM_US has passed. -/
def execTelemetryRecord (s : State) : Host.Outcome State Fault Refusal :=
  if !(s.flag Reg.telemCfg 63) || s.fieldOf Reg.powerCtl 63 48 = 0 || s.shedLevel ≠ 0 || !s.linkUp then .next s
  else if !s.ringFree Reg.telemCfg Reg.telemTail Reg.telemHead then
    .next ({ s with tlost := s.tlost + 1 }.incReg Reg.telemLost 1)
  else
    let (n, m) := s.busyCycles
    let (share, s) := s.ratio (65535 * m) n
    let q := nextSeq s.tseq
    let hot := s.hottest
    let st := s.hotStack
    let rec_ := leBytes 8 s.now ++ leBytes 4 q ++ leBytes 4 s.tlost ++ leBytes 8 (s.reg Reg.powerInput) ++
      leBytes 8 (s.reg Reg.powerEnergy) ++ leBytes 8 (s.reg Reg.powerStatus) ++ leBytes 2 (hot.1 / 4 * 2 ^ 8 + hot.2) ++
      leBytes 2 (st.1 * 2 ^ 8 + st.2) ++ leBytes 2 (min share 65535) ++ leBytes 2 (s.fieldOf Reg.powerCap 12 0) ++ leBytes 16 0
    let t := s.reg Reg.telemTail
    let s := s.hostStore (s.reg Reg.telemBase + 64 * t) rec_
    .next { s.setReg Reg.telemTail ((t + 1) % s.ringSize Reg.telemCfg) with tseq := q, tlost := 0, tbusy := s.busyNow }

/-! ## Temperature (R502) -/

/-- Above ALARM_C the cores are slowed at once; the first time the record of the alarm is raised. The Bool says that it was. -/
def State.thermalAlarm (s : State) (i t : Nat) : State × Bool :=
  let s := { s with thermStep := 4 }.syncPower
  if s.alarmed then (s, false) else (({ s with alarmed := true }).internal 0 0 0 0x30 (i / 4) (i % 4) 0 t, true)

/-- The thresholds against the hottest sensor, each by itself (R502): above ALARM_C slows the cores at once and is a privileged source; above
TRIP_C enters protected off, its record after the alarm's. -/
def State.thermalCheck (s : State) : State :=
  let (i, t) := s.hottest
  let alarm := s.fieldOf Reg.thermCfg 15 8
  let trip := s.fieldOf Reg.thermCfg 23 16
  let (s, new) := if alarm < t then s.thermalAlarm i t else ({ s with alarmed := false }, false)
  if trip < t then
    if s.fieldOf Reg.powerStatus 2 0 = 4 then { s with tooHot := true }
    else ({ s.protectedOff with tooHot := true }).internal 0 0 0 0x31 (i / 4) (i % 4) 0 t
  else if new then s.wakeSource 3 true [1, 2, 3, 4]
  else if alarm < t then s
  else s.heldWake

/-- THERMAL_SAMPLE (R502): one sample of the 100 sensors, sensor s of die d at 4d + s; each reports the mean of its last ten. -/
def execThermalSample (l : List (Fin 256)) (s : State) : Host.Outcome State Fault Refusal :=
  if l.length ≠ 100 then .fault .malformed
  else
    let s : State := { s with temps := ((l.map fun (x : Fin 256) => x.val) :: s.temps).take 10 }
    let s := (List.range 100).foldl
      (fun s i =>
        let (v, s) := s.ratio ((s.temps.map fun (x : List Nat) => x.getD i 0).sum) s.temps.length
        s.setReg (Reg.thermC i) v) s
    .next s.thermalCheck

/-- THERMAL_STEP (R502): 1 ms has passed above WARN_C, or at or below WARN_C − 3 °C. -/
def execThermalStep (s : State) : Host.Outcome State Fault Refusal :=
  let t := s.hottest.2
  let warn := s.fieldOf Reg.thermCfg 7 0
  let step := if warn < t then s.slower s.thermStep else if t + 3 ≤ warn then s.faster s.thermStep else s.thermStep
  .next ({ s with thermStep := step }.syncPower).thermalCheck

/-! ## Clocks -/

/-- A write of CLK_CTL (R480, R481, R491): REF_SEL; CORE_STEP where its bit in GEOM_CLOCK_STEPS is set; CORE_SRC 1 once the root PLL is
locked. -/
def State.clkWrite (s : State) (v : Nat) : State :=
  let s := s.setFlag Reg.clkCtl 8 (bit v 8)
  let s := if s.flag Reg.geomClockSteps (bits v 2 0) && decide (bits v 2 0 ≤ 4) then s.setField Reg.clkCtl 2 0 (bits v 2 0) else s
  let s := if bit v 16 && s.flag Reg.clkStatus 0 then s.setFlag Reg.powerStatus 20 true else s
  s.syncPower

/-- CORE_STEP_WRITE (R481). -/
def execCoreStepWrite (v : Word) (s : State) : Host.Outcome State Fault Refusal := .next (s.clkWrite v.toNat)

/-- CORE_SRC (R491): a write of CLK_CTL with CORE_SRC 1. -/
def execCoreSrc (v : Word) (s : State) : Host.Outcome State Fault Refusal := .next (s.clkWrite (setBits v.toNat 16 16 1))

/-- Steps 1 and 2 of R513: the boot ROM waits for an image once the root is locked and the link is up. -/
def State.bootWaits (s : State) : State :=
  let s := s.bootStep1
  if s.reg Reg.secBootStatus = 0 && s.flag Reg.clkStatus 0 && s.linkUp then s.setReg Reg.secBootStatus 1 else s

/-- ROOT_PLL_LOCK (R480, R491, R513): the root PLL locks. The reference is taken at start-up and at exit from DEEP; at start-up the cores
go over to the root at once. -/
def execRootPllLock (s : State) : Host.Outcome State Fault Refusal :=
  if s.flag Reg.clkStatus 0 || s.flag Reg.fltLatch 0 || !s.powered then .next s
  else
    let s := s.setFlag Reg.clkStatus 0 true
    let s := if s.ready then s else s.setFlag Reg.clkStatus 1 (s.flag Reg.clkCtl 8 && s.flag Reg.clkStatus 2)
    let s := if s.fieldOf Reg.powerStatus 2 0 = 6 then s else s.setFlag Reg.powerStatus 20 true
    .next s.syncPower.bootWaits

/-- REFCLK_LOSS (R482): the 100 MHz input is lost; a PLL locked to it goes over to the resonator. -/
def execRefclkLoss (s : State) : Host.Outcome State Fault Refusal :=
  let s' := s.setFlag Reg.clkStatus 2 false
  .next (if s.flag Reg.clkStatus 1 then (s'.setFlag Reg.clkStatus 1 false).internal 0 12 0 0x22 24 0 0 0 else s')

/-- REFCLK_RETURN (R482): the input is detected again. -/
def execRefclkReturn (s : State) : Host.Outcome State Fault Refusal := .next (s.setFlag Reg.clkStatus 2 true)

/-! ## The fault latch (R503) -/

/-- The latch sets for a cause (1 mismatch, 2 hang, 3 clock), with its record. -/
def State.latch (s : State) (cause event value : Nat) : State :=
  (((s.setFlag Reg.fltLatch 0 true).setFlag Reg.fltLatch cause true).syncPower).internal 0 0 0 event 24 0 0 value

/-- ROOT_LOCK_LOSS (R478, R503): root lock is lost for 10 µs; the latch sets and the part enters protected off. -/
def execRootLockLoss (s : State) : Host.Outcome State Fault Refusal :=
  if s.flag Reg.fltLatch 0 || !s.flag Reg.clkStatus 0 then .next s
  else
    let s := (s.setReg Reg.clkStatus (4 * b2n (s.flag Reg.clkStatus 2))).setFlag Reg.powerStatus 20 false
    .next (s.latch 3 0x23 0).protectedOff

/-- HEARTBEAT_MISS (R503): keeper firmware has missed its heartbeat for 100 ms; `last` is when the last one came. -/
def execHeartbeatMiss (last : Word) (s : State) : Host.Outcome State Fault Refusal :=
  .next (if s.flag Reg.fltLatch 0 then s else s.latch 2 0x33 last.toNat)

/-- LOCKSTEP_MISMATCH (R503): the management cores disagree in cycle `cycle`. -/
def execLockstepMismatch (cycle : Word) (s : State) : Host.Outcome State Fault Refusal :=
  .next (if s.flag Reg.fltLatch 0 then s else s.latch 1 0x32 cycle.toNat)

end Sys2Proof.Machine
end

