-- ==== Sys2Proof/Machine/Launch.lean ====
section
/-! DEFINITION. LAUNCH (05_core_programs.md R150–R159, R223–R224, R238, R35): its checks, its entry into the queues of its cores, the start of
a program, its completion and its watchdog; the operator's control of a core. -/

namespace Sys2Proof.Machine

/-- The fields of a LAUNCH (R453). -/
def Slot.progLen (v : Slot) : Nat := bits (v.word 4) 13 0
def Slot.coreBase (v : Slot) : Nat := bits (v.word 4) 23 16
def Slot.coreCount (v : Slot) : Nat := bits (v.word 4) 32 24
def Slot.tileCount (v : Slot) : Nat := bits (v.word 4) 63 39

/-- R35, R150, R223: a field of the LAUNCH is out of range. -/
def State.launchBad (s : State) (v : Slot) : Bool :=
  let queue := bit (v.word 4) 15
  v.word 2 % 8 != 0 || v.progLen == 0 || decide (8192 < v.progLen) ||
  v.coreCount == 0 || decide (s.fieldOf Reg.geomCores 8 0 < v.coreBase + v.coreCount) ||
  (queue && v.tileCount == 0) || (!queue && v.tileCount != 0) || decide (2 ^ 24 < v.tileCount) ||
  decide (4 < bits (v.word 4) 35 33) || bits (v.word 5) 17 16 == 3 ||
  (bits (v.word 5) 63 32 != 0 && bits (v.word 5) 63 32 != s.reg Reg.geomEpoch)

/-- The logical cores a LAUNCH addresses. -/
def Slot.cores (v : Slot) : List Nat := (List.range v.coreCount).map (v.coreBase + ·)

/-- R151: the LAUNCH in slot `i` enters the queues of its cores in order, as far as they have room. -/
def State.enterQueues : Nat → State → Nat → State
  | 0, s, _ => s
  | n + 1, s, i =>
    let l := s.lrun i
    match l.cores[l.entered]? with
    | none => s.setStage i .started
    | some k =>
      let c := s.core k
      let next := { l with entered := l.entered + 1 }
      if l.done.contains l.entered then State.enterQueues n (s.setRun i next) i
      else if 4 ≤ c.queue.length then s
      else State.enterQueues n (((s.setCore k { c with queue := c.queue ++ [(i, l.entered)] }).setRun i next).leaveIdle 9) i

/-- LAUNCH (R30, R35, R150, R151): the LAUNCH in slot `i` is checked, and enters the queues of its cores. -/
def execLaunch (i : Nat) (s : State) : Host.Outcome State Fault Refusal :=
  let v := s.slot i
  if !s.opReady i 1 then .next s
  else if v.step = 0 then
    match firstBad
        [if s.launchBad v then some stInvalid else none, s.readBad true (v.word 2) (8 * v.progLen),
         if v.cores.any s.retPending then some stRetired else none] with
    | some st => .next (s.endSlot i st 0)
    | none =>
      let s := (s.setSlot i { v with step := 1 }).setRun i { LaunchRun.none with cores := v.cores.map s.phys }
      .next (s.enterQueues (v.coreCount + 1) i)
  else .next (s.enterQueues (v.coreCount + 1) i)

/-! ## Start of a program -/

/-- A core's store takes `n` words from the byte list `bs` (R122, R151); writing a word clears an error in it. -/
def State.loadProg (s : State) (k n : Nat) (bs : List Byte) : State :=
  (List.range n).foldl
    (fun s p =>
      let c := s.core k
      { s.setCore k { c with prog := Tbl.set 0 c.prog p (BitVec.ofNat 64 (leNat ((bs.drop (8 * p)).take 8))) } with
        ue := Tbl.set false s.ue (progPlace k p) false })
    s

/-- A core's Cistern is empty: every block reads +0 (R224, R231). -/
def State.clearCistern (s : State) (k : Nat) : State :=
  let p := fun (x : Nat) => decide (sramPlace (cisternBase k) ≤ x) && decide (x < sramPlace (cisternBase k + 0x1000000))
  (List.range 4).foldl (fun s i => s.setReg (Reg.cisTouched k i) 0) (s.loseMem p)

/-- R223, R224: the Cistern control of a LAUNCH takes effect on core `k`. -/
def State.cisControl (s : State) (k : Nat) (v : Slot) : State :=
  let ctl := bits (v.word 5) 17 16
  let mb := bits (v.word 7) 31 16
  if ctl = 1 then s.setField (Reg.cisStatus k) 63 48 mb
  else if ctl = 2 then
    ((((s.clearCistern k).setReg (Reg.cisStatus k) (mb * 2 ^ 48 + b2n (bit (v.word 5) 18) * 2 + 1)).setReg (Reg.cisSeed k) (v.word 6)).setReg
      (Reg.cisStream k) (bits (v.word 7) 15 0)).incReg (Reg.cisOpens k) 1
  else s

/-- The registers at the start of a program (R152). -/
def State.startRegs (s : State) (k ix lcore : Nat) (v : Slot) : Tbl Word :=
  [(1, ix), (2, v.coreCount), (3, lcore), (4, v.tileCount), (32, v.word 3), (33, s.localAddr (scratchBase k)),
   (34, s.localAddr (landingBase k)), (35, s.localAddr (cisternBase k)), (36, s.localAddr syncBase)].foldl
    (fun t e => Tbl.set 0 t e.1 (BitVec.ofNat 64 e.2)) []

/-- Core `k` starts the LAUNCH of slot `i` at index `ix`, whose program is in its store (R152, R223); `rest` is what it still queues. -/
def State.beginRun (s : State) (k i ix : Nat) (rest : List (Nat × Nat)) : State :=
  let v := s.slot i
  let lcore := v.coreBase + ix
  let t := s.cisControl k v
  let t := t.setCore k { t.core k with
    regs := s.startRegs k ix lcore v, pend := [], handles := [], progAddr := some (v.word 2), pc := 0, inSync := false, waitAt := none,
    run := some ⟨i, ix, lcore, v.progLen, bits (v.word 4) 35 33, s.reg Reg.geomEpoch, false, false⟩, queue := rest }
  (t.setReg (Reg.coreTag k) v.tag).markRun i fun l => { l with t0 := some (l.t0.getD s.now) }

/-- Core `k` starts the built-in program of the descriptor in slot `i` (R201, R209, R267): a MOVE's overwrites the top of its Landing, an UPDATE's
banks 40–47 of its scratch. Its text fills the store, so that no LAUNCH finds its own kept there. -/
def State.beginBuiltin (s : State) (k i ix : Nat) (rest : List (Nat × Nat)) : State :=
  let v := s.slot i
  let s := if v.opcode = 2 then s.voidOut (260 + k) else if v.opcode = 7 then s.voidOut (4 + k) else s
  (s.setCore k { s.core k with
    regs := [], pend := [], handles := [], progAddr := none, pc := 0, inSync := false, waitAt := none,
    run := some ⟨i, ix, s.logical k, 0, 0, s.reg Reg.geomEpoch, false, true⟩, queue := rest }).setReg (Reg.coreTag k) v.tag

/-- The text of a program in another room: the LOADs core `k` sends for it (R151, R395). -/
def State.askProg (s : State) (k i : Nat) : State :=
  let v := s.slot i
  let c := s.core k
  let n := 8 * v.progLen
  let a : Access :=
    ⟨c.nextId, .prog, v.word 2, n, i, 0, 0, 0, Handle.none, 0, 0, true, (lineParts (v.word 2) n).length, [], false, false, 0, 0⟩
  (s.setCore k { c with nextId := c.nextId + 1, outs := c.outs ++ [a] }).loadRange (.core k a.id) a.addr n

/-- The text that core `k` asked for has come, and its LAUNCH starts; a refusal ends the LAUNCH (R392), and bytes of a dead target are the error
value (R156). -/
def State.progCame (s : State) (k i ix : Nat) (rest : List (Nat × Nat)) (a : Access) : State :=
  let s := s.setCore k ((s.core k).without a.id)
  if a.num ≠ i then s
  else if a.refused then (s.setSlot i { s.slot i with refused := true }).stopLaunch i
  else
    let s := if a.bad then s.markDead i else s
    (s.loadProg k (s.slot i).progLen ((List.range a.size).map fun j => cellByte a.got (a.addr + j))).beginRun k i ix rest

/-- LAUNCH_START (R151, R152, R223): core `k` runs nothing and takes the next LAUNCH of its queue. Its program is copied unless it is kept; a text
in another room is asked for, and the LAUNCH starts once it has come. -/
def execLaunchStart (k : Fin 256) (s : State) : Host.Outcome State Fault Refusal :=
  let c := s.core k
  match c.run, c.queue with
  | none, (i, ix) :: rest =>
    let v := s.slot i
    let a := v.word 2
    let n := 8 * v.progLen
    if s.coresHeld || (v.opcode = 1 && s.hostHeld [(a, n)] && !(bit (v.word 4) 14 && c.progAddr == some a)) then .next s
    else if v.opcode ≠ 1 then .next (s.beginBuiltin k i ix rest)
    else if bit (v.word 4) 14 && c.progAddr == some a then .next (s.beginRun k i ix rest)
    else if isHost a || s.isLocal a then
      let t := s.descNotes 3 a n
      let t := if s.descDead v a n then t.markDead i else t
      .next ((t.loadProg k v.progLen (s.descBytes v a n)).beginRun k i ix rest)
    else
      match c.outs.find? fun a => a.kind = .prog with
      | none => .next (s.askProg k i)
      | some a => if a.left ≠ 0 then .next s else .next (s.progCame k i ix rest a)
  | _, _ => .next s

/-! ## Completion -/

/-- The status and info of a LAUNCH whose cores have all ended (R155, R156). -/
def LaunchRun.outcome (l : LaunchRun) : Nat × Nat :=
  if l.cancelled then (stCancelled, 0)
  else if l.retired then (stRetired, 0)
  else if l.mismatch then (stMismatch, 0)
  else
    match l.fault with
    | some (cause, ix) => (causeStatus cause, cause * 2 ^ 8 + ix)
    | .none => (if l.dead then stDead else if l.cold then stCold else if l.clamped then stClamped else stOk, 0)

/-- LAUNCH_COMPLETE (R154, R156): the LAUNCH in slot `i` has ended on all its cores, and its dips are resolved. -/
def execLaunchComplete (i : Nat) (s : State) : Host.Outcome State Fault Refusal :=
  let v := s.slot i
  if v.opcode = 1 && (v.stage = .started || v.stage = .ready && decide (v.step = 1)) && s.launchOver i then
    let (st, info) := (s.lrun i).outcome
    .next (s.endSlot i st info)
  else .next s

/-- A started LAUNCH is cancelled on all its cores (R157, R158). -/
def State.cancelLaunch (s : State) (i : Nat) : State := (s.markRun i fun l => { l with cancelled := true }).stopLaunch i

/-- The indexes of the cores that run the LAUNCH in slot `i` now. -/
def State.runningOn (s : State) (i : Nat) : List Nat :=
  ((s.lrun i).cores.zipIdx.filter fun e => (s.core e.1).run.any fun r => r.launch == i).map Prod.snd

/-- WATCHDOG_EXPIRY (R157, R476): `watchdog` × 64 µs have passed since the first core of the LAUNCH in slot `i` started; the time stands still
at shed level 4 and above. The record names the cores still running. -/
def execWatchdogExpiry (i : Nat) (s : State) : Host.Outcome State Fault Refusal :=
  let v := s.slot i
  let l := s.lrun i
  let left := s.runningOn i
  if v.opcode ≠ 1 || v.step = 0 || bits (v.word 5) 15 0 = 0 || l.t0.isNone || decide (l.done.length = l.cores.length) || l.cancelled ||
      decide (4 ≤ s.fieldOf Reg.powerStatus 10 8) then .next s
  else .next ((s.raise stCancelled 0 2 (v.ctx / 8) v.tag (left.length + left.headD 0 * 2 ^ 16)).cancelLaunch i)

/-! ## Built-in programs (R201, R209, R267) -/

/-- The cores a descriptor's built-in program is entered on are recorded, and the program enters their queues as a LAUNCH would (R151). -/
def State.enterBuiltin (s : State) (i : Nat) (ks : List Nat) : State :=
  ((s.setSlot i { s.slot i with step := 1 }).setRun i { LaunchRun.none with cores := ks }).enterQueues (ks.length + 1) i

/-- Its entry into queues that were full goes on. -/
def State.enterOn (s : State) (i : Nat) : State := s.enterQueues ((s.lrun i).cores.length + 1) i

/-- The physical cores that run the built-in program of slot `i` and can go on with it. -/
def State.builtinCores (s : State) (i : Nat) : List Nat :=
  (s.lrun i).cores.filter fun k => ((s.core k).run.any fun r => r.launch == i && !r.stopping) && !s.flag (Reg.coreCtl k) 0

/-- The core that takes the next piece: which of those that run comes first is not fixed. -/
def State.builtinTaker (s : State) (i : Nat) : State × Option Nat :=
  match s.builtinCores i with
  | [] => (s, none)
  | [k] => (s, some k)
  | l =>
    let (f, s) := s.takeFree
    (s, l[f % l.length]?)

/-- The shared counter is exhausted: the program ends on every core that runs it. -/
def State.endBuiltin (s : State) (i : Nat) : State := (s.builtinCores i).foldl State.coreOver s

/-- The program of a descriptor whose work is done ends on its cores; once it has ended on all of them, and its dips are resolved (R91), the
descriptor ends: a retired core and a mismatch before the status of its work. -/
def State.builtinOver (s : State) (i st info : Nat) : State :=
  let s := s.endBuiltin i
  if !s.launchOver i then s
  else if (s.lrun i).retired then s.endSlot i stRetired 0
  else if (s.lrun i).mismatch then s.endSlot i stMismatch 0
  else s.endSlot i st info

/-- `n` VX instructions of a built-in program issue on core `k` and complete. Those that the sampler picks (R76, R85) take a dip of the element
that `cell` gives, for a lane chosen as R86 chooses it. The cycles the vector engine is busy are not stated. -/
def State.builtinVx (s : State) (k i n : Nat) (cell : Nat → State → Option DipCell) : State :=
  let c := s.core k
  let rate := s.fieldOf Reg.dipCtl 15 12
  let s := if s.dipOn k then
      ((List.range n).filter fun j => s.sampled k rate (c.vxn + j)).foldl
        (fun s j => match cell (rand16 (s.reg Reg.dipSeed) k 0xFFFF (c.vxn + j)) s with
          | none => s
          | some x => { s with dips := s.dips ++ [Dip.mk k i 5 [x]], free := s.free + 1 }) s
    else s
  let (f, s) := s.takeFree
  ((s.setCore k { s.core k with vxn := c.vxn + n }).incReg (Reg.vecVxDone k) n).incReg (Reg.vecBusy k) f

/-! ## Control of a core (R159) -/

/-- CORE_CTL of core `k` takes a word: HALT is written, and PROG_FLUSH 1 empties the program store. -/
def State.coreCtlWrite (s : State) (k v : Nat) : State :=
  let s := s.setFlag (Reg.coreCtl k) 0 (bit v 0)
  if bit v 4 then s.setCore k { s.core k with progAddr := none } else s

/-- HALT (R159): a write of CORE_CTL of core `k`. -/
def execHalt (k : Fin 256) (v : Word) (s : State) : Host.Outcome State Fault Refusal := .next (s.coreCtlWrite k v.toNat)

/-- PROG_FLUSH (R159): a write of CORE_CTL of core `k` with PROG_FLUSH 1; `halt` is its HALT bit. -/
def execProgFlush (k : Fin 256) (halt : Bool) (s : State) : Host.Outcome State Fault Refusal := .next (s.coreCtlWrite k (b2n halt + 16))

end Sys2Proof.Machine
end

