-- ==== Sys2Proof/Machine/Tensor.lean ====
section
/-! DEFINITION. Tensors in memory (07_layouts_and_landing.md R182–R192, R211): tensor descriptors, owner tables, the places of elements and
scales, extents, and the reading and writing of elements on behalf of a descriptor. -/

namespace Sys2Proof.Machine

/-! ## Tensor descriptors (R182–R186) -/

/-- Bytes `o` to `o + n - 1` of a block as a number. -/
def field (bs : List Byte) (o n : Nat) : Nat := leNat ((bs.drop o).take n)

/-- Reserved address bits are set (R183). -/
def badAddr (a : Nat) : Bool := bits a 47 46 != 0

/-- R182: the fields of a tensor descriptor; none when its format is not 0x01 or a reserved field is not zero. -/
def parseTD (bs : List Byte) : Option TDesc :=
  let h := field bs 0 8
  let rank := bits h 15 12
  let pick := fun (f : Nat → Nat) (dflt : Nat) => (List.range 8).map fun d => if d < rank then f d else dflt
  if bits h 63 56 ≠ 1 || bits h 55 19 ≠ 0 || bit h 11 || field bs 0x78 8 ≠ 0 ||
      [8, 0x10, 0x18].any (fun o => badAddr (field bs o 8)) then none
  else
    match EType.ofCode (bits h 7 0), Block.ofCode (bits h 10 8) with
    | some ty, some block =>
      some { raw := bs, ty := ty, block := block, rank := rank, owned := bit h 18, e5inf := bit h 17, hf19Rne := bit h 16,
             base := field bs 8 8, scaleBase := field bs 0x10 8, ownerTable := field bs 0x18 8, version := field bs 0x20 8,
             size := pick (fun d => field bs (0x28 + 4 * d) 4) 1, stride := pick (fun d => field bs (0x48 + 6 * d) 6) 0 }
    | _, _ => none

/-- Puts a (stride, size) pair in its place by stride. -/
def strideIn (x : Nat × Nat) : List (Nat × Nat) → List (Nat × Nat)
  | [] => [x]
  | y :: r => if x.1 ≤ y.1 then x :: y :: r else y :: strideIn x r

/-- Each stride is at least the previous stride times the previous size. -/
def strideSteps : List (Nat × Nat) → Bool
  | x :: y :: r => decide (x.1 * x.2 ≤ y.1) && strideSteps (y :: r)
  | _ => true

/-- The elements of a tensor do not alias (R186): its dimensions of size above 1, by increasing stride. A stride of 0 puts every index of
such a dimension at one element. -/
def TDesc.unaliased (d : TDesc) : Bool :=
  let l := ((d.stride.zip d.size).filter fun x => decide (1 < x.2)).foldr strideIn []
  d.size.contains 0 || (strideSteps l && l.all fun x => x.1 != 0)

/-- R37, R38, R60, R186: the conditions on a tensor descriptor. -/
def TDesc.ok (d : TDesc) (written : Bool) : Bool :=
  decide (1 ≤ d.rank) && decide (d.rank ≤ 8) && (!d.block.scaled || decide (2 ≤ d.rank)) && d.ty.blockOk d.block.scaled &&
  (if d.owned then d.base == 0 && d.scaleBase == 0 && d.stride.all (· == 0) && d.ownerTable != 0
   else (!(d.ty = .fp4 || d.block.scaled) || d.stride.headD 0 == 1) && (d.ty ≠ .fp4 || (d.stride.drop 1).all (· % 2 == 0)) &&
     (decide (d.ty.width < 16) || d.base % (d.ty.width / 8) == 0) && (!written || d.unaliased))

/-! ## Indices (R184) -/

/-- The index tuple of linear index `n`; the linear index of a tuple; the number of elements. -/
def idxAt : List Nat → Nat → List Nat
  | [], _ => []
  | z :: r, n => n % z :: idxAt r (n / z)
def linAt : List Nat → List Nat → Nat
  | z :: r, i :: t => i + z * linAt r t
  | _, _ => 0
def sizeOf_ (sz : List Nat) : Nat := sz.foldl (· * ·) 1

/-- Every index tuple, in linear order. -/
def allIdx (sz : List Nat) : List (List Nat) := (List.range (sizeOf_ sz)).map (idxAt sz)

/-- R190: the strides of a dense tensor of these sizes. -/
def denseStrides (fp4 : Bool) (sz : List Nat) : List Nat :=
  (List.range sz.length).map fun d =>
    match d with
    | 0 => 1
    | d + 1 =>
      let z0 := sz.headD 0
      (if fp4 then cdiv z0 2 * 2 else z0) * sizeOf_ ((sz.drop 1).take d)

/-! ## Places (R185, R187, R192) -/

/-- The sizes of a shard. -/
def Tensor.shardSize (t : Tensor) (sh : Shard) : List Nat := t.d.size.set t.split sh.count

/-- The strides of a shard. -/
def Tensor.strides (t : Tensor) (sh : Shard) : List Nat :=
  if t.d.owned then denseStrides (t.d.ty = .fp4) (t.shardSize sh) else t.d.stride

/-- The shard an index lies in. -/
def Tensor.shardOf (t : Tensor) (ix : List Nat) : Shard :=
  let i := ix.getD t.split 0
  (t.shards.find? fun sh => decide (sh.first ≤ i) && decide (i < sh.first + sh.count)).getD ⟨0, 0, 0, 0, 0, 0⟩

/-- The index within its shard. -/
def Tensor.inShard (t : Tensor) (sh : Shard) (ix : List Nat) : List Nat := ix.set t.split (ix.getD t.split 0 - sh.first)

/-- The address of an element, and whether an FP4 element lies in the high nibble. -/
def Tensor.elemAt (t : Tensor) (ix : List Nat) : Nat × Bool :=
  let sh := t.shardOf ix
  let o := ((t.inShard sh ix).zipWith (· * ·) (t.strides sh)).sum
  if t.d.ty = .fp4 then (sh.loc + o / 2, o % 2 == 1) else (sh.loc + o * (t.d.ty.width / 8), false)

/-- Rows and columns of the planes of a shard. -/
def Tensor.planeShape (t : Tensor) (sh : Shard) : Nat × Nat := ((t.shardSize sh).getD 1 1, (t.shardSize sh).getD 0 1)

/-- The address of an element's scale byte. -/
def Tensor.scaleAt (t : Tensor) (ix : List Nat) : Nat :=
  let sh := t.shardOf ix
  let l := t.inShard sh ix
  let (r, c) := t.planeShape sh
  sh.scaleLoc + linAt ((t.shardSize sh).drop 2) (l.drop 2) * t.d.block.planeBytes r c + t.d.block.scaleIx c (l.getD 1 0) (l.getD 0 0)

/-- The blocks of a block-scaled tensor, each as the indices of its elements (R61–R63). -/
def Tensor.blocks (t : Tensor) : List (List (List Nat)) :=
  let r := t.d.size.getD 1 1
  let c := t.d.size.getD 0 1
  (allIdx (t.d.size.drop 2)).flatMap fun outer =>
    (List.range (t.d.block.planeBytes r c)).map fun n => (t.d.block.cells r c n).map fun p => p.2 :: p.1 :: outer

/-- R211: the extents of a tensor: of its elements and of its scale plane, for each shard, as (address, length). -/
def Tensor.extents (t : Tensor) : List (Nat × Nat) :=
  if t.d.size.contains 0 then []
  else t.shards.flatMap fun sh =>
    let sz := t.shardSize sh
    let last := ((sz.map (· - 1)).zipWith (· * ·) (t.strides sh)).sum
    let (r, c) := t.planeShape sh
    let n := if t.d.ty = .fp4 then last / 2 + 1 else (last + 1) * (t.d.ty.width / 8)
    (sh.loc, n) :: (if t.d.block.scaled then [(sh.scaleLoc, sizeOf_ (sz.drop 2) * t.d.block.planeBytes r c)] else [])

/-- Two tensors' extents overlap. -/
def Tensor.overlaps (t u : Tensor) : Bool := t.extents.any fun a => u.extents.any (rangesMeet a)

/-- Bytes of the tensor stored densely, elements and scales (R213). -/
def TDesc.denseBytes (d : TDesc) : Nat :=
  let row := if d.ty = .fp4 then cdiv (d.size.headD 0) 2 else d.size.headD 0 * (d.ty.width / 8)
  row * sizeOf_ (d.size.drop 1) + sizeOf_ (d.size.drop 2) * d.block.planeBytes (d.size.getD 1 1) (d.size.getD 0 1)

/-! ## Reading descriptors and tables (R182, R189, R191) -/

/-- What may keep a queue engine from reading `n` bytes at `a`, aligned to 64. -/
def State.qeBad (s : State) (a n : Nat) : Option Nat := if a % 64 ≠ 0 || badAddr a then some stInvalid else s.readBad true a n

/-- R191: the shards cover the dimension in order, on the block grid. -/
def shardsOk (d : TDesc) (split : Nat) (l : List Shard) : Bool :=
  let grid := match d.block with
    | .square => if split ≤ 1 then 16 else 1
    | .mx => if split = 0 then 32 else 1
    | .none => 1
  let end_ := l.foldl (fun (o : Option Nat) sh =>
    match o with
    | some n => if sh.first = n ∧ 0 < sh.count ∧ sh.first % grid = 0 then some (n + sh.count) else none
    | none => none) (some 0)
  end_ = some (d.size.getD split 0) && decide (split < d.rank)

/-- The header of an owner table: its entries and the dimension it splits; none where R189 finds it invalid. -/
def parseOwner (bs : List Byte) : Option (Nat × Nat) :=
  let h := field bs 0 8
  let n := bits h 15 0
  if bits h 63 19 ≠ 0 || field bs 8 24 ≠ 0 || n = 0 || decide (4096 < n) then none else some (n, bits h 18 16)

/-- Entry `k` of the owner table at `a`, of whose entries `bs` are the bytes. -/
def parseShard (a k : Nat) (bs : List Byte) : Shard :=
  let word := fun (o : Nat) => field bs (32 * k + o) 8
  ⟨word 0, bits (word 8) 31 0, bits (word 8) 63 32, word 16, word 24, a + 32 + 32 * k⟩

/-- The shards of an owned tensor, from what the queue engine has read (R189–R191). -/
def Slot.shardsOf (v : Slot) (d : TDesc) : Except Nat (Nat × List Shard) :=
  let a := d.ownerTable
  match v.tab a 32 with
  | .none => .error (if a % 64 ≠ 0 then stInvalid else stDead)
  | some head =>
    match parseOwner head with
    | .none => .error stInvalid
    | some (n, split) =>
      match v.tab (a + 32) (32 * n) with
      | .none => .error stDead
      | some rows =>
        let l := (List.range n).map fun k => parseShard a k rows
        if shardsOk d split l && l.all (fun sh => !badAddr sh.loc && !badAddr sh.scaleLoc) then .ok (split, l) else .error stInvalid

/-- The tensor that a command names at `a`, from what the queue engine has read of it (R182, R186). -/
def Slot.tensorOf (v : Slot) (written : Bool) (a : Nat) : Except Nat Tensor :=
  match v.tab a 128 with
  | .none => .error stDead
  | some bs =>
    match parseTD bs with
    | .none => .error stInvalid
    | some d =>
      if !d.ok written then .error stInvalid
      else if d.owned then
        match v.shardsOf d with
        | .error st => .error st
        | .ok (split, l) => .ok ⟨d, split, l⟩
      else .ok ⟨d, 0, [⟨d.base, 0, d.size.headD 0, 0, d.scaleBase, 0⟩]⟩

/-- What keeps the queue engine from reading the descriptor at `a`, or the owner table it names. -/
def State.tensorBad (s : State) (v : Slot) (a : Nat) : Option Nat :=
  match s.qeBad a 128, (v.tab a 128).bind parseTD with
  | some st, _ => some st
  | none, some d =>
    if !d.owned then none
    else match s.qeBad d.ownerTable 32, (v.tab d.ownerTable 32).bind parseOwner with
      | some st, _ => some st
      | none, some (n, _) => s.readBad true (d.ownerTable + 32) (32 * n)
      | none, none => none
  | none, none => none

/-- The tensor that a command names at `a`, or the status its reading gives. -/
def State.readTensor (s : State) (v : Slot) (written : Bool) (a : Nat) : Except Nat Tensor :=
  match s.tensorBad v a, v.tensorOf written a with
  | none, r => r
  | some st, .error e => .error ((firstBad [some e, some st]).getD st)
  | some st, .ok _ => .error st

/-- The fields of the descriptor at `a`, where it could be read, though the tensor may not be. -/
def Slot.fieldsOf (v : Slot) (a : Nat) : Option TDesc := (v.tab a 128).bind parseTD

/-- The owned tensors among the descriptors at `l` that have been read, whose owner tables may be read. -/
def State.ownedOf (s : State) (v : Slot) (l : List Nat) : List TDesc :=
  (l.filterMap fun a => (v.tab a 128).bind parseTD).filter fun d => d.owned && (s.qeBad d.ownerTable 32).isNone

/-- The queue engine reads the tensor descriptors at `l` and the owner tables they name (R182, R189); the Bool says that it has. -/
def State.fetchTensors (s : State) (i : Nat) (l : List Nat) : State × Bool :=
  match s.fetchTabs i ((l.filter fun a => (s.qeBad a 128).isNone).map fun a => (a, 128)) with
  | (s, false) => (s, false)
  | (s, true) =>
    match s.fetchTabs i ((s.ownedOf (s.slot i) l).map fun d => (d.ownerTable, 32)) with
    | (s, false) => (s, false)
    | (s, true) =>
      let v := s.slot i
      s.fetchTabs i ((s.ownedOf v l).filterMap fun d =>
        match (v.tab d.ownerTable 32).bind parseOwner with
        | some (n, _) => if (s.readBad true (d.ownerTable + 32) (32 * n)).isNone then some (d.ownerTable + 32, 32 * n) else none
        | none => none)

/-! ## Elements -/

/-- The code of an element. -/
def State.tcode (s : State) (v : Slot) (t : Tensor) (ix : List Nat) : Nat :=
  let (a, hi) := t.elemAt ix
  if t.d.ty = .fp4 then
    let b := (s.descByte v a).toNat
    if hi then b / 16 else b % 16
  else s.descNat v a (t.d.ty.width / 8)

/-- The scale byte of an element. -/
def State.tscale (s : State) (v : Slot) (t : Tensor) (ix : List Nat) : Nat := (s.descByte v (t.scaleAt ix)).toNat

/-- The exact value of an element (R54). -/
def State.tval (s : State) (v : Slot) (t : Tensor) (ix : List Nat) : FVal :=
  if t.d.block.scaled then scaledVal t.d.ty (s.tcode v t ix) (s.tscale v t ix) else t.d.ty.val (s.tcode v t ix)

/-- Byte ranges that touch are joined. -/
def joinRuns : List (Nat × List Byte) → List (Nat × List Byte)
  | [] => []
  | (a, bs) :: r =>
    match joinRuns r with
    | [] => [(a, bs)]
    | (b, cs) :: t => if a + bs.length = b then (a, bs ++ cs) :: t else (a, bs) :: (b, cs) :: t

/-- The bytes of FP4 elements in linear order: two to a byte, the last of an odd run alone with zero above it (R39). -/
def nibBytes : List ((Nat × Bool) × Nat) → List (Nat × List Byte)
  | [] => []
  | [((a, hi), x)] => [(a, [BitVec.ofNat 8 (if hi then 16 * x else x)])]
  | ((a, hi), x) :: ((b, lo), y) :: r =>
    if a = b then (a, [BitVec.ofNat 8 (x + 16 * y)]) :: nibBytes r
    else (a, [BitVec.ofNat 8 (if hi then 16 * x else x)]) :: nibBytes (((b, lo), y) :: r)

/-- The byte runs that element codes fill, in the order given. -/
def Tensor.runs (t : Tensor) (es : List (List Nat × Nat)) : List (Nat × List Byte) :=
  joinRuns
    (if t.d.ty = .fp4 then nibBytes (es.map fun e => (t.elemAt e.1, e.2))
     else es.map fun e => ((t.elemAt e.1).1, leBytes (t.d.ty.width / 8) e.2))

/-- The runs of scale bytes that blocks get: each block by one of its elements. -/
def Tensor.scaleRuns (t : Tensor) (bs : List (List Nat × Nat)) : List (Nat × List Byte) :=
  joinRuns (bs.map fun b => (t.scaleAt b.1, leBytes 1 b.2))

/-- Runs are written on behalf of slot `i`. -/
def State.putRuns (s : State) (i kind : Nat) (l : List (Nat × List Byte)) : State :=
  l.foldl (fun s r => s.descWrite i kind r.1 r.2) s

/-- Contributions of `n` bytes in a row of elements are grouped by line, at most `m` to a group. -/
def joinCodes (n m : Nat) : List (Nat × Nat) → List (Nat × List Nat)
  | [] => []
  | (a, c) :: r =>
    match joinCodes n m r with
    | [] => [(a, [c])]
    | (b, cs) :: t => if a + n = b ∧ b % 128 ≠ 0 ∧ cs.length < m then (a, c :: cs) :: t else (a, [c]) :: (b, cs) :: t

/-- Contributions, codes of type `ct`, are added to destination elements by Larder atomics of operation `op` with weight `w`, those of one line
together (R348, R350): at once in this room, as requests elsewhere. An error, or no way to the line, leaves the command with a dead target. -/
def State.addElems (s : State) (i kind : Nat) (b : Tensor) (op w : Nat) (ct : EType) (es : List (List Nat × Nat)) : State :=
  let n := b.d.ty.width / 8
  let wide := ct ≠ b.d.ty
  (joinCodes n (if wide then 32 else 128) (es.map fun e => ((b.elemAt e.1).1, e.2))).foldl
    (fun s r =>
      if s.isLocal r.1 then
        if s.rangeCut (s.slot i) r.1 (r.2.length * n) then s.slotCut i
        else
          let (s, e) := s.eatomic kind b.d.ty ct op w (aOff r.1) r.2
          if e then s.setSlot i { s.slot i with dead := true } else s
      else
        let bs := r.2.flatMap (leBytes (ct.width / 8))
        s.request (.slot i) 3 (aHouse r.1) (aRoom r.1) 0 (b.d.ty.code * 256 + b2n wide * 16 + op) r.1 w bs.length bs)
    s

/-- The ranges that reading these elements and their scales uses. -/
def Tensor.readRuns (t : Tensor) (ixs : List (List Nat)) : List (Nat × Nat) :=
  ((t.runs (ixs.map fun x => (x, 0))).map fun r => (r.1, r.2.length)) ++
  (if t.d.block.scaled then (joinRuns ((ixs.map t.scaleAt).eraseDups.map fun a => (a, [0]))).map fun r => (r.1, r.2.length) else [])

/-- What reading the elements and scales at these indices does beside giving them. -/
def State.noteElems (s : State) (kind : Nat) (t : Tensor) (ixs : List (List Nat)) : State :=
  (t.readRuns ixs).foldl (fun s r => s.descNotes kind r.1 r.2) s

/-- A read of these elements, or of their scales, gives the error value (R71, R206). -/
def State.elemsDead (s : State) (v : Slot) (t : Tensor) (ixs : List (List Nat)) : Bool :=
  ixs.any fun x =>
    s.descDead v (t.elemAt x).1 (max 1 (t.d.ty.width / 8)) || (t.d.block.scaled && s.descDead v (t.scaleAt x) 1)

/-- What keeps a command from reading, or writing, a tensor over its whole extent (R391). -/
def State.tensorReadBad (s : State) (host : Bool) (t : Tensor) : Option Nat := firstBad (t.extents.map fun e => s.readBad host e.1 e.2)
def State.tensorWriteBad (s : State) (host : Bool) (t : Tensor) : Option Nat := firstBad (t.extents.map fun e => s.writeBad host e.1 e.2)

/-- What keeps a command from making atomics on ranges (R335, R346, R391). -/
def State.atomicBad (s : State) (l : List (Nat × Nat)) : Option Nat :=
  firstBad (l.map fun e =>
    if isHost e.1 then some stInvalid
    else if !s.outAdmits e.1 e.2 .atomic || (s.inHouse e.1 && decide (s.rooms ≤ aRoom e.1)) || !atomicRegion (aOff e.1) ||
      !atomicRegion (aOff e.1 + e.2 - 1) || (s.isLocal e.1 && !s.mappedMem (aOff e.1) e.2) then some stDenied
    else none)

/-- The status a tensor that could not be read gives. -/
def tensorErr (t : Except Nat Tensor) : Option Nat := match t with | .error st => some st | .ok _ => none

/-- Bytes of accesses of `unit` bytes that runs use (R197). -/
def runBytes (unit : Nat) (l : List (Nat × List Byte)) : Nat := (l.map fun r => unit * (unitsOf unit r.1 r.2.length).length).sum

end Sys2Proof.Machine
end

