-- ==== Sys2Proof/Machine/Pantry.lean ====
section
/-! DEFINITION. The Pantry (12_sluice_and_pantry.md R324–R329, R436): pools of buffers, their reference counts, POOL_OP, and parking on
an empty pool. -/

namespace Sys2Proof.Machine

/-! ## Pools -/

/-- A pool is in service (R329). -/
def State.poolOn (s : State) (p : Nat) : Bool := s.flag (Reg.panCfg p) 63

/-- The handle of a buffer, its pool and its index (R324). -/
def handleOf (p b : Nat) : Nat := p * 2 ^ 24 + b
def poolOf (h : Nat) : Nat := bits h 29 24
def bufOf (h : Nat) : Nat := bits h 19 0

/-- The local offset of buffer `b` of pool `p` (R324). -/
def State.bufOff (s : State) (p b : Nat) : Nat := s.reg (Reg.panBase p) + b * (s.fieldOf (Reg.panCfg p) 15 0 * 4096)

/-- Reference count of a buffer. -/
def State.refOf (s : State) (p b : Nat) : Nat := Tbl.get 0 s.refs (2 ^ 20 * p + b)
def State.setRef (s : State) (p b n : Nat) : State := { s with refs := Tbl.set 0 s.refs (2 ^ 20 * p + b) n }

/-- The local offset of entry `j` of a pool's free ring (R325). -/
def State.ringOff (s : State) (p j : Nat) : Nat := s.reg (Reg.panRingBase p) + 4 * (j % max 1 (s.fieldOf (Reg.panCfg p) 51 32))

/-- The Pantry reads `m` entries of the ring into its cache. -/
def State.ringTake (s : State) (p m : Nat) : State :=
  let v := s.pool p
  let m := min m v.free
  let offs := (List.range m).map fun j => s.ringOff p (v.head + j)
  (offs.foldl (fun t o => t.readNotes 6 o 4) s).setPool p ⟨v.cache ++ offs.map fun o => s.memNat o 4 % 2 ^ 20, v.head + m, v.free - m⟩

/-- The Pantry writes buffers into the ring behind those it holds. -/
def State.ringPut (s : State) (p : Nat) (l : List Nat) : State :=
  l.foldl
    (fun s b =>
      let v := s.pool p
      (s.memWrite 6 (s.ringOff p (v.head + v.free)) (leBytes 4 b)).setPool p { v with free := v.free + 1 })
    s

/-- One buffer is taken from the cache, which an empty one first refills from the ring; which one is not fixed (R325). -/
def State.allocOne (s : State) (p : Nat) : State × Nat :=
  let s := if (s.pool p).cache.isEmpty then s.ringTake p 48 else s
  let (f, s) := s.takeFree
  let v := s.pool p
  let b := v.cache.getD (f % v.cache.length) 0
  (((s.setPool p { v with cache := v.cache.erase b }).setRef p b 1).incReg (Reg.panAllocs p) 1, b)

/-- `n` buffers are allocated. -/
def State.allocMany (s : State) (p : Nat) : Nat → State × List Nat
  | 0 => (s, [])
  | n + 1 =>
    let (s, b) := s.allocOne p
    let (s, l) := s.allocMany p n
    (s, b :: l)

/-- `n` buffers of a pool are allocated, all or none (R327); a disabled Pantry allocates nothing (R505). -/
def State.alloc (s : State) (p n : Nat) : Option (State × List Nat) :=
  if s.poolOn p && !s.unitOff (80 + p % 4) && decide (n ≤ s.poolFree p) then some (s.allocMany p n) else none

/-- The free count of a pool has risen from `old`: its watermark (R328). -/
def State.waterPool (s : State) (p old : Nat) : State :=
  let lv := s.fieldOf (Reg.panLowWater p) 19 0
  if lv ≠ 0 ∧ old < lv ∧ lv ≤ s.poolFree p then s.eventSet (s.fieldOf (Reg.panLowWater p) 41 32) else s

/-- A buffer returns at count 0 (R325, R326): into the cache, which spills above 48 entries. -/
def State.freeBuf (s : State) (p b : Nat) : State :=
  let v := s.pool p
  let old := s.poolFree p
  let c := b :: v.cache
  let s := (s.setPool p { v with cache := c.take 48 }).ringPut p (c.drop 48)
  (s.incReg (Reg.panReleases p) 1).waterPool p old

/-- A reference is added to a handle (R326, R327); the Bool says that it was applied. -/
def State.addRef (s : State) (h : Nat) : State × Bool :=
  let p := poolOf h
  let n := s.refOf p (bufOf h)
  if !s.poolOn p || n = 0 || n = 65535 then (s.incReg (Reg.panBadRefs p) 1, false) else (s.setRef p (bufOf h) (n + 1), true)

/-- A reference is dropped. -/
def State.dropRef (s : State) (h : Nat) : State × Bool :=
  let p := poolOf h
  let n := s.refOf p (bufOf h)
  if !s.poolOn p || n = 0 then (s.incReg (Reg.panBadRefs p) 1, false)
  else
    let s := s.setRef p (bufOf h) (n - 1)
    (if n = 1 then s.freeBuf p (bufOf h) else s, true)

/-- Every handle of a list; the Bool says that all were applied. -/
def State.refAll (s : State) (drop : Bool) (hs : List Nat) : State × Bool :=
  hs.foldl (fun (s, ok) h => let (s, b) := if drop then s.dropRef h else s.addRef h; (s, ok && b)) (s, true)

/-- PANTRY_CACHE_REFILL (R325): a cache below 16 entries is refilled from the ring; how far is not fixed. -/
def execPantryCacheRefill (p : Fin 64) (s : State) : Host.Outcome State Fault Refusal :=
  let v := s.pool p
  if 16 ≤ v.cache.length then .next s
  else
    let (f, s) := s.takeFree
    .next (s.ringTake p (16 - v.cache.length + f % 33))

/-! ## Set-up (R329) -/

/-- POOL_ENABLE (R328, R329): a write of PAN_POOL_CFG with ENABLE 1; the ring is filled, every count is 0, and the free count rises from 0. -/
def State.poolEnable (s : State) (p v : Nat) : State :=
  if s.poolOn p then s
  else
    let n := bits v 51 32
    let s := s.setReg (Reg.panCfg p) (2 ^ 63 + n * 2 ^ 32 + bits v 15 0)
    let s := { s with refs := s.refs.clear fun i => i / 2 ^ 20 == p }
    ((s.memWrite 6 (s.reg (Reg.panRingBase p)) ((List.range n).flatMap (leBytes 4))).setPool p ⟨[], 0, n⟩).waterPool p 0

def execPoolEnable (p : Fin 64) (v : Word) (s : State) : Host.Outcome State Fault Refusal := .next (s.poolEnable p v.toNat)

/-- A write of PAN_POOL_CFG with ENABLE 0: it configures a pool out of service, and takes one out of service whose buffers are all free. -/
def State.poolDisable (s : State) (p v : Nat) : State :=
  if !s.poolOn p then s.setReg (Reg.panCfg p) (bits v 51 32 * 2 ^ 32 + bits v 15 0)
  else if s.poolFree p = s.fieldOf (Reg.panCfg p) 51 32 then (s.setFlag (Reg.panCfg p) 63 false).setPool p Pool.empty
  else s

/-- POOL_DISABLE (R329). -/
def execPoolDisable (p : Fin 64) (v : Word) (s : State) : Host.Outcome State Fault Refusal := .next (s.poolDisable p v.toNat)

/-- R329, R445: every buffer of every enabled pool is freed. -/
def State.freePools (s : State) : State :=
  ((List.range 64).filter s.poolOn).foldl
    (fun s p =>
      let old := s.poolFree p
      let all := List.range (s.fieldOf (Reg.panCfg p) 51 32)
      let gone := all.filter fun b => s.refOf p b != 0
      ({ s.ringPut p gone with refs := s.refs.clear fun i => i / 2 ^ 20 == p }).waterPool p old)
    s

/-! ## Parking (R436) -/

/-- A descriptor would complete with POOL_EMPTY at its start on pool `p` (64: the route record store): its context parks when `park` is set
and the watermark is in use, else it ends. -/
def State.parkOr (s : State) (i p : Nat) : State :=
  let v := s.slot i
  let lv := if p = 64 then s.fieldOf Reg.sluRrWater 23 0 else s.fieldOf (Reg.panLowWater p) 19 0
  if bit (v.word 0) 8 && lv != 0 then
    (s.setStage i (.parked p)).setField (Reg.qeCtx v.ctx) 31 16 ((s.fieldOf (Reg.qeCtx v.ctx) 31 16 + 1) % 2 ^ 16)
  else s.endSlot i stPoolEmpty 0

/-- PARK_RESTART (R436): the watermark event of pool `p` (64: the route record store) is set; it is cleared, and the descriptors parked on it
are restarted. -/
def execParkRestart (p : Fin 65) (s : State) : Host.Outcome State Fault Refusal :=
  let e := if p.val = 64 then s.fieldOf Reg.sluRrWater 41 32 else s.fieldOf (Reg.panLowWater p) 41 32
  let parked := s.slots.filter fun x => x.2.stage = .parked p.val
  if s.sync.event e && !parked.isEmpty then
    .next (parked.foldl (fun s x => s.setStage x.1 .ready) (s.eventClear e))
  else .next s

/-! ## POOL_OP (R327, R458) -/

/-- Fields of a POOL_OP. -/
def Slot.poolN (v : Slot) : Nat := bits (v.word 2) 22 16
def Slot.poolOp (v : Slot) : Nat := bits (v.word 2) 10 8
def Slot.poolNo (v : Slot) : Nat := bits (v.word 2) 5 0

/-- The checks of a POOL_OP before execution (R335, R391, R404, R458). -/
def State.poolBad (s : State) (v : Slot) : Option Nat :=
  firstBad
    [if v.poolN = 0 || decide (64 < v.poolN) || decide (2 < v.poolOp) || isHost (v.word 3) || bits (v.word 3) 40 0 != 0 || bits (v.word 3) 47 46 != 0
       then some stInvalid else none,
     if v.poolOp = 0 then s.writeBad false (v.word 4) (16 * v.poolN) else s.readBad false (v.word 4) (16 * v.poolN)]

/-- The POOL_OP of slot `i` with code `op` may execute; one with a reserved code is taken with ALLOC, and ends. -/
def State.poolReady (s : State) (i op : Nat) : Bool :=
  s.opReady i 11 && ((s.slot i).poolOp == op || (op == 0 && decide (2 < (s.slot i).poolOp)))

/-- The POOL_OP of slot `i` asks the Pantry that serves its pool in another room (R324, R327, R362). -/
def State.poolAsk (s : State) (i : Nat) (hs : List Nat) : State :=
  let v := s.slot i
  let p := v.poolNo
  let (f, s) := s.takeFree
  let n := f % 128 + 1
  let m : Sys2Proof.PoolMsg := ⟨i, p, v.poolOp, v.poolN, hs, [], false⟩
  let s := { (s.setSlot i { v with step := 1 }) with out := s.out ++ [Out.pool (aHouse (v.word 3)) (aRoom (v.word 3)) m] }
  s.request (.slot i) 4 (aHouse (v.word 3)) (aRoom (v.word 3)) (13 + p % 4) 0 0 0 n (leBytes n (f / 128))

/-- A POOL_OP that has asked another room ends without its answer: the room is dead, or the request was refused. -/
def State.poolGone (s : State) (i : Nat) : Bool :=
  let v := s.slot i
  v.dead || v.refused || (aHouse (v.word 3) == s.house && s.roomDead (aRoom (v.word 3)))

/-- The entries an ALLOC writes: handle and address (R327). -/
def allocEntries (l : List (Nat × Nat)) : List Byte := l.flatMap fun e => leBytes 8 e.1 ++ leBytes 8 e.2

/-- ALLOC (R327): buffers of a pool of this room, or of another room, whose Pantry is asked and answers. -/
def execAlloc (i : Nat) (s : State) : Host.Outcome State Fault Refusal :=
  let v := s.slot i
  if !s.poolReady i 0 then .next s
  else if v.step = 1 then
    if v.grant then
      if v.idx.isEmpty then .next (s.endSlot i stPoolEmpty 0)
      else .next ((s.descWrite i 3 (v.word 4) (allocEntries (v.idx.zip v.addrs))).endSlot i stOk 0)
    else if s.poolGone i then .next (s.endSlot i stDead 0)
    else .next s
  else
    match s.poolBad v with
    | some st => .next (s.endSlot i st 0)
    | none =>
      let p := v.poolNo
      if s.isLocal (v.word 3) then
        match s.alloc p v.poolN with
        | some (t, l) =>
          .next ((t.descWrite i 3 (v.word 4) (allocEntries (l.map fun b => (handleOf p b, s.localAddr (s.bufOff p b))))).endSlot i stOk 0)
        | none => .next ((s.incReg (Reg.panFails p) 1).parkOr i p)
      else .next (s.poolAsk i [])

/-- REF and UNREF: the handles are read, and applied by this room's Pantries or by the Pantry that is asked. -/
def State.poolRefs (s : State) (i : Nat) (drop : Bool) : State :=
  let v := s.slot i
  if v.step = 1 then
    if v.grant then s.endSlot i (if v.count = 1 then stOk else stPartial) 0
    else if s.poolGone i then s.endSlot i stDead 0
    else s
  else
    match s.poolBad v with
    | some st => s.endSlot i st 0
    | none =>
      match s.fetchTabs i [(v.word 4, 16 * v.poolN)] with
      | (s, false) => s
      | (s, true) =>
        let v := s.slot i
        let bs := (v.tab (v.word 4) (16 * v.poolN)).getD (List.replicate (16 * v.poolN) 0xFF)
        let hs := (List.range v.poolN).map fun j => field bs (16 * j) 4
        let dead := (v.tab (v.word 4) (16 * v.poolN)).isNone
        if v.refused then s.endSlot i stDenied 0
        else if s.isLocal (v.word 3) then
          let (s, ok) := s.refAll drop hs
          s.endSlot i (if dead then stDead else if ok then stOk else stPartial) 0
        else (if dead then s.setSlot i { v with dead := true } else s).poolAsk i hs

/-- REF (R327). -/
def execRef (i : Nat) (s : State) : Host.Outcome State Fault Refusal := .next (if s.poolReady i 1 then s.poolRefs i false else s)

/-- UNREF (R327). -/
def execUnref (i : Nat) (s : State) : Host.Outcome State Fault Refusal := .next (if s.poolReady i 2 then s.poolRefs i true else s)

/-- A Pantry of this room answers a POOL_OP of another room. -/
def State.poolAnswer (s : State) (house room : Nat) (m : Sys2Proof.PoolMsg) : State :=
  let (f, s) := s.takeFree
  let n := f % 128 + 1
  ({ s with out := s.out ++ [Out.pool house room m] }).request (.unit (80 + m.pool % 4)) 4 house room (13 + m.pool % 4) 0 0 0 n (leBytes n (f / 128))

/-- A pool operation of another room reaches this room's Pantry, which answers it; or an answer reaches the POOL_OP that asked (R327, R362). -/
def State.poolMsg (s : State) (house room : Nat) (m : Sys2Proof.PoolMsg) : State :=
  match m.op with
  | 0 =>
    match s.alloc m.pool m.n with
    | some (t, l) =>
      t.poolAnswer house room { m with op := 3, handles := l.map (handleOf m.pool), addrs := l.map fun b => s.localAddr (s.bufOff m.pool b), applied := true }
    | none => (s.incReg (Reg.panFails m.pool) 1).poolAnswer house room { m with op := 3, handles := [], addrs := [], applied := false }
  | 3 =>
    let v := s.slot m.id
    if v.opcode = 11 && v.stage = .ready && v.step = 1 && v.poolNo == m.pool && aHouse (v.word 3) == house && aRoom (v.word 3) == room then
      s.setSlot m.id { v with grant := true, idx := m.handles, addrs := m.addrs, count := b2n m.applied }
    else s
  | _ =>
    let (s, ok) := s.refAll (m.op == 2) m.handles
    s.poolAnswer house room { m with op := 3, handles := [], addrs := [], applied := ok }

end Sys2Proof.Machine
end

