-- ==== Sys2Proof/Machine/Special.lean ====
section
/-! DEFINITION. The special functions of the vector engine (R168): their exact results to more than 2^−100, the bound
around them, and the FP32 code within the bound that the part gives, which the spec leaves open. The same bounds serve the
derivatives of R175. -/

namespace Sys2Proof.Machine

/-! ## Fixed point with 256 fraction bits -/

/-- One in fixed point. -/
def fixOne : Int := (2 ^ 256 : Nat)

/-- A finite value in fixed point, rounded down. -/
def toFix (x : FVal) : Int :=
  match x with
  | .fin n m e => if 0 ≤ e + 256 then sgn n (m * 2 ^ (e + 256).toNat) else sgn n m / (2 ^ (-(e + 256)).toNat : Nat)
  | _ => 0

/-- A fixed-point number times 2^k. -/
def ofFix (v : Int) (k : Int) : FVal := .fin (decide (v < 0)) v.natAbs (k - 256)

/-- atanh of a fixed-point number of magnitude at most 1/3, by its power series. -/
def atanhFix (z : Int) : Int :=
  let z2 := z * z / fixOne
  ((List.range 90).foldl (fun (s : Int × Int) i => (s.1 * z2 / fixOne, s.2 + s.1 / ((2 * i + 1 : Nat) : Int))) (z, 0)).2

/-- ln 2 in fixed point. -/
def ln2Fix : Int := 2 * atanhFix (fixOne / 3)

/-- The exponential of a finite value; beyond ±1100, where every format of this part has overflowed or underflowed, that of
±1100. -/
def expVal (x : FVal) : FVal :=
  let v := max (-1100 * fixOne) (min (1100 * fixOne) (toFix (match x with | .fin n m e => if 12 < (m.log2 : Int) + e then .fin n 1 12 else x | y => y)))
  let k := (2 * v + ln2Fix) / (2 * ln2Fix)
  let r := v - k * ln2Fix
  ofFix ((List.range 80).foldl (fun (s : Int × Int) i => (s.1 * r / (fixOne * ((i + 1 : Nat) : Int)), s.2 + s.1)) (fixOne, 0)).2 k

/-- The natural logarithm of a positive finite value. -/
def logVal (x : FVal) : FVal :=
  match x with
  | .fin _ m e =>
    let b := m.log2
    let b := if 4 * 2 ^ b < 3 * m then b + 1 else b
    let z := ((m : Int) - (2 ^ b : Nat)) * fixOne / ((m : Int) + (2 ^ b : Nat))
    ofFix (2 * atanhFix z + ((b : Int) + e) * ln2Fix) 0
  | y => y

/-- 1. -/
def oneVal : FVal := .fin false 1 0

/-- 1 / (1 + exp(−x)). -/
def sigmVal (x : FVal) : FVal := oneVal.div (oneVal.add (expVal x.neg))

/-- (1 − exp(−2|x|)) / (1 + exp(−2|x|)) with the sign of x. -/
def tanhVal (x : FVal) : FVal :=
  let t := expVal (x.abs.scale 1).neg
  let y := (oneVal.sub t).div (oneVal.add t)
  if x.sign then y.neg else y

/-- The special function `op` of R166 at an ordinary input. -/
def specVal (op : Nat) (x : FVal) : FVal :=
  match op with
  | 0x10 => expVal x
  | 0x11 => logVal x
  | 0x12 => (oneVal.div x).sqrt
  | 0x13 => sigmVal x
  | 0x14 => logVal (x.div (oneVal.sub x))
  | 0x15 => tanhVal x
  | _ => x.mul (sigmVal x)

/-- R168: the special inputs and their results. -/
def specSpecial (op : Nat) (x : FVal) : Option FVal :=
  match x with
  | .nan => some .nan
  | .inf n =>
    match op with
    | 0x10 => some (if n then .fin false 0 0 else .inf false)
    | 0x11 => some (if n then .nan else .inf false)
    | 0x12 => some (if n then .nan else .fin false 0 0)
    | 0x13 => some (if n then .fin false 0 0 else oneVal)
    | 0x14 => some .nan
    | 0x15 => some (if n then oneVal.neg else oneVal)
    | _ => some (if n then .fin true 0 0 else .inf false)
  | .fin n m e =>
    match op with
    | 0x11 => if m = 0 then some (.inf true) else if n then some .nan else none
    | 0x12 => if m = 0 then some (.inf n) else if n then some .nan else none
    | 0x14 =>
      if m = 0 then some (.inf true)
      else if n || oneVal.lt (.fin n m e) then some .nan
      else if oneVal.eq (.fin n m e) then some (.inf false)
      else none
    | 0x15 => if m = 0 then some x else none
    | _ => none

/-! ## Codes within a bound -/

/-- The FP32 spacing at a finite value, as an exponent of two. -/
def spacing32 (a : FVal) : Int :=
  match a with
  | .fin _ m e => if m = 0 then -149 else max ((m.log2 : Int) + e - 23) (-149)
  | _ => -149

/-- The FP32 code whose key in the order of R51 is `k`. -/
def codeOfKey (k : Int) : Nat := if 0 ≤ k then k.toNat else 2 ^ 31 + (-k - 1).toNat

/-- The FP32 code numbered `r` among those within `b` of the finite value `a`, counted round; +∞ or −∞ where `a`
overflows. With `pos` no code with a sign is among them. -/
def pickCode (pos : Bool) (a b : FVal) (r : Nat) : Nat :=
  if !(flv a).isFin then fl a
  else
    let lo := a.sub b
    let hi := a.add b
    let kl := if (flv lo).lt lo then totalKey (fl lo) + 1 else totalKey (fl lo)
    let kl := if pos then max kl 0 else kl
    let kh := if hi.lt (flv hi) then totalKey (fl hi) - 1 else totalKey (fl hi)
    codeOfKey (kl + ((r % (kh - kl + 1).toNat : Nat) : Int))

/-- R168: the bound of a special function at the exact result `a`. -/
def specBound (op : Nat) (a : FVal) : FVal :=
  match op with
  | 0x13 => .fin false 3 (spacing32 a - 1)
  | 0x14 => if a.abs.lt oneVal then .fin false 1 (-23) else .fin false 2 (spacing32 a)
  | 0x15 | 0x16 => .fin false 2 (spacing32 a)
  | _ => .fin false 1 (spacing32 a)

/-- R168: the FP32 result of a special function on an FP32 code. SIGM gives no code with a sign, as the bound of R177 over all x asks. -/
def special32 (op x : Nat) : Nat :=
  match specSpecial op (v32 x) with
  | some v => fl v
  | none => pickCode (op == 0x13) (specVal op (v32 x)) (specBound op (specVal op (v32 x))) (Sys2Proof.Config.special op x)

/-- R87: a special function in the wide unit, within 2^−41 of its exact result and rounded into binary64. -/
def special64 (n op : Nat) (x : FVal) : FVal :=
  match specSpecial op x with
  | some v => v
  | none =>
    fl64 ((specVal op x).mul (.fin false (2 ^ 60 - 2 ^ 19 + Sys2Proof.Config.wideErr n % 2 ^ 20) (-60)))

/-- R175: a derivative's FP32 result, within `k` spacings of the exact value `a`; `op` and the operand codes choose it. -/
def derivVal (op k y g : Nat) (a : FVal) : FVal :=
  match a with
  | .fin _ _ _ => v32 (pickCode false a (.fin false k (spacing32 a)) (Sys2Proof.Config.special op (y * 2 ^ 32 + g)))
  | v => v

end Sys2Proof.Machine
end

