-- ==== Sys2Proof/Machine/Vector.lean ====
section
/-! DEFINITION. The vector engine (06_vector_engine.md): issue of VX instructions (R161–R167), their results (R160,
R168–R180, R228, R229), and their completion with that of the SCALE instructions that share the engine (R163, R252). -/

namespace Sys2Proof.Machine

/-! ## Compensated sums (R169) -/

/-- How a value is computed: in the core's FP32 arithmetic, or in the dip sampler's wide unit (R87), whose special functions
use the free value numbered `n`. -/
inductive Prec where
  | core | wide (n : Nat)
  deriving DecidableEq, Repr

/-- One rounding of an intermediate value. -/
def Prec.rd (p : Prec) (x : FVal) : FVal :=
  match p with
  | .core => flv x
  | .wide _ => fl64 x

/-- A special function. -/
def Prec.sp (p : Prec) (op : Nat) (x : FVal) : FVal :=
  match p with
  | .core => v32 (special32 op (fl x))
  | .wide n => special64 n op x

/-- An exact product enters a compensated sum as its FP32 high part and its exact residual. -/
def splitTerm (x : FVal) : List FVal :=
  let h := flv x
  if h.isFin then [h, x.sub h] else [h]

/-- Lane accumulator `l` of 256: the terms of the elements j with j mod 256 = l, in increasing j. -/
def laneSum (ts : List (List FVal)) (l : Nat) : Nat × Nat :=
  ts.zipIdx.foldl (fun p t => if t.2 % 256 = l then t.1.foldl (fun q x => pairAdd q.1 q.2 x) p else p) (0, 0)

/-- Two pairs are added as pairs, the second's hi and then its lo by R82. -/
def pairPair (a b : Nat × Nat) : Nat × Nat :=
  if a = (0, 0) ∧ b = (0, 0) then (0, 0)
  else
    let c := pairAdd a.1 a.2 (v32 b.1)
    pairAdd c.1 c.2 (v32 b.2)

/-- The root of a compensated sum, whose element j enters by the terms of entry j. -/
def csumPair (ts : List (List FVal)) : Nat × Nat :=
  treeSum pairPair (0, 0) 9 ((List.range 256).map (laneSum ts))

/-- A compensated sum as a value: hi + lo of the root in the core, the sum in binary64 in the wide unit. -/
def Prec.csum (p : Prec) (xs : List FVal) : FVal :=
  match p with
  | .core => pairVal (csumPair (xs.map fun x => [x]))
  | .wide _ => xs.foldl (fun a x => fl64 (a.add x)) (.zero false)

/-- A compensated sum of exact products. -/
def Prec.csumProd (p : Prec) (xs : List FVal) : FVal :=
  match p with
  | .core => pairVal (csumPair (xs.map splitTerm))
  | .wide _ => xs.foldl (fun a x => fl64 (a.add x)) (.zero false)

/-- A value divided by a count. -/
def FVal.divN (x : FVal) (n : Nat) : FVal := x.div (.ofInt n)

/-! ## Element-wise operations (R166, R168, R175, R176) -/

/-- CMP (R49): 0 EQ, 1 NE, 2 LT, 3 LE, 4 GT, 5 GE. -/
def cmpHolds (mod : Nat) (x y : FVal) : Bool :=
  match mod with
  | 0 => x.eq y
  | 1 => !x.eq y
  | 2 => x.lt y
  | 3 => x.le y
  | 4 => y.lt x
  | _ => y.le x

/-- The recovered x of the SiLU family (R176). -/
def Prec.logit (p : Prec) (s : FVal) : FVal := p.sp 0x14 s

/-- 1 + x × (1 − s), formed in FP32 (R176). -/
def Prec.siluInner (p : Prec) (s x : FVal) : FVal := p.rd (oneVal.add (p.rd (x.mul (p.rd (oneVal.sub s)))))

/-- A derivative of R175: in the core within its bound of the exact formula, in the wide unit rounded into binary64. -/
def Prec.deriv (p : Prec) (op k : Nat) (y g a : FVal) : FVal :=
  match p with
  | .core => derivVal op k (fl y) (fl g) a
  | .wide _ => fl64 a

/-- One element of an element-wise operation before its rounding into the destination. -/
def vxFn (p : Prec) (op mod : Nat) (x y z : FVal) : FVal :=
  match op with
  | 0x00 => x.add y
  | 0x01 => x.sub y
  | 0x02 => x.mul y
  | 0x03 => (x.mul y).add z
  | 0x04 => x.max false y
  | 0x05 => x.max true y
  | 0x06 => x.maxnum false y
  | 0x07 => x.maxnum true y
  | 0x08 => x.abs
  | 0x09 => x.neg
  | 0x0A => x
  | 0x0B => if cmpHolds mod x y then oneVal else .zero false
  | 0x0C => if z.isZero then y else x
  | 0x0D => x.add y
  | 0x17 => x.div y
  | 0x18 => x.sqrt
  | 0x30 => p.deriv op 2 x y (y.mul (x.mul (oneVal.sub x)))
  | 0x31 => p.deriv op 2 x y (y.mul (oneVal.sub (x.mul x)))
  | 0x32 => if x.isNan then .nan else if (FVal.zero false).lt x then y else .zero false
  | 0x33 => p.deriv op 1 x y (y.mul x)
  | 0x34 =>
    let g := if mod = 1 then y.mul z else y
    if x.eq oneVal then g
    else if x = .fin false 0 0 || (x.isZero && !x.sign) then .zero false
    else (g.mul x).mul (p.siluInner x (p.logit x))
  | 0x35 =>
    if mod = 1 then (y.mul z).mul x
    else if x.eq oneVal then .nan
    else if x.isZero && !x.sign then .zero false
    else (y.mul (p.logit x)).mul x
  | op => p.sp op x

/-! ## Row operations (R169–R175) -/

/-- The maximum or minimum of a row (R50, R166). -/
def rowMax (mod : Nat) (xs : List FVal) : FVal :=
  match xs with
  | [] => .zero false
  | x :: r => r.foldl (fun m v => if bit mod 0 then m.maxnum (bit mod 1) v else m.max (bit mod 1) v) x

/-- r of R171 and the values it scales: x, or x − μ. -/
def Prec.norm (p : Prec) (layer : Bool) (eps : FVal) (xs : List FVal) : List FVal × FVal :=
  let n := xs.length
  let ds := if layer then
      let mu := p.rd ((p.rd (p.csum xs)).divN n)
      xs.map fun x => p.rd (x.sub mu)
    else xs
  let q := p.rd ((p.rd (p.csumProd (ds.map fun d => d.mul d))).divN n)
  (ds, p.sp 0x12 (p.rd (q.add eps)))

/-- RMSN (R171). -/
def Prec.rmsn (p : Prec) (layer : Bool) (eps : FVal) (xs gain : List FVal) : List FVal :=
  let (ds, r) := p.norm layer eps xs
  ds.zipWith (fun d g => (d.mul r).mul g) gain

/-- DRMSN (R174): the expression inside the last product formed in FP32, left to right. -/
def Prec.drmsn (p : Prec) (layer : Bool) (eps : FVal) (xs gs : List FVal) : List FVal :=
  let n := xs.length
  let (ds, r) := p.norm layer eps xs
  if layer then
    let hs := ds.map fun d => p.rd (d.mul r)
    let m1 := p.rd ((p.rd (p.csum gs)).divN n)
    let m2 := p.rd ((p.rd (p.csumProd (gs.zipWith FVal.mul hs))).divN n)
    gs.zipWith (fun g h => r.mul (p.rd ((p.rd (g.sub m1)).sub (p.rd (h.mul m2))))) hs
  else
    let c := p.rd (p.csumProd (gs.zipWith FVal.mul xs))
    gs.zipWith (fun g x => r.mul (p.rd (g.sub (p.rd ((p.rd ((p.rd (x.mul (p.rd (r.mul r)))).mul c)).divN n))))) xs

/-- m, the e_j and s of R171. -/
def Prec.soft (p : Prec) (xs : List FVal) : FVal × List FVal × FVal :=
  let m := rowMax 0 xs
  let es := xs.map fun x => p.sp 0x10 (p.rd (x.sub m))
  (m, es, p.rd (p.csum es))

/-- R171: an SMAX output before its final rounding, within (3 + |a_j − m|) × 2^−24 of the exact softmax `exact`, relative; `d` is |a_j − m|. The
bounds of EXP alone would allow more; what lies outside is moved to the bound (log 114). -/
def smaxBound (exact d y : FVal) : FVal :=
  if !y.isFin || !exact.isFin || !d.isFin then y
  else
    let r := (exact.mul ((FVal.ofInt 3).add d)).scale (-24)
    if y.lt (exact.sub r) then exact.sub r else if (exact.add r).lt y then exact.add r else y

/-- SMAX (R171, R172). -/
def Prec.smax (p : Prec) (logarithm : Bool) (xs : List FVal) : List FVal :=
  let (m, es, t) := p.soft xs
  if m = .inf true then xs.map fun _ => if logarithm then .inf true else .zero false
  else if logarithm then
    let l := p.sp 0x11 t
    xs.map fun x => (p.rd (x.sub m)).sub l
  else
    match p with
    | .core =>
      let ex := xs.map fun x => match specSpecial 0x10 (x.sub m) with
        | some v => v
        | none => expVal (x.sub m)
      let sum := exactSum ex
      (xs.zip (ex.zip es)).map fun x => smaxBound (x.2.1.div sum) (x.1.sub m).abs (x.2.2.div t)
    | .wide _ => es.map fun e => e.div t

/-- DSMAX (R175). -/
def Prec.dsmax (p : Prec) (ys gs : List FVal) : List FVal :=
  let q := p.rd (p.csumProd (gs.zipWith FVal.mul ys))
  ys.zipWith (fun y g => p.deriv 0x2B 2 y g (y.mul (g.sub q))) gs

/-- The column of an XENT target (R173). -/
def xentCol (t : Int) (n : Nat) : Nat := (max 0 (min ((n : Int) - 1) t)).toNat

/-- XENT (R171–R173). -/
def Prec.xent (p : Prec) (grad : Bool) (c : FVal) (xs : List FVal) (t : Int) : List FVal :=
  let zeros := xs.map fun _ => FVal.zero false
  if t = -1 then (if grad then zeros else [.zero false])
  else
    let j := xentCol t xs.length
    let (m, es, u) := p.soft xs
    if m = .inf true then (if grad then zeros else [.inf false])
    else if grad then
      es.zipIdx.map fun e => (c.mul (if e.2 = j then e.1.sub u else e.1)).div u
    else [c.mul ((p.rd ((p.sp 0x11 u).add m)).sub (xs.getD j (.zero false)))]

/-! ## TOPK and keys (R178–R180) -/

/-- The better of two scores: larger first, or smaller with `small`; the earlier column on equal bits. -/
def betterScore (small : Bool) (a b : Nat × Nat) : Nat × Nat :=
  if if small then totalKey b.1 < totalKey a.1 else totalKey a.1 < totalKey b.1 then b else a

/-- The `k` best scores with their columns, in rank order. -/
def topScores (small : Bool) : Nat → List (Nat × Nat) → List (Nat × Nat)
  | 0, _ => []
  | _, [] => []
  | k + 1, a :: r =>
    let b := r.foldl (betterScore small) a
    b :: topScores small k ((a :: r).filter fun x => x.2 ≠ b.2)

/-- R178: one row of a TOPK result. -/
def topkRow (small : Bool) (k : Nat) (codes : List Nat) : List Nat :=
  let b := topScores small k codes.zipIdx
  b.map (fun x => x.2 * 2 ^ 32 + x.1) ++ List.replicate (k - b.length) 0xFFFFFFFFFF800000

/-- Puts a key among ascending keys. -/
def putKey (x : Nat) : List Nat → List Nat
  | [] => [x]
  | y :: r => if x ≤ y then x :: y :: r else y :: putKey x r

/-- Keys in ascending order (R179). -/
def sortKeys (ks : List Nat) : List Nat := ks.foldr putKey []

/-- R180: the segments of a key sequence, each with its index and its row fields. -/
def segmentsOf : List Nat → List (Nat × List Nat)
  | [] => []
  | k :: r =>
    match segmentsOf r with
    | [] => [(k / 2 ^ 24, [k % 2 ^ 24])]
    | (i, rows) :: t =>
      if k / 2 ^ 24 = i then (i, (k % 2 ^ 24) :: rows) :: t else (k / 2 ^ 24, [k % 2 ^ 24]) :: (i, rows) :: t

/-! ## Operands -/

/-- The operation reads b; reads c (R166). -/
def vxUsesB (op : Nat) : Bool :=
  decide (op ≤ 7) || [0x0B, 0x0C, 0x0D, 0x17, 0x22, 0x28, 0x29, 0x2B, 0x2C, 0x3B].contains op ||
  (decide (0x30 ≤ op) && decide (op ≤ 0x35))
def vxUsesC (op mod : Nat) : Bool :=
  [0x03, 0x0C, 0x28, 0x29, 0x2C, 0x38].contains op || ((op == 0x34 || op == 0x35) && mod == 1)

/-- The largest meaningful `mod`[2:0] (R166). -/
def vxModMax (op : Nat) : Nat :=
  if op = 0x0B then 5 else if op = 0x23 then 3
  else if [0x28, 0x29, 0x2A, 0x2C, 0x34, 0x35, 0x38].contains op then 1 else 0

/-- c must be a scalar. -/
def vxScalarOnly (op : Nat) : Bool := [0x28, 0x29, 0x2C, 0x38].contains op

/-- Fields of a VX word. -/
def vxMod (w : Nat) : Nat := bits w 28 26
def vxScalarC (w : Nat) : Bool := bit w 29
def vxOp (w : Nat) : Nat := bits w 59 54

/-- The handles a VX instruction reads. -/
def vxSources (w : Nat) : List Nat :=
  [bits w 47 42] ++ (if vxUsesB (vxOp w) then [bits w 41 36] else []) ++
  (if vxUsesC (vxOp w) (vxMod w) && !vxScalarC w then [bits w 35 30] else [])

/-- R165: a source fits an element-wise destination. -/
def fitsShape (h d : Handle) : Bool := (h.rows == d.rows || h.rows == 1) && (h.cols == d.cols || h.cols == 1)

/-- Two handles have one shape. -/
def sameShape (h d : Handle) : Bool := h.rows == d.rows && h.cols == d.cols

/-- R165, R171–R180: the shapes of an instruction's operands; `kk` is TOPK's k. -/
def vxShapeOk (op mod kk : Nat) (a b c d : Handle) (scalarC : Bool) : Bool :=
  if op ≤ 0x18 ∨ 0x30 ≤ op ∧ op ≤ 0x35 then
    fitsShape a d && (!vxUsesB op || fitsShape b d) && (!vxUsesC op mod || scalarC || fitsShape c d)
  else
    match op with
    | 0x20 | 0x21 | 0x23 => d.rows == a.rows && d.cols == 1
    | 0x22 => sameShape a b && d.rows == a.rows && d.cols == 1
    | 0x28 => sameShape a d && b.rows == 1 && b.cols == a.cols
    | 0x29 => sameShape a d && sameShape a b
    | 0x2A => sameShape a d
    | 0x2B => sameShape a d && sameShape a b
    | 0x2C => b.rows == a.rows && b.cols == 1 && (if mod = 1 then sameShape a d else d.rows == a.rows && d.cols == 1)
    | 0x38 => d.rows == a.rows && d.cols == kk
    | 0x39 => decide (a.rows * a.cols ≤ 65536) && d.rows * d.cols == a.rows * a.cols
    | 0x3A => decide (a.rows * a.cols + 1 ≤ d.rows * d.cols)
    | _ => d.rows == a.rows * a.cols && d.cols == b.cols

/-- R161, R167: the types of an instruction's operands. -/
def vxTypesOk (op mod : Nat) (a b c d : Handle) (scalarC : Bool) : Bool :=
  let flt := fun (h : Handle) => !h.ty.isInt
  match op with
  | 0x0D => a.ty = .split && d.ty = .split && b.ty = .fp32
  | 0x20 | 0x21 | 0x23 => flt a && d.ty = .fp32
  | 0x22 => flt a && flt b && d.ty = .fp32
  | 0x2C => flt a && b.ty = .int32 && (if mod = 1 then flt d else d.ty = .fp32)
  | 0x38 => a.ty = .fp32 && d.ty = .int64
  | 0x39 | 0x3A => a.ty = .int64 && d.ty = .int64
  | 0x3B => a.ty = .int64 && flt b && flt d
  | op => flt a && flt d && (!vxUsesB op || flt b) && (!vxUsesC op mod || scalarC || flt c)

/-- The operations that run in BF16 mode (R160). -/
def vxBf16 (w : Nat) (srcs : List Handle) (d : Handle) : Bool :=
  decide (vxOp w ≤ 9) && bits w 25 24 == 0 && d.ty = .bf16 && srcs.all fun h => h.ty = .bf16

/-- A value of R160's FP32 mode: the FP32 result converted into the destination, unless the operation rounds once straight into
it (CVT, R171–R176) or the destination is FP32. -/
def vxDirect (op : Nat) : Bool :=
  op == 0x0A || decide (0x28 ≤ op)

/-- The element rounding of a VX result into `d` (R58, R74, R160, R229): an element-wise FP32 result, every Cistern result, and what CVT converts out
of the split-weight type is rounded to nearest even. -/
def vxRound (w : Nat) (cis : Bool) (a d : Handle) : Rnd :=
  if cis || (d.ty = .fp32 && !vxDirect (vxOp w)) || (vxOp w == 0x0A && a.ty = .split) then .rne
  else (Rnd.ofCode (bits w 25 24)).getD .rne

/-! ## Reading -/

/-- The values of a handle as a VX instruction reads them: under PAIR hi + lo rounded once, except in CVT (R228). A source whose exact value is no
FP32 value, a split weight h + l with a far residual or a block-scaled value outside FP32's range, enters the operation exactly and is not
rounded to FP32 first: R160 says that each source converts exactly, which such a value does not (log 115). -/
def State.vxVal (s : State) (exact : Bool) (h : Handle) (i j : Nat) : FVal :=
  if h.pair && !exact then flv (s.elemVal h i j) else s.elemVal h i j

/-- With broadcasting (R165). -/
def State.vxAt (s : State) (exact : Bool) (h : Handle) (i j : Nat) : FVal :=
  s.vxVal exact h (if h.rows = 1 then 0 else i) (if h.cols = 1 then 0 else j)

/-- A row of values. -/
def State.vxRow (s : State) (h : Handle) (i : Nat) : List FVal := (List.range h.cols).map (s.vxVal false h i)

/-- The FP32 bits of a score (R178, R228). -/
def State.vxCode (s : State) (h : Handle) (i j : Nat) : Nat :=
  if h.pair then fl (s.elemVal h i j) else s.elem h i j

/-- The keys of a handle in row-major order. -/
def State.vxKeys (s : State) (h : Handle) : List Nat :=
  (List.range h.rows).flatMap fun i => (List.range h.cols).map fun j => s.elem h i j

/-! ## Results -/

/-- The float results of an instruction before their rounding into the destination, row by row, in the core's arithmetic or
the wide unit's. -/
def State.vxFloats (s : State) (p : Prec) (w scalar : Nat) (a b c d : Handle) : List (List FVal) :=
  let op := vxOp w
  let mod := vxMod w
  let sc := v32 (scalar % 2 ^ 32)
  let rows := List.range a.rows
  match op with
  | 0x20 => rows.map fun i => [p.csum (s.vxRow a i)]
  | 0x21 => rows.map fun i => [p.csumProd ((s.vxRow a i).map fun x => x.mul x)]
  | 0x22 => rows.map fun i => [p.csumProd ((s.vxRow a i).zipWith FVal.mul (s.vxRow b i))]
  | 0x23 => rows.map fun i => [rowMax mod (s.vxRow a i)]
  | 0x28 => rows.map fun i => p.rmsn (mod == 1) sc (s.vxRow a i) (s.vxRow b 0)
  | 0x29 => rows.map fun i => p.drmsn (mod == 1) sc (s.vxRow a i) (s.vxRow b i)
  | 0x2A => rows.map fun i => p.smax (mod == 1) (s.vxRow a i)
  | 0x2B => rows.map fun i => p.dsmax (s.vxRow a i) (s.vxRow b i)
  | 0x2C => rows.map fun i => p.xent (mod == 1) sc (s.vxRow a i) (sext 32 (s.elem b i 0))
  | 0x3B =>
    let segs := segmentsOf (s.vxKeys a)
    (List.range d.rows).map fun v =>
      match segs[v]? with
      | none => List.replicate d.cols (.zero false)
      | some sg => (List.range d.cols).map fun j => p.csum (sg.2.map fun r => s.vxVal false b r j)
  | _ =>
    (List.range d.rows).map fun i =>
      (List.range d.cols).map fun j =>
        vxFn p op mod (s.vxAt (op == 0x0A) a i j) (if vxUsesB op then s.vxAt false b i j else .zero false)
          (if vxScalarC w then sc else if vxUsesC op mod then s.vxAt false c i j else .zero false)

/-- The integer results of TOPK, SORT and SEGKEY, by the destination's rows; none for the other operations. -/
def State.vxInts (s : State) (w scalar : Nat) (a d : Handle) : Option (List (List Nat)) :=
  let shape := fun (l : List Nat) => (List.range d.rows).map fun i => (l.drop (i * d.cols)).take d.cols
  match vxOp w with
  | 0x38 =>
    some ((List.range a.rows).map fun i =>
      topkRow (vxMod w == 1) (scalar % 2 ^ 32) ((List.range a.cols).map fun j => s.vxCode a i j))
  | 0x39 => some (shape (sortKeys (s.vxKeys a)))
  | 0x3A =>
    let segs := segmentsOf (s.vxKeys a)
    some (shape ([segs.length] ++ segs.map Prod.fst ++ List.replicate (d.rows * d.cols) 0))
  | _ => none

/-- XENT's clamped targets (R173), rows whose maximum is −∞ (R172), and DSILUU's unrecovered elements (R176). -/
def State.vxClamps (s : State) (w : Nat) (a b : Handle) : Nat :=
  if vxOp w = 0x2C then
    ((List.range a.rows).filter fun i =>
      let t := sext 32 (s.elem b i 0)
      decide (t < -1) || decide ((a.cols : Int) ≤ t)).length
  else 0
def State.vxEmpty (s : State) (w : Nat) (a b : Handle) : Nat :=
  if vxOp w = 0x2A ∨ vxOp w = 0x2C then
    ((List.range a.rows).filter fun i =>
      rowMax 0 (s.vxRow a i) = .inf true && !(vxOp w == 0x2C && sext 32 (s.elem b i 0) == -1)).length
  else 0
def State.vxUnrecovered (s : State) (w : Nat) (a d : Handle) : Nat :=
  if vxOp w = 0x35 ∧ vxMod w = 0 then
    ((List.range d.rows).map fun i => ((List.range d.cols).filter fun j => (s.vxAt false a i j).eq oneVal).length).sum
  else 0

/-! ## Issue -/

/-- The fields of a VX word hold no reserved value (R134, R143, R166). -/
def vxWordOk (w : Nat) : Bool :=
  bits w 25 24 != 3 && bits w 1 0 == 0 && decide (vxMod w ≤ vxModMax (vxOp w)) && (!vxScalarOnly (vxOp w) || vxScalarC w)

/-- The cause of the program fault a VX instruction is, none where it is legal (R161–R167, R229). -/
def State.vxCause (s : State) (k w kk : Nat) (a b c d : Handle) : Option Nat :=
  let op := vxOp w
  let mod := vxMod w
  if d.block.scaled || !vxTypesOk op mod a b c d (vxScalarC w) then some 1
  else if inCistern k d.base && !s.cisOpen k then some 1
  else if op = 0x38 && (kk = 0 || decide (16 < kk)) then some 1
  else if !vxShapeOk op mod kk a b c d (vxScalarC w) then some 2
  else none

/-- The scalar registers a VX instruction reads: c's, and under SR seed, salt and position. -/
def vxRegs (w : Nat) : List Nat :=
  (if vxScalarC w && vxUsesC (vxOp w) (vxMod w) then [bits w 34 30] else []) ++
  (if bits w 25 24 = 2 then [bits w 15 11, bits w 10 6, 32 + bits w 5 2] else [])

/-- An instruction enters the vector engine (R163). -/
def State.vecEnter (s : State) (k : Nat) (f : Flight) : State :=
  let c := s.core k
  (s.setCore k { c with vxq := c.vxq ++ [f] }).issued k (c.pc + 1)

/-- An instruction of the vector engine waits at issue: two are there, or a hold is set (R163). -/
def Core.vecWait (c : Core) : Bool := decide (2 ≤ c.vxq.length) || c.hold

/-- The legality of the keys of SEGSUM (R180): a key whose row field is not below b's rows. -/
def State.segBad (s : State) (w : Nat) (a b : Handle) : Bool :=
  vxOp w == 0x3B && (s.vxKeys a).any fun x => decide (b.rows ≤ x % 2 ^ 24)

/-- A VX instruction of operation `op` (R143, R163, R166). -/
def State.vx (s : State) (k op : Nat) : State :=
  s.issue k 4 op fun w s =>
    let c := s.core k
    let a := c.handle (bits w 47 42)
    let b := c.handle (bits w 41 36)
    let cc := c.handle (bits w 35 30)
    let d := c.handle (bits w 53 48)
    let kk := c.get (bits w 34 30) % 2 ^ 32
    let srcs := vxSources w
    let ready := (srcs.map c.readable).foldl Ready.and (c.writable (bits w 53 48))
    if !vxWordOk w then s.progFault k 1 w
    else if c.anyPend (vxRegs w) then s.hold k
    else if (srcs ++ [bits w 53 48]).any (fun h => (c.handle h).st = .free) then s.progFault k 2 w
    else
      match s.vxCause k w kk a b cc d with
      | some cause => s.progFault k cause w
      | none =>
        match ready with
        | .illegal => s.progFault k 2 w
        | .wait => s.hold k
        | .ok =>
          if c.vecWait then s.holdEngine k
          else if s.segBad w a b then s.progFault k 2 w
          else
            let n := c.vxn
            let take := s.dipOn k && s.sampled k (s.fieldOf Reg.dipCtl 15 12) n
            let f : Flight :=
              { word := w, td := some (bits w 53 48, d), ta := some (bits w 47 42, a),
                tb := if vxUsesB op then some (bits w 41 36, b) else none,
                tc := if vxUsesC op (vxMod w) && !vxScalarC w then some (bits w 35 30, cc) else none,
                scalar := c.get (bits w 34 30), seed := c.get (bits w 15 11), salt := c.get (bits w 10 6) % 2 ^ 32,
                pos := c.get (32 + bits w 5 2), rd := none, cold := false, amax := 0,
                sample := if take then some (0, n) else none, launch := (c.run.map Run.launch).getD 0,
                since := s.cycles k, loadWait := 0 }
            (s.setCore k { c with vxn := n + 1 }).vecEnter k f

/-! ## Completion -/

/-- The inputs of R77 for a VX or SCALE result. -/
def Flight.vxSr (f : Flight) : SrIn := ⟨f.seed, f.salt, bits f.word 23 16, f.pos⟩

/-- A tile of values written into a destination without block scales; intermediates are not counted (R255). -/
def State.vxStore (s : State) (k w : Nat) (f : Flight) (a d : Handle) (bf : Bool) (vs : List (List FVal)) : State :=
  let cis := inCistern k d.base
  let counted := !([0x20, 0x21, 0x22, 0x23].contains (vxOp w) || (vxOp w == 0x2C && vxMod w == 0))
  let vs := if bf || cis || vxDirect (vxOp w) || d.ty = .fp32 then vs else vs.map fun r => r.map flv
  let codes := tileCodes d.ty .none (vxRound w cis a d) false f.vxSr [] d.rows d.cols vs
  let s := if d.pair then s.putPairRows d 0 (codes.map fun r => r.map fun c => (c.1, 0))
    else s.putRows d 0 (codes.map fun r => r.map Prod.fst)
  if counted then s.countConv d.ty codes.flatten else s

/-- The dip of a VX instruction (R86, R87): one element of the result. -/
def State.vxDip (s : State) (k : Nat) (f : Flight) (a b c d : Handle) (bf : Bool) (vs : List (List FVal)) (count : Nat) : Dip :=
  let i := rand16 (s.reg Reg.dipSeed) k 0xFFFF count % (d.rows * d.cols)
  let y := cellOf vs (i / d.cols) (i % d.cols)
  let ws := s.vxFloats (.wide s.free) f.word f.scalar a b c d
  let sfu := decide (0x10 ≤ vxOp f.word) && decide (vxOp f.word ≤ 0x18)
  { core := k, launch := f.launch, cls := if sfu then 7 else if bf then 6 else 5,
    cells := [⟨i / d.cols, i % d.cols, if bf then fl (EType.val .bf16 (EType.rne .bf16 y)) else fl y,
      fl64 (cellOf ws (i / d.cols) (i % d.cols)), .zero false, none⟩] }

/-- The result of a VX instruction is written, with its counts (R172, R173, R176) and its dip. -/
def State.vxWrite (s : State) (k : Nat) (f : Flight) (a b c d : Handle) : State :=
  let w := f.word
  match s.vxInts w f.scalar a d with
  | some rows => s.putRows d 0 rows
  | none =>
    let srcs := [a] ++ (f.tb.map Prod.snd).toList ++ (f.tc.map Prod.snd).toList
    let bf := vxBf16 w srcs d
    let vs := s.vxFloats .core w f.scalar a b c d
    let t := s.vxStore k w f a d bf vs
    let t := match f.sample with
      | none => t
      | some (_, count) =>
        if d.rows * d.cols = 0 then t
        else { t with dips := t.dips ++ [s.vxDip k f a b c d bf vs count], free := t.free + 1 }
    let n := s.vxClamps w a b
    let t := ((t.incReg (Reg.vecClamps k) n).incReg (Reg.vecEmptyRows k) (s.vxEmpty w a b)).incReg (Reg.vecSilu k)
      (s.vxUnrecovered w a d)
    if n = 0 then t else t.markRun f.launch fun l => { l with clamped := true }

/-! ## The rows -/

/-- ADD (R166). -/
def execVxAdd (k : Fin 256) (s : State) : Host.Outcome State Fault Refusal := .next (s.vx k 0x00)

/-- SUB (R166). -/
def execVxSub (k : Fin 256) (s : State) : Host.Outcome State Fault Refusal := .next (s.vx k 0x01)

/-- MUL (R166). -/
def execVxMul (k : Fin 256) (s : State) : Host.Outcome State Fault Refusal := .next (s.vx k 0x02)

/-- FMA (R166). -/
def execFma (k : Fin 256) (s : State) : Host.Outcome State Fault Refusal := .next (s.vx k 0x03)

/-- MAX (R166). -/
def execVxMax (k : Fin 256) (s : State) : Host.Outcome State Fault Refusal := .next (s.vx k 0x04)

/-- MIN (R166). -/
def execVxMin (k : Fin 256) (s : State) : Host.Outcome State Fault Refusal := .next (s.vx k 0x05)

/-- MAXNUM (R166). -/
def execMaxnum (k : Fin 256) (s : State) : Host.Outcome State Fault Refusal := .next (s.vx k 0x06)

/-- MINNUM (R166). -/
def execMinnum (k : Fin 256) (s : State) : Host.Outcome State Fault Refusal := .next (s.vx k 0x07)

/-- ABS (R166). -/
def execAbs (k : Fin 256) (s : State) : Host.Outcome State Fault Refusal := .next (s.vx k 0x08)

/-- NEG (R166). -/
def execNeg (k : Fin 256) (s : State) : Host.Outcome State Fault Refusal := .next (s.vx k 0x09)

/-- CVT (R166). -/
def execCvt (k : Fin 256) (s : State) : Host.Outcome State Fault Refusal := .next (s.vx k 0x0A)

/-- CMP (R166). -/
def execCmp (k : Fin 256) (s : State) : Host.Outcome State Fault Refusal := .next (s.vx k 0x0B)

/-- SEL (R166). -/
def execSel (k : Fin 256) (s : State) : Host.Outcome State Fault Refusal := .next (s.vx k 0x0C)

/-- PADD (R166). -/
def execPadd (k : Fin 256) (s : State) : Host.Outcome State Fault Refusal := .next (s.vx k 0x0D)

/-- EXP (R166). -/
def execExp (k : Fin 256) (s : State) : Host.Outcome State Fault Refusal := .next (s.vx k 0x10)

/-- LOG (R166). -/
def execLog (k : Fin 256) (s : State) : Host.Outcome State Fault Refusal := .next (s.vx k 0x11)

/-- RSQRT (R166). -/
def execRsqrt (k : Fin 256) (s : State) : Host.Outcome State Fault Refusal := .next (s.vx k 0x12)

/-- SIGM (R166). -/
def execSigm (k : Fin 256) (s : State) : Host.Outcome State Fault Refusal := .next (s.vx k 0x13)

/-- LOGIT (R166). -/
def execLogit (k : Fin 256) (s : State) : Host.Outcome State Fault Refusal := .next (s.vx k 0x14)

/-- TANH (R166). -/
def execTanh (k : Fin 256) (s : State) : Host.Outcome State Fault Refusal := .next (s.vx k 0x15)

/-- SILU (R166). -/
def execSilu (k : Fin 256) (s : State) : Host.Outcome State Fault Refusal := .next (s.vx k 0x16)

/-- DIV (R166). -/
def execDiv (k : Fin 256) (s : State) : Host.Outcome State Fault Refusal := .next (s.vx k 0x17)

/-- SQRT (R166). -/
def execSqrt (k : Fin 256) (s : State) : Host.Outcome State Fault Refusal := .next (s.vx k 0x18)

/-- RSUM (R166). -/
def execRsum (k : Fin 256) (s : State) : Host.Outcome State Fault Refusal := .next (s.vx k 0x20)

/-- RSSQ (R166). -/
def execRssq (k : Fin 256) (s : State) : Host.Outcome State Fault Refusal := .next (s.vx k 0x21)

/-- RDOT (R166). -/
def execRdot (k : Fin 256) (s : State) : Host.Outcome State Fault Refusal := .next (s.vx k 0x22)

/-- RMAX (R166). -/
def execRmax (k : Fin 256) (s : State) : Host.Outcome State Fault Refusal := .next (s.vx k 0x23)

/-- RMSN (R166). -/
def execRmsn (k : Fin 256) (s : State) : Host.Outcome State Fault Refusal := .next (s.vx k 0x28)

/-- DRMSN (R166). -/
def execDrmsn (k : Fin 256) (s : State) : Host.Outcome State Fault Refusal := .next (s.vx k 0x29)

/-- SMAX (R166). -/
def execSmax (k : Fin 256) (s : State) : Host.Outcome State Fault Refusal := .next (s.vx k 0x2A)

/-- DSMAX (R166). -/
def execDsmax (k : Fin 256) (s : State) : Host.Outcome State Fault Refusal := .next (s.vx k 0x2B)

/-- XENT (R166). -/
def execXent (k : Fin 256) (s : State) : Host.Outcome State Fault Refusal := .next (s.vx k 0x2C)

/-- DSIGM (R166). -/
def execDsigm (k : Fin 256) (s : State) : Host.Outcome State Fault Refusal := .next (s.vx k 0x30)

/-- DTANH (R166). -/
def execDtanh (k : Fin 256) (s : State) : Host.Outcome State Fault Refusal := .next (s.vx k 0x31)

/-- DRELU (R166). -/
def execDrelu (k : Fin 256) (s : State) : Host.Outcome State Fault Refusal := .next (s.vx k 0x32)

/-- DEXP (R166). -/
def execDexp (k : Fin 256) (s : State) : Host.Outcome State Fault Refusal := .next (s.vx k 0x33)

/-- DSILU (R166). -/
def execDsilu (k : Fin 256) (s : State) : Host.Outcome State Fault Refusal := .next (s.vx k 0x34)

/-- DSILUU (R166). -/
def execDsiluu (k : Fin 256) (s : State) : Host.Outcome State Fault Refusal := .next (s.vx k 0x35)

/-- TOPK (R166). -/
def execTopk (k : Fin 256) (s : State) : Host.Outcome State Fault Refusal := .next (s.vx k 0x38)

/-- SORT (R166). -/
def execSort (k : Fin 256) (s : State) : Host.Outcome State Fault Refusal := .next (s.vx k 0x39)

/-- SEGKEY (R166). -/
def execSegkey (k : Fin 256) (s : State) : Host.Outcome State Fault Refusal := .next (s.vx k 0x3A)

/-- SEGSUM (R166). -/
def execSegsum (k : Fin 256) (s : State) : Host.Outcome State Fault Refusal := .next (s.vx k 0x3B)

end Sys2Proof.Machine
end

