-- ==== Sys2Proof/Machine/Mover.lean ====
section
/-! DEFINITION. The tensor movers (07_layouts_and_landing.md R196–R217): MOVE with its paths, its conversions and its staged and in-place
forms, GATHER, and SCATTER with its reproducible form. -/

namespace Sys2Proof.Machine

/-! ## What the three have in common -/

/-- A descriptor of the tensor mover may start: it is at its context's head, and one of the mover's 16 places is free (R196). -/
def State.moverReady (s : State) (i op : Nat) : Bool := s.opReady i op && decide (s.moverLoad (s.slot i).mover < 16)

/-- A descriptor handed to a disabled tensor mover is not executed (R505). -/
def State.moverOff (s : State) (i : Nat) : Bool := s.unitOff (64 + (s.slot i).mover)

/-- A check has failed: the command ends with its status, and an overlap is counted (R211, R214). -/
def State.moverFail (s : State) (i st : Nat) : State :=
  (if st = stOverlap then s.incReg (Reg.moverOverlaps (s.slot i).mover) 1 else s).endSlot i st 0

/-- The bytes of a copy are counted on its path (R197). -/
def State.moverBytes (s : State) (m : Nat) (dense : Bool) (rd wr : List (Nat × List Byte)) : State :=
  let unit := if dense then 128 else 8
  let n := max (runBytes unit rd) (runBytes unit wr)
  if dense then s.incReg (Reg.moverBytesDense m) n else s.incReg (Reg.moverBytesStrided m) n

/-- The innermost run of the tensor is contiguous. -/
def Tensor.unit0 (t : Tensor) : Bool := t.d.owned || t.d.stride.headD 0 == 1

/-- The status of a copy that has run (R214). -/
def copyStatus (dead : Bool) (clamps : Nat) : Nat × Nat :=
  if dead then (stDead, 0) else if 0 < clamps then (stClamped, clamps % 65536) else (stOk, 0)

/-- `n` bytes that nothing fixes. -/
def State.freeBytes (s : State) (n : Nat) : State × List Byte :=
  let (f, s) := s.takeFree
  (s, leBytes n f)

/-- R150 for the cores a built-in program is entered on: out of range, or about to retire. -/
def State.coresBad (s : State) (base n : Nat) : Option Nat :=
  if n = 0 || decide (s.fieldOf Reg.geomCores 8 0 < base + n) then some stInvalid
  else if (List.range n).any fun l => s.retPending (base + l) then some stRetired
  else none

/-- A started command goes on: it has opcode `op`, and its units run. -/
def State.moverRuns (s : State) (i op : Nat) : Bool := (s.slot i).opcode == op && (s.slot i).stage = .started && s.running

/-- The mover takes the command in slot `i` (R196): it starts, and its LOADs of other rooms' bytes are issued in order. -/
def State.moverLoads (s : State) (i step : Nat) (l : List (Nat × Nat)) : State :=
  (s.setSlot i { s.slot i with stage := .started, step := step }).loadAll i l

/-- The mover's own reads are over: nothing is outstanding. Where a read was refused the command ends before it writes (R392). -/
def State.moverRead (s : State) (i : Nat) (go : State → State) : State :=
  if s.slotBusy i then s else if (s.slot i).refused then s.builtinOver i stDenied 0 else go s

/-! ## MOVE (R198–R201, R211–R213) -/

/-- Fields of a MOVE (R454). -/
def Slot.mvPerm (v : Slot) : List Nat := (List.range 8).map fun d => bits (v.word 6) (3 * d + 2) (3 * d)
def Slot.mvRnd (v : Slot) : Nat := bits (v.word 6) 25 24
def Slot.mvStaged (v : Slot) : Bool := bit (v.word 6) 26
def Slot.mvGet (v : Slot) : Bool := bit (v.word 6) 27
def Slot.mvBase (v : Slot) : Nat := bits (v.word 6) 35 28
def Slot.mvCount (v : Slot) : Nat := bits (v.word 6) 44 36
def Slot.mvLen (v : Slot) : Nat := bits (v.word 6) 59 45

/-- The copy swaps dimensions 0 and 1. -/
def Slot.mvSwap (v : Slot) : Bool := v.mvPerm.getD 0 0 == 1 && v.mvPerm.getD 1 0 == 0

/-- The source index of a destination index: destination dimension d takes source dimension perm[d] (R198). -/
def Slot.mvFrom (v : Slot) (ix : List Nat) : List Nat :=
  (List.range 8).map fun e => match v.mvPerm.findIdx? (· == e) with
    | some d => ix.getD d 0
    | .none => 0

/-- The copy converts its elements. -/
def converts (a b : TDesc) : Bool := a.ty != b.ty || a.block != b.block

/-- R198: `perm` is no permutation of the dimensions of a tensor. -/
def Slot.permBad (v : Slot) (a : TDesc) : Bool :=
  !((List.range 8).all fun d => if d < a.rank then v.mvPerm.contains d && decide (v.mvPerm.getD d 0 < a.rank) else v.mvPerm.getD d 0 == d)

/-- Fields of a MOVE that are not valid whatever its tensors (R454). -/
def Slot.mvFieldBad (v : Slot) : Bool := v.mvRnd == 3 || decide (16384 < v.mvLen)

/-- R73, R198, R199, R454: a MOVE of these tensors is not valid. -/
def Slot.mvBad (v : Slot) (a b : TDesc) : Bool :=
  let p := v.mvPerm
  a.rank != b.rank || v.permBad a ||
  !((List.range 8).all fun d => b.size.getD d 1 == a.size.getD (p.getD d 0) 1) ||
  ((a.block.scaled || b.block.scaled) && decide (1 < max (p.getD 0 0) (p.getD 1 0))) ||
  (v.mvSwap && (a.block = .mx || b.block = .mx)) || (v.mvRnd == 2 && converts a b && b.ty.isInt) || v.mvFieldBad

/-- R200: a tensor is in the tile-aligned class. -/
def TDesc.tileOk (d : TDesc) : Bool :=
  let n := d.ty.width / 8
  !d.owned && (d.ty.width == 8 || d.ty.width == 16) && d.stride.headD 0 == 1 && d.base % 128 == 0 && d.stride.getD 1 0 * n % 128 == 0 &&
  d.size.headD 0 % 128 == 0 && d.size.getD 1 1 % 128 == 0

/-- The MOVE takes the Landing path (R200). -/
def Slot.mvLanding (v : Slot) (a b : TDesc) : Bool := v.mvSwap && v.mvCount != 0 && !v.mvGet && a.tileOk && b.tileOk

/-- R212: an in-place transpose. -/
def Slot.mvInPlace (v : Slot) (a b : TDesc) : Bool :=
  v.mvLanding a b && a.raw == b.raw && (v.mvPerm.drop 2 == [2, 3, 4, 5, 6, 7]) && a.size.headD 0 == a.size.getD 1 0

/-- A region named for staging lies in this room's scratch (R213). -/
def State.inScratch (s : State) (a n : Nat) : Bool :=
  s.isLocal a && (match regionOf (aOff a), regionOf (aOff a + n - 1) with
    | some (.scratch _), some (.scratch _) => true
    | _, _ => false)

/-- R211, R213: what an overlap leads to. -/
def State.mvOverlap (s : State) (v : Slot) (a b : Tensor) : Option Nat :=
  if !a.overlaps b || v.mvInPlace a.d b.d then none
  else if !v.mvStaged then some stOverlap
  else
    let need := a.d.denseBytes
    let len := v.mvLen * 4096
    if 2 ^ 26 < need || len < need then some stOverlap
    else if !s.inScratch (v.word 5) len || (a.extents ++ b.extents).any (rangesMeet (v.word 5, len)) then some stInvalid
    else s.writeBad false (v.word 5) len

/-- The rounding a MOVE's conversion takes: FP32 into HF19 takes the destination descriptor's, conversions between block shapes of one type
and out of split weight round to nearest even (R55, R58, R68, R74). -/
def Slot.mvMode (v : Slot) (a b : TDesc) : Rnd :=
  if a.ty = .fp32 && b.ty = .hf19 then (if b.hf19Rne then .rne else .rtz)
  else if a.ty = .split || (a.ty = b.ty && a.block.scaled && b.block.scaled) then .rne
  else (Rnd.ofCode v.mvRnd).getD .rne

/-- The inputs of R77. -/
def Slot.mvSr (v : Slot) : SrIn := ⟨v.word 4, bits (v.word 7) 31 0, bits (v.word 7) 47 32, 0⟩

/-- One block of the destination from source elements: its scale, and the codes and events of its elements (R66, R68, R199). -/
def Slot.mvBlock (v : Slot) (a b : TDesc) (scales : List Nat) (vs : List (FVal × Nat)) : Nat × List (Nat × Ev) :=
  let mode := v.mvMode a b
  if a.ty = b.ty && a.block.scaled then
    let c := scales.foldl max 0
    (c, vs.map fun x => blockElem b.ty mode b.e5inf c x.2 x.1)
  else
    let o := writeBlock b.ty mode b.e5inf .none vs
    (o.scale, o.codes)

/-- What a MOVE writes: element codes and block scales by destination index, and the events of its conversions. `get` reads the source:
code, scale byte and value. -/
def Slot.mvData (v : Slot) (a b : Tensor) (get : List Nat → Nat × Nat × FVal) : List (List Nat × Nat) × List (List Nat × Nat) × List (Nat × Ev) :=
  let rnd := fun (ix : List Nat) => if v.mvMode a.d b.d = .sr then v.mvSr.at (linAt b.d.size ix) else 0
  if !converts a.d b.d then
    ((allIdx b.d.size).map fun ix => (ix, (get (v.mvFrom ix)).1),
     if b.d.block.scaled then b.blocks.map fun c => (c.headD [], (get (v.mvFrom (c.headD []))).2.1) else [], [])
  else if !b.d.block.scaled then
    let l := (allIdx b.d.size).map fun ix => (ix, b.d.ty.conv (v.mvMode a.d b.d) b.d.e5inf (rnd ix) (get (v.mvFrom ix)).2.2)
    (l.map fun x => (x.1, x.2.1), [], l.map Prod.snd)
  else
    let l := b.blocks.map fun c =>
      (c, v.mvBlock a.d b.d (c.map fun ix => (get (v.mvFrom ix)).2.1) (c.map fun ix => ((get (v.mvFrom ix)).2.2, rnd ix)))
    let es := l.flatMap fun x => x.1.zip x.2.2
    let at_ := fun (ix : List Nat) => ((es.find? fun e => e.1 == ix).map fun e => e.2.1).getD 0
    ((allIdx b.d.size).map fun ix => (ix, at_ ix), l.map fun x => (x.1.headD [], x.2.1), es.map fun e => e.2)

/-- A MOVE writes its destination (R199). -/
def State.mvWrite (s : State) (i : Nat) (v : Slot) (a b : Tensor) (get : List Nat → Nat × Nat × FVal) : State :=
  let (codes, scales, evs) := v.mvData a b get
  let s := if evs.isEmpty then s else s.countConv b.d.ty evs
  (s.putRuns i 4 (b.runs codes)).putRuns i 4 (b.scaleRuns scales)

/-- The source as the tensor mover reads it. -/
def State.mvGetter (s : State) (v : Slot) (a : Tensor) (ix : List Nat) : Nat × Nat × FVal :=
  (s.tcode v a ix, if a.d.block.scaled then s.tscale v a ix else 0, s.tval v a ix)

/-- R213: the staging region takes the source, dense, with its scale plane. -/
def State.mvStage (s : State) (i : Nat) (v : Slot) (a : Tensor) : State :=
  let codes := (allIdx a.d.size).map fun ix => s.tcode v a ix
  let row := a.d.size.headD 0
  let rows := (List.range (sizeOf_ (a.d.size.drop 1))).flatMap fun r => rowCodes a.d.ty ((codes.drop (r * row)).take row)
  let plane := if a.d.block.scaled then a.blocks.map fun c => BitVec.ofNat 8 (s.tscale v a (c.headD [])) else []
  (s.incReg (Reg.moverStaged v.mover) 1).descWrite i 4 (v.word 5) (rows ++ plane)

/-- The check of the cores a MOVE names (R150, R200, R201); a retiring one matters to the Landing path alone. -/
def State.mvCoresBad (s : State) (v : Slot) (landing : Bool) : Option Nat :=
  if v.mvSwap && v.mvCount != 0 then
    match s.coresBad v.mvBase v.mvCount with
    | some st => if st = stRetired && !landing then none else some st
    | none => none
  else none

/-- The checks of a MOVE made before execution (R214), on what could be read of its tensors. -/
def State.mvChecks (s : State) (v : Slot) (a b : Except Nat Tensor) : Option Nat :=
  firstBad
    ([tensorErr a, tensorErr b, if v.mvFieldBad then some stInvalid else none,
      match a with | .ok a => s.tensorReadBad true a | .error _ => none, match b with | .ok b => s.tensorWriteBad true b | .error _ => none] ++
     (match v.fieldsOf (v.word 2), v.fieldsOf (v.word 3) with
      | some a, some b => [if v.mvBad a b then some stInvalid else none, s.mvCoresBad v (v.mvLanding a b)]
      | some d, none | none, some d => [if v.permBad d then some stInvalid else none, s.mvCoresBad v false]
      | none, none => [s.mvCoresBad v false]) ++
     (match a, b with
      | .ok a, .ok b => [s.mvOverlap v a b]
      | _, _ => []))

/-- The copy of a MOVE: its path's counts, its staging, its writes, and its end (R197, R201, R211–R214). On the Landing path its cores end with
it. -/
def State.mvCopy (s : State) (i : Nat) (a b : Tensor) : State :=
  let v := s.slot i
  let ixs := allIdx a.d.size
  let get := s.mvGetter v a
  let t := s.noteElems 4 a ixs
  let t := if a.overlaps b && !v.mvInPlace a.d b.d then t.mvStage i v a else t
  let t :=
    if v.mvLanding a.d b.d then
      if v.mvInPlace a.d b.d && a.overlaps b then t.incReg (Reg.moverInplace v.mover) 1 else t
    else
      t.moverBytes v.mover (v.mvPerm.headD 0 == 0 && a.unit0 && b.unit0)
        (a.runs (ixs.map fun x => (x, 0)) ++ if a.d.block.scaled then a.scaleRuns (a.blocks.map fun c => (c.headD [], 0)) else [])
        (b.runs ((allIdx b.d.size).map fun x => (x, 0)) ++ if b.d.block.scaled then b.scaleRuns (b.blocks.map fun c => (c.headD [], 0)) else [])
  let t := t.mvWrite i v a b get
  let t := t.setSlot i { t.slot i with step := 3, dead := (t.slot i).dead || s.elemsDead v a ixs }
  t.builtinOver i stOk 0

/-- A started MOVE goes on: its reads once its path is there (R201), its copy once they are over, its end. -/
def State.mvGo (s : State) (i : Nat) : State :=
  let v := s.slot i
  match v.tensorOf false (v.word 2), v.tensorOf true (v.word 3) with
  | .ok a, .ok b =>
    if v.step = 3 then s.builtinOver i stOk 0
    else if s.hostHeld (a.extents ++ b.extents) then s
    else if v.step = 1 && v.mvLanding a.d b.d && (s.builtinCores i).isEmpty then (if s.launchOver i then s.builtinOver i stOk 0 else s)
    else
      let t := if v.step = 1 then s.moverLoads i 2 (a.readRuns (allIdx a.d.size)) else s
      t.moverRead i fun t => t.mvCopy i a b
  | _, _ => s

/-- A MOVE that has passed its checks starts; one of no elements has nothing to do (R198). On the Landing path it enters its cores' queues. -/
def State.mvStart (s : State) (i : Nat) (a b : Tensor) : State :=
  let v := s.slot i
  if a.d.size.contains 0 then s.endSlot i stOk 0
  else if v.mvLanding a.d b.d then s.enterBuiltin i ((List.range v.mvCount).map fun l => s.phys (v.mvBase + l))
  else (s.setSlot i { v with stage := .started, step := 1 }).mvGo i

/-- MOVE (R182, R196–R201, R211–R214): the MOVE in slot `i` goes on: its descriptors are read, its checks made, its copy carried out. A bulk get
(R410) is a command of its own. -/
def execMove (i : Nat) (s : State) : Host.Outcome State Fault Refusal :=
  if s.moverRuns i 2 then .next (if (s.slot i).mvGet then s else s.mvGo i)
  else if (s.slot i).mvGet then .next s
  else if s.opReady i 2 && (s.slot i).step != 0 then .next (s.enterOn i)
  else if !s.moverReady i 2 then .next s
  else if s.moverOff i then .next (s.endSlot i stCancelled 0)
  else
    match s.fetchTensors i [(s.slot i).word 2, (s.slot i).word 3] with
    | (s, false) => .next s
    | (s, true) =>
      let v := s.slot i
      if v.refused then .next (s.endSlot i stDenied 0)
      else
        let a := s.readTensor v false (v.word 2)
        let b := s.readTensor v true (v.word 3)
        match s.mvChecks v a b, a, b with
        | none, .ok a, .ok b => .next (s.mvStart i a b)
        | st, _, _ => .next (s.moverFail i (st.getD stInvalid))

/-! ## Index tensors (R202, R204, R207) -/

/-- The indices of an index tensor. -/
def State.indices (s : State) (v : Slot) (x : Tensor) : List Int :=
  (allIdx x.d.size).map fun ix => sext x.d.ty.width (s.tcode v x ix)

/-- An index clamped to a size; how many were clamped. -/
def clampIx (n : Nat) (c : Int) : Nat := (max 0 (min ((n : Int) - 1) c)).toNat
def clampCount (n : Nat) (l : List Int) : Nat := (l.filter fun c => decide (c < 0) || decide ((n : Int) ≤ c)).length

/-- An index tensor of rank 1 and an index type. -/
def indexOk (x : TDesc) : Bool := x.rank == 1 && (x.ty = .int32 || x.ty = .int64)

/-- The index tensor has been read: its indices, clamped to a dimension of `n` slices, are kept, and the clamps counted (R204). -/
def State.takeIndices (s : State) (i : Nat) (x : Tensor) (n : Nat) : State :=
  let v := s.slot i
  let raw := s.indices v x
  let t := (s.noteElems 4 x (allIdx x.d.size)).incReg (Reg.moverClamps v.mover) (clampCount n raw)
  t.setSlot i { t.slot i with
    idx := raw.map (clampIx n), count := clampCount n raw, dead := (t.slot i).dead || s.elemsDead v x (allIdx x.d.size) }

/-- The status and info of a GATHER or SCATTER that has run (R214). -/
def Slot.idxStatus (v : Slot) : Nat × Nat := copyStatus v.dead v.count

/-- What keeps a command with an index tensor from running, on what could be read of its tensors (R214); `fields` checks the descriptors alone. -/
def State.idxChecks (s : State) (v : Slot) (a b x : Except Nat Tensor) (write : Tensor → Option Nat) (fields : List (Option Nat)) : Option Nat :=
  firstBad
    ([match a with | .ok a => s.tensorReadBad false a | .error st => some st, match b with | .ok b => write b | .error st => some st,
      match x with | .ok x => s.tensorReadBad false x | .error st => some st,
      match v.fieldsOf (v.word 4) with | some x => if indexOk x then none else some stInvalid | none => none] ++ fields ++
     (match a, b, x with
      | .ok a, .ok b, .ok x => [if b.overlaps a || b.overlaps x then some stOverlap else none]
      | _, _, _ => []))

/-- Sizes agree but in dimension `dim`. -/
def sizesAgree (dim : Nat) (a b : TDesc) : Bool := (List.range 8).all fun d => d == dim || a.size.getD d 1 == b.size.getD d 1

/-! ## GATHER (R202–R206) -/

/-- The dimension of a GATHER. -/
def Slot.gaDim (v : Slot) : Nat := bits (v.word 5) 2 0

/-- R202–R204: a GATHER of these tensors is not valid. -/
def gatherBad (dim : Nat) (a b x : TDesc) : Bool :=
  let n := x.size.headD 0
  !indexOk x || a.ty != b.ty || a.block != b.block || b.size.getD dim 1 != n || !sizesAgree dim a b ||
  (a.block = .square && decide (dim < 2)) || (a.block = .mx && decide (dim < 1)) || (n != 0 && a.size.getD dim 1 == 0)

/-- The checks of a GATHER (R202–R204, R211, R214). -/
def State.gaChecks (s : State) (v : Slot) (a b x : Except Nat Tensor) : Option Nat :=
  s.idxChecks v a b x (s.tensorWriteBad false)
    [match v.fieldsOf (v.word 2), v.fieldsOf (v.word 3), v.fieldsOf (v.word 4) with
     | some a, some b, some x => if gatherBad v.gaDim a b x then some stInvalid else none
     | _, _, _ => none]

/-- The source index of a destination index of a GATHER whose indices have been read. -/
def Slot.gaFrom (v : Slot) (ix : List Nat) : List Nat := ix.set v.gaDim (v.idx.getD (ix.getD v.gaDim 0) 0)

/-- The LOADs of a GATHER: one read for each index, in increasing order of position (R205). -/
def Slot.gaReads (v : Slot) (a b : Tensor) : List (Nat × Nat) :=
  (List.range (b.d.size.getD v.gaDim 1)).flatMap fun j =>
    a.readRuns ((allIdx (b.d.size.set v.gaDim 1)).map fun ix => v.gaFrom (ix.set v.gaDim j))

/-- The slices of a GATHER are written, and it ends (R202, R203, R206). -/
def State.gaWrite (s : State) (i : Nat) (a b : Tensor) : State :=
  let v := s.slot i
  let dst := allIdx b.d.size
  let src := dst.map v.gaFrom
  let codes := dst.map fun ix => (ix, s.tcode v a (v.gaFrom ix))
  let blocks := if b.d.block.scaled then b.blocks.map fun l => (l.headD [], s.tscale v a (v.gaFrom (l.headD []))) else []
  let t := (v.gaReads a b).foldl (fun t r => t.descNotes 4 r.1 r.2) s
  let t := t.moverBytes v.mover (v.gaDim != 0 && a.unit0 && b.unit0)
    (a.runs (src.map fun y => (y, 0)) ++ a.scaleRuns (blocks.map fun y => (v.gaFrom y.1, 0))) (b.runs codes ++ b.scaleRuns blocks)
  let t := (t.putRuns i 4 (b.runs codes)).putRuns i 4 (b.scaleRuns blocks)
  let t := t.setSlot i { t.slot i with dead := (t.slot i).dead || s.elemsDead v a src }
  t.endSlot i (t.slot i).idxStatus.1 (t.slot i).idxStatus.2

/-- A started GATHER goes on: its index tensor is read, then its slices, then they are written. -/
def State.gaGo (s : State) (i : Nat) : State :=
  let v := s.slot i
  match v.tensorOf false (v.word 2), v.tensorOf true (v.word 3), v.tensorOf false (v.word 4) with
  | .ok a, .ok b, .ok x =>
    s.moverRead i fun t =>
      let t := if v.step = 1 then
          let t := t.takeIndices i x (a.d.size.getD v.gaDim 1)
          t.moverLoads i 2 ((t.slot i).gaReads a b)
        else t
      t.moverRead i fun t => t.gaWrite i a b
  | _, _, _ => s

/-- GATHER (R182, R196, R202–R206, R211, R214): the GATHER in slot `i` goes on: its descriptors are read, its checks made, its slices copied. -/
def execGather (i : Nat) (s : State) : Host.Outcome State Fault Refusal :=
  if s.moverRuns i 3 then .next (s.gaGo i)
  else if !s.moverReady i 3 then .next s
  else if s.moverOff i then .next (s.endSlot i stCancelled 0)
  else
    match s.fetchTensors i [(s.slot i).word 2, (s.slot i).word 3, (s.slot i).word 4] with
    | (s, false) => .next s
    | (s, true) =>
      let v := s.slot i
      let a := s.readTensor v false (v.word 2)
      let b := s.readTensor v true (v.word 3)
      let x := s.readTensor v false (v.word 4)
      if v.refused then .next (s.endSlot i stDenied 0)
      else
        match s.gaChecks v a b x, b, x with
        | none, .ok b, .ok x =>
          .next (if b.d.size.contains 0 then s.endSlot i stOk 0 else (s.moverLoads i 1 (x.readRuns (allIdx x.d.size))).gaGo i)
        | st, _, _ => .next (s.moverFail i (st.getD stInvalid))

/-! ## SCATTER (R207–R210) -/

/-- Fields of a SCATTER (R454). -/
def Slot.scDim (v : Slot) : Nat := bits (v.word 6) 2 0
def Slot.scOp (v : Slot) : Nat := bits (v.word 6) 5 3
def Slot.scDet (v : Slot) : Bool := bit (v.word 6) 6
def Slot.scBase (v : Slot) : Nat := bits (v.word 6) 15 8
def Slot.scCount (v : Slot) : Nat := bits (v.word 6) 24 16
def Slot.scChunk (v : Slot) : Nat := bits (v.word 6) 48 32
def Slot.scLen (v : Slot) : Nat := bits (v.word 6) 63 49

/-- The SCATTER runs the program of R209: an integer ADD does not. -/
def Slot.scProg (v : Slot) (b : TDesc) : Bool := v.scDet && !(v.scOp == 1 && b.ty.isInt)

/-- Fields of a SCATTER that are not valid whatever its tensors (R207, R209, R454). -/
def Slot.scFieldBad (v : Slot) : Bool := decide (1 < v.scOp) || (v.scDet && v.scCount != 1) || decide (16384 < v.scLen)

/-- R207, R209, R454: a SCATTER of these tensors is not valid. -/
def scatterBad (v : Slot) (a b x : TDesc) : Bool :=
  let n := x.size.headD 0
  let dim := v.scDim
  let w := if n = 0 then 0 else sizeOf_ a.size / n
  let m := min v.scChunk n
  !indexOk x || a.size.getD dim 1 != n || !sizesAgree dim a b || b.block.scaled || (v.scOp == 0 && a.ty != b.ty) ||
  (v.scOp == 1 && (!exactConv a.ty b.ty || !elemOk b.ty 0)) || (n != 0 && b.size.getD dim 1 == 0) ||
  (v.scProg b && (v.scChunk == 0 || decide (65536 < v.scChunk) || decide (v.scLen * 4096 < m * (16 + 8 * w) + 8)))

/-- Where the contributions of a SCATTER may go. -/
def State.scWriteBad (s : State) (v : Slot) (b : Tensor) : Option Nat :=
  if v.scOp = 0 then s.tensorWriteBad false b else s.atomicBad b.extents

/-- One source slice is stored or added at its destination. -/
def State.scSlice (s : State) (i : Nat) (v : Slot) (b : Tensor) (es : List (List Nat × Nat)) : State :=
  if v.scOp = 0 then s.putRuns i 4 (b.runs es) else s.addElems i 4 b 0 0 b.d.ty es

/-- An order of `n` things in which nothing fixes which comes first: R208 leaves the order of arrival open. -/
def shuffle : Nat → Nat → List Nat → List Nat
  | 0, _, l => l
  | n + 1, f, l =>
    let x := l.getD (f % l.length) 0
    x :: shuffle n (f / l.length) (l.erase x)

/-- The destination index of an index within source slice `j`. -/
def Slot.scTo (v : Slot) (j : Nat) (ix : List Nat) : List Nat := ix.set v.scDim (v.idx.getD j 0)

/-- The elements of source slice `j`: their destination indices and codes in the destination's type (R207). -/
def State.scElems (s : State) (v : Slot) (a b : Tensor) (j : Nat) : List (List Nat × Nat) :=
  (allIdx (a.d.size.set v.scDim 1)).map fun ix =>
    let src := ix.set v.scDim j
    (v.scTo j ix, if v.scOp = 0 || (a.d.ty = b.d.ty && !a.d.block.scaled) then s.tcode v a src else b.d.ty.rne (s.tval v a src))

/-- The values of source slice `j`. -/
def State.scVals (s : State) (v : Slot) (a : Tensor) (j : Nat) : List FVal :=
  (allIdx (a.d.size.set v.scDim 1)).map fun ix => s.tval v a (ix.set v.scDim j)

/-- The segments of the chunk of `m` positions from `p`: each with its index and its positions within the chunk (R179, R180, R209). -/
def Slot.scSegs (v : Slot) (p m : Nat) : List (Nat × List Nat) :=
  segmentsOf (sortKeys ((List.range m).map fun j => min (v.idx.getD (p + j) 0) (2 ^ 40 - 1) * 2 ^ 24 + j))

/-- Element `e` of the sum of the slices of a segment, in the compensated arithmetic of R169. -/
def segSum (q : Prec) (rows : Nat → List FVal) (sg : Nat × List Nat) (e : Nat) : FVal :=
  q.csum (sg.2.map fun r => flv ((rows r).getD e (.zero false)))

/-- One chunk of the program of R209 on core `k`: the `m` positions from `p`. SORT alone for STORE; SORT, SEGKEY and SEGSUM for ADD, whose sums go out
as FP32. -/
def State.scChunk (s : State) (i k : Nat) (a b : Tensor) (p m : Nat) : State :=
  let v := s.slot i
  let segs := v.scSegs p m
  if v.scOp = 0 then
    segs.foldl (fun t sg => t.putRuns i 4 (b.runs (s.scElems v a b (p + sg.2.getLastD 0)))) (s.builtinVx k i 1 fun _ _ => none)
  else
    let rows := fun (r : Nat) => s.scVals v a (p + r)
    let w := sizeOf_ (a.d.size.set v.scDim 1)
    let at_ := fun (q : Prec) (x : Nat) => match segs[x / w]? with
      | some sg => segSum q rows sg (x % w)
      | none => .zero false
    let t := (s.builtinVx k i 2 fun _ _ => none).builtinVx k i 1 fun r t =>
      let x := r % (m * w)
      some ⟨x / w, x % w, fl (at_ .core x), fl64 (at_ (.wide t.free) x), .zero false, none⟩
    let t := t.countConv .fp32 ((List.range (m * w)).map fun x => EType.conv .fp32 .rne false 0 (at_ .core x))
    segs.foldl
      (fun t sg => t.addElems i 4 b 0 0 .fp32
        (((allIdx (a.d.size.set v.scDim 1)).zipIdx).map fun e => (v.scTo (p + sg.2.headD 0) e.1, fl (segSum .core rows sg e.2))))
      t

/-- The program of R209 takes its next chunk once every contribution of the last has been applied, and ends after the last. -/
def State.scProgGo (s : State) (i : Nat) (a b : Tensor) : State :=
  let v := s.slot i
  let n := a.d.size.getD v.scDim 1
  let p := (s.lrun i).tile
  if n ≤ p then (s.setSlot i { v with step := 3 }).builtinOver i v.idxStatus.1 v.idxStatus.2
  else
    match s.builtinCores i with
    | [] => if s.launchOver i then s.builtinOver i v.idxStatus.1 v.idxStatus.2 else s
    | k :: _ => (s.markRun i fun l => { l with tile := min n (p + v.scChunk) }).scChunk i k a b p (min v.scChunk (n - p))

/-- The program of R209 has read its index tensor and its source: the staging region is its own, with contents that nothing fixes. -/
def State.scProgStart (s : State) (i : Nat) (a : Tensor) : State :=
  let v := s.slot i
  let n := a.d.size.getD v.scDim 1
  let (s, bs) := s.freeBytes (min v.scChunk n * (16 + 8 * (sizeOf_ a.d.size / n)) + 8)
  s.memWrite 1 (aOff (v.word 5)) bs

/-- The contributions of a SCATTER with `det` 0 go out in an order that nothing fixes (R208), and it ends. -/
def State.scWrite (s : State) (i : Nat) (a b : Tensor) : State :=
  let v := s.slot i
  let (f, t) := s.takeFree
  let n := a.d.size.getD v.scDim 1
  let slices := (shuffle n f (List.range n)).map (s.scElems v a b)
  let t := t.moverBytes v.mover (v.scDim != 0 && a.unit0 && b.unit0) (a.runs ((allIdx a.d.size).map fun y => (y, 0))) (b.runs slices.flatten)
  let t := slices.foldl (fun t es => t.scSlice i v b es) t
  t.endSlot i (t.slot i).idxStatus.1 (t.slot i).idxStatus.2

/-- A started SCATTER goes on: its index tensor and its source are read, then its contributions go out; a program of R209 waits for its core and
takes chunk after chunk. -/
def State.scGo (s : State) (i : Nat) : State :=
  let v := s.slot i
  match v.tensorOf false (v.word 2), v.tensorOf true (v.word 3), v.tensorOf false (v.word 4) with
  | .ok a, .ok b, .ok x =>
    let prog := v.scProg b.d
    if v.step = 1 && prog && (s.builtinCores i).isEmpty then (if s.launchOver i then s.builtinOver i stOk 0 else s)
    else
      let t := if v.step = 1 then s.moverLoads i 2 (x.readRuns (allIdx x.d.size) ++ a.readRuns (allIdx a.d.size)) else s
      t.moverRead i fun t =>
        if (t.slot i).step = 2 then
          let u := (t.takeIndices i x (b.d.size.getD v.scDim 1)).noteElems 4 a (allIdx a.d.size)
          let u := u.setSlot i { u.slot i with step := 4, dead := (u.slot i).dead || t.elemsDead (t.slot i) a (allIdx a.d.size) }
          if prog then (u.scProgStart i a).scProgGo i a b else u.scWrite i a b
        else if prog then t.scProgGo i a b
        else t
  | _, _, _ => s

/-- The checks of a SCATTER (R207, R209, R211, R214). -/
def State.scChecks (s : State) (v : Slot) (a b x : Except Nat Tensor) : Option Nat :=
  s.idxChecks v a b x (s.scWriteBad v)
    [if v.scFieldBad then some stInvalid else none,
     match v.fieldsOf (v.word 2), v.fieldsOf (v.word 3), v.fieldsOf (v.word 4) with
     | some a, some b, some x =>
       if scatterBad v a b x then some stInvalid
       else if v.scProg b && x.size.headD 0 != 0 then
         (if !s.inScratch (v.word 5) (v.scLen * 4096) || regionOf (aOff (v.word 5)) != some (.scratch (s.phys v.scBase)) ||
            regionOf (aOff (v.word 5) + v.scLen * 4096 - 1) != some (.scratch (s.phys v.scBase)) then some stInvalid
          else s.writeBad false (v.word 5) (v.scLen * 4096))
       else none
     | _, _, _ => none,
     if (v.fieldsOf (v.word 3)).any v.scProg then s.coresBad v.scBase 1 else none]

/-- SCATTER (R182, R196, R207–R211, R214): the SCATTER in slot `i` goes on: its descriptors are read, its checks made, its slices stored or added. With
the program of R209 it enters its core's queue, and ends once its dips are resolved (R91). -/
def execScatter (i : Nat) (s : State) : Host.Outcome State Fault Refusal :=
  if s.moverRuns i 4 then .next (s.scGo i)
  else if s.opReady i 4 && (s.slot i).step != 0 then .next (s.enterOn i)
  else if !s.moverReady i 4 then .next s
  else if s.moverOff i then .next (s.endSlot i stCancelled 0)
  else
    match s.fetchTensors i [(s.slot i).word 2, (s.slot i).word 3, (s.slot i).word 4] with
    | (s, false) => .next s
    | (s, true) =>
      let v := s.slot i
      let a := s.readTensor v false (v.word 2)
      let b := s.readTensor v true (v.word 3)
      let x := s.readTensor v false (v.word 4)
      if v.refused then .next (s.endSlot i stDenied 0)
      else
        match s.scChecks v a b x, a, b with
        | none, .ok a, .ok b =>
          .next
            (if a.d.size.contains 0 then s.endSlot i stOk 0
             else if v.scProg b.d then s.enterBuiltin i [s.phys v.scBase]
             else (s.setSlot i { v with stage := .started, step := 1 }).scGo i)
        | st, _, _ => .next (s.moverFail i (st.getD stInvalid))

end Sys2Proof.Machine
end

