-- ==== Sys2Proof/Machine/Rounds.lean ====
section
/-! DEFINITION. Rounds of the Sluice (11_expert_routing.md, 12_sluice_and_pantry.md): layer entries and placement tables, the combine table and the
route record store, receive buffers, and the end of a round. -/

namespace Sys2Proof.Machine

/-! ## Layers and placement (R277, R278, R291, R292) -/

/-- A layer routing entry (R277), by its words. -/
structure Layer where
  ctl : Nat
  count : Nat
  place : Nat
  next : Nat
  ver : Nat
  load : Nat
  slots : Nat
  last : Nat
  deriving DecidableEq, Repr

/-- Local offset of layer entry `n`. -/
def State.layerOff (s : State) (n : Nat) : Nat := s.reg Reg.sluLayerBase + 64 * n

/-- Layer entry `n` as memory holds it. -/
def State.layerAt (s : State) (n : Nat) : Layer :=
  let w := fun (i : Nat) => s.memNat (s.layerOff n + 8 * i) 8
  ⟨w 0, w 1, w 2, w 3, w 4, w 5, w 6, w 7⟩

def Layer.k (l : Layer) : Nat := bits l.ctl 4 0
def Layer.s (l : Layer) : Nat := bits l.ctl 10 8
def Layer.ranked (l : Layer) : Bool := bit l.ctl 16
def Layer.renorm (l : Layer) : Bool := bit l.ctl 18
def Layer.experts (l : Layer) : Nat := bits l.count 31 0
def Layer.version (l : Layer) : Nat := bits l.ver 31 0
def Layer.nslots (l : Layer) : Nat := bits l.slots 8 0

/-- The Sluice reads layer entry `n`: what that does beside giving it. -/
def State.noteLayer (s : State) (n : Nat) : State := s.readNotes 6 (s.layerOff n) 64

/-- R278: a forward EXCHANGE of the entry is not valid. -/
def State.layerBad (s : State) (n : Nat) (l : Layer) : Bool :=
  decide (s.fieldOf Reg.sluLayerCount 8 0 ≤ n) || Nat.land l.ctl 0xFFFFFFFFFFFAF8E0 != 0 || bits l.count 63 32 != 0 || bits l.ver 63 33 != 0 ||
  bits l.slots 63 9 != 0 || l.last != 0 || l.k == 0 || decide (16 < l.k + l.s) || l.experts == 0 || decide (65536 < l.experts) ||
  !s.isLocal l.place || (l.next != 0 && !s.isLocal l.next) || (l.load != 0 && !s.isLocal l.load) ||
  s.memNat (aOff l.place) 4 != l.experts

/-- The instance words of an expert's placement entry (R291). -/
def State.placeWords (s : State) (place e : Nat) : List Nat :=
  (List.range 8).map fun i => s.memNat (aOff place + 64 + 64 * e + 8 * i) 8

/-- An instance word's fields. -/
def wValid (w : Nat) : Bool := bit w 47
def wHouse (w : Nat) : Nat := bits w 63 48
def wRoom (w : Nat) : Nat := bits w 44 40
def wSlot (w : Nat) : Nat := bits w 39 32
def wCap (w : Nat) : Nat := bits w 15 0

/-- R291: a placement entry is valid. -/
def placeOk (ws : List Nat) : Bool :=
  wValid (ws.headD 0) && (ws.dropWhile wValid).all (fun w => !wValid w) && ws.all fun w => bits w 46 45 == 0 && bits w 31 16 == 0

/-- R292: the instance a token's choice is tried at: its number and its word. -/
def State.pickInst (s : State) (ws : List Nat) (token : Nat) : Nat × Nat :=
  let all := (ws.zipIdx.filter fun w => wValid w.1)
  let near := all.filter fun w => wHouse w.1 == s.house
  let tier := if near.isEmpty then all else near
  let (w, n) := tier.getD ((token + s.room) % tier.length) (0, 0)
  (n, w)

/-! ## The combine table and the route record store (R302, R305) -/

/-- Free records; the first free entry, one whose generation is not in hold-down before one whose is. -/
def State.rrFree (s : State) : Nat := s.fieldOf Reg.sluRrCount 23 0 - s.rrLive
def State.freeEntry (s : State) : Option Nat :=
  let free := (List.range 64).filter fun e => (s.round e).state == 0
  ((free.filter fun e => !(s.round e).hold) ++ free).head?

/-- The watermark of the store, where `old` records were free and `freed` says that an entry has become free (R305). -/
def State.waterRr (s : State) (old : Nat) (freed : Bool) : State :=
  let lv := s.fieldOf Reg.sluRrWater 23 0
  if lv != 0 && s.freeEntry.isSome && decide (lv ≤ s.rrFree) && (decide (old < lv) || freed) then s.eventSet (s.fieldOf Reg.sluRrWater 41 32) else s

/-- A place in the store that holds no record. -/
def State.freeRecord (s : State) : Nat :=
  let used := s.rounds.flatMap fun e => e.2.routes.map Route.idx
  ((List.range (used.length + 1)).find? fun i => !used.contains i).getD 0

/-- The round is in hold-down (R319). -/
def State.inHold (s : State) (layer gen : Nat) : Bool := s.holds.contains (layer, gen)

/-! ## EXCHANGEs in execution -/

/-- The EXCHANGE in slot `i` that executes: one cancelled or ended does so no more (R321). -/
def State.exch (s : State) (i : Nat) : Option Exch :=
  if (s.slot i).stage = .started then s.exchs.find? fun x => x.slot == i else none

def State.modExch (s : State) (i : Nat) (f : Exch → Exch) : State :=
  { s with exchs := s.exchs.map fun x => if x.slot = i then f x else x }

/-- The EXCHANGE of a round in phase `p` that executes. -/
def State.exchOf (s : State) (layer gen : Nat) (p : Nat → Bool) : Option Exch :=
  s.exchs.find? fun x => x.layer == layer && x.gen == gen && p x.phase && (s.slot x.slot).stage = .started

/-- The Sluice of an EXCHANGE, as a fabric unit (R302, R362). -/
def Slot.sluice (v : Slot) : Nat := 1 + v.ctx / 8 % 4

/-- Every Sluice of the room is disabled (R505). -/
def State.sluOff (s : State) : Bool := (List.range 4).all fun q => s.unitOff (68 + q)

/-- A Sluice that is not disabled answers for the room. -/
def State.anySluice (s : State) : Nat := 1 + ((List.range 4).find? fun q => !s.unitOff (68 + q)).getD 0

/-- A message of this room's about a round. -/
def State.sluBody (s : State) (layer gen : Nat) (b : SluBody) : UnitBody := .slu ⟨s.house, s.room, layer, gen, b⟩

/-- A reply to room `r` of house `h`. -/
def State.sluReply (s : State) (h r layer gen : Nat) (b : SluBody) : State :=
  s.sendUnit (.unit (67 + s.anySluice)) s.anySluice h r (s.sluBody layer gen b)

/-- A message of an EXCHANGE, kept where it may be refused for retry. -/
def State.sluSend (s : State) (i : Nat) (h r : Nat) (x : Exch) (b : SluBody) (keep : Bool) : State :=
  let u := (s.slot i).sluice
  if keep then s.sendKept u i h r (s.sluBody x.layer x.gen b) else s.sendUnit (.unit (67 + u)) u h r (s.sluBody x.layer x.gen b)

/-! ## Rows (R303, R309) -/

/-- The type of a row's elements. -/
def fmtTy (f : RowFmt) : EType := (EType.ofCode f.ty).getD .int64

/-- Element bytes of a row, and its scale bytes. -/
def fmtBytes (f : RowFmt) : Nat := if fmtTy f = .fp4 then cdiv f.cols 2 else f.cols * ((fmtTy f).width / 8)
def fmtScales (f : RowFmt) : Nat := if f.mx then cdiv f.cols 32 else 0

/-- The codes held in element bytes. -/
def codesOf (t : EType) (bs : List Byte) (n : Nat) : List Nat :=
  (List.range n).map fun j =>
    if t = .fp4 then
      let b := (bs.getD (j / 2) 0).toNat
      if j % 2 = 1 then b / 16 else b % 16
    else field bs (j * (t.width / 8)) (t.width / 8)

/-- The exact values of a row. -/
def rowVals (f : RowFmt) (elems scales : List Byte) : List FVal :=
  (codesOf (fmtTy f) elems f.cols).zipIdx.map fun c =>
    if f.mx then scaledVal (fmtTy f) c.1 (scales.getD (c.2 / 32) 0).toNat else (fmtTy f).val c.1

/-- The form of a tensor's rows. -/
def TDesc.fmt (d : TDesc) : RowFmt := ⟨d.size.headD 0, d.ty.code, d.block = .mx⟩

/-- Row `r` of a tensor: its bytes and its scale bytes; whether reading them met an error. -/
def State.rowOf (s : State) (v : Slot) (t : Tensor) (r : Nat) : List Byte × List Byte × Bool :=
  let n := t.d.size.headD 0
  let ixs := (List.range n).map fun c => [c, r]
  (rowCodes t.d.ty (ixs.map fun ix => s.tcode v t ix),
   if t.d.block = .mx then (List.range (cdiv n 32)).map fun b => BitVec.ofNat 8 (s.tscale v t [32 * b, r]) else [],
   s.elemsDead v t ixs)

/-- The pitch of a receive buffer's rows, the offset of its rows, and its size (R309). -/
def rxPitch (f : RowFmt) : Nat := cdiv (fmtBytes f) 128 * 128
def rxRows (cap : Nat) : Nat := cdiv (64 + 16 * cap) 4096 * 4096
def rxSize (cap : Nat) (f : RowFmt) : Nat := rxRows cap + cap * rxPitch f + cap * fmtScales f

/-- The header of a receive buffer. -/
def rxHeader (layer gen slot rows cap : Nat) (f : RowFmt) : List Byte :=
  leBytes 2 layer ++ leBytes 2 gen ++ leBytes 4 slot ++ leBytes 4 rows ++ leBytes 4 cap ++ leBytes 4 (rxPitch f) ++ leBytes 1 f.ty ++
  leBytes 1 (if f.mx then 2 else 0) ++ leBytes 42 0

/-- Local offset of the buffer behind a handle. -/
def State.handleOff (s : State) (h : Nat) : Nat := s.bufOff (poolOf h) (bufOf h)

/-- A row is written into a receive buffer, with its arrival entry, and counted in the header. -/
def State.putArrived (s : State) (handle cap : Nat) (f : RowFmt) (n : Nat) (a : Arrived) (elems scales : List Byte) : State :=
  let o := s.handleOff handle
  let s := s.memWrite 6 (o + 64 + 16 * a.row)
    (leBytes 4 a.token ++ leBytes 2 a.house ++ leBytes 1 a.room ++ leBytes 1 a.rank ++ leBytes 4 a.store ++ leBytes 4 0)
  let s := s.memWrite 6 (o + rxRows cap + a.row * rxPitch f) elems
  let s := if f.mx then s.memWrite 6 (o + rxRows cap + cap * rxPitch f + a.row * fmtScales f) scales else s
  s.memWrite 6 (o + 8) (leBytes 4 n)

/-! ## Rounds this room serves -/

/-- A slot that has served nothing yet. -/
def Served.fresh (slot cap : Nat) : Served :=
  ⟨slot, cap, 0, 0, 0, 0, false, none, none, ⟨0, 0, false⟩, ⟨0, 0, false⟩, [], [], [], [], [], none⟩

def State.service (s : State) (layer gen : Nat) : Option Service :=
  s.services.find? fun x => x.layer == layer && x.gen == gen && !x.ended

def State.served (s : State) (layer gen slot : Nat) : Option Served :=
  (s.service layer gen).bind fun x => x.slots.find? fun v => v.slot == slot

/-- A served slot takes a value. -/
def State.setServed (s : State) (layer gen : Nat) (v : Served) : State :=
  { s with services := s.services.map fun x =>
      if x.layer = layer ∧ x.gen = gen ∧ x.ended = false then
        { x with slots := if x.slots.any (fun (y : Served) => y.slot == v.slot) then x.slots.map (fun (y : Served) => if y.slot = v.slot then v else y)
            else x.slots ++ [v] }
      else x }

/-- What is left of a slot once the answers that satisfy `p` are over, and the handle whose answer reference is then released (R322, R326). -/
def Served.settled (v : Served) (p : Nat × Nat × Nat → Bool) : Served × Option Nat :=
  let rest := v.answers.filter fun a => !p a
  if rest.isEmpty then ({ v with answers := [], ansRef := none }, v.ansRef) else ({ v with answers := rest }, none)

/-- Answers that satisfy `p`, by layer, generation and slot, are over: once none of a slot is left, its answer reference is released. -/
def State.answersGone (s : State) (p : Nat → Nat → Nat → Nat × Nat × Nat → Bool) : State :=
  let step := fun (x : Service) => (x.slots.map fun v => v.settled (p x.layer x.gen v.slot))
  let drop := s.services.flatMap fun x => (step x).filterMap Prod.snd
  let left := s.services.map fun x => { x with slots := (step x).map Prod.fst }
  drop.foldl (fun s h => (s.dropRef h).1)
    { s with services := left.filter fun x => !(x.ended && x.slots.all fun v => v.answers.isEmpty) }

/-- Answers to rooms that have been found dead count as acknowledged (R322). -/
def State.settleAnswers (s : State) : State := s.answersGone fun _ _ _ a => a.2.1 == s.house && s.roomDead a.2.2

/-- The load records take a round's counts (R295), and its capacity counts close (R281). -/
def State.closeCounting (s : State) (layer gen : Nat) : State :=
  match s.service layer gen with
  | none => s
  | some y =>
    let load := (s.layerAt layer).load
    let s := if load = 0 || !y.counting then s
      else y.slots.foldl (fun s v =>
        (s.eatomic 6 .int32 .int32 4 0 (aOff load + 16 * v.slot) [v.requested, v.admitted, v.dropped, v.excess]).1) s
    { s with services := s.services.map fun z => if z.layer = layer ∧ z.gen = gen then { z with counting := false } else z }

/-- The capacity counts close of every round whose answers have left and are all acknowledged (R281, R318). -/
def State.closeReturned (s : State) : State :=
  (s.services.filter fun y => y.counting && y.sent && !y.ended && y.slots.all fun v => v.answers.isEmpty).foldl
    (fun s y => s.closeCounting y.layer y.gen) s

/-- Rooms have been found dead: what waited for their acknowledgements is over (R318, R322, R326). -/
def State.roomsLost (s : State) : State := s.settleAnswers.closeReturned

/-! ## The end of a round (R307, R319, R320, R326) -/

/-- What is left of a round this room served, once it has ended. -/
def Service.close (y : Service) : Service :=
  { y with ended := true, counting := false, slots := (y.slots.filter fun v => !v.answers.isEmpty).map fun v => { v with fwd := none, bwd := none } }

/-- The round at entry `e` ends: its records, its entry, its slot area and its hold on its receive buffers go; its generation is in hold-down. -/
def State.endRound (s : State) (e : Nat) : State :=
  let x := s.round e
  let old := s.rrFree
  let mine := (s.service x.layer x.gen).elim [] Service.slots
  let s := { (s.setRound e { Round.none with layer := x.layer, gen := x.gen, hold := true }) with
    holds := s.holds ++ [(x.layer, x.gen)]
    services := (s.services.map fun (y : Service) => if y.layer = x.layer ∧ y.gen = x.gen then y.close else y).filter fun y => !(y.ended && y.slots.isEmpty)
    dones := s.dones.filter fun d => !(d.1 == x.layer && d.2.1 == x.gen)
    exchs := s.exchs.filter fun y => !(y.layer == x.layer && y.gen == x.gen)
    kept := s.kept.filter fun m => match m.body with
      | .slu b => !(b.layer == x.layer && b.gen == x.gen)
      | .col _ => true }
  let s := (x.area ++ mine.flatMap fun v => v.fwd.toList ++ v.bwd.toList).foldl (fun s h => (s.dropRef h).1) s
  (s.waterRr old true).settleAnswers

/-- GEN_HOLD_EXPIRY (R319): SLU_GEN_HOLD has passed since the round ended, and its generation leaves hold-down. -/
def execGenHoldExpiry (layer gen : Nat) (s : State) : Host.Outcome State Fault Refusal :=
  .next { s with
    holds := s.holds.filter fun h => h != (layer, gen)
    rounds := s.rounds.filter fun e => !(e.2.state == 0 && e.2.layer == layer && e.2.gen == gen) }

end Sys2Proof.Machine
end

