-- ==== Sys2Proof/Machine/Sluice.lean ====
section
/-! DEFINITION. The Sluice (11_expert_routing.md, 12_sluice_and_pantry.md): the EXCHANGE and its five phases, admission by arrival and by rank, the
messages between source and instance, receive buffers, answers and their combining. -/

namespace Sys2Proof.Machine

/-! ## The EXCHANGE body (R455) -/

def Slot.xphase (v : Slot) : Nat := bits (v.word 2) 2 0
def Slot.xFwdOnly (v : Slot) : Bool := bit (v.word 2) 3
def Slot.xSlotted (v : Slot) : Bool := bit (v.word 2) 4
def Slot.xKeep (v : Slot) : Bool := bit (v.word 2) 5
def Slot.xWeighted (v : Slot) : Bool := bit (v.word 2) 6
def Slot.xLayer (v : Slot) : Nat := bits (v.word 2) 15 8
def Slot.xGen (v : Slot) : Nat := bits (v.word 2) 31 16
def Slot.xPeers (v : Slot) : Nat := bits (v.word 2) 44 32
def Slot.xPool (v : Slot) : Nat := bits (v.word 2) 53 48

/-- What keeps the queue engine from reading a member or peer list of `n` entries. -/
def State.roomsBad (s : State) (a n : Nat) : Option Nat :=
  if n = 0 || decide (4096 < n) || badAddr a then some stInvalid else s.readBad true a (8 * n)

/-- A member or peer list (R301), from what the queue engine has read: rooms by house and room; each at most once, this room among them. -/
def State.readRooms (s : State) (v : Slot) (a n : Nat) : Except Nat (List (Nat × Nat)) :=
  match s.roomsBad a n, v.tab a (8 * n) with
  | some st, _ => .error st
  | none, none => .error stDead
  | none, some bs =>
    let ws := (List.range n).map fun j => field bs (8 * j) 8
    let l := ws.map fun w => (bits w 63 48, bits w 44 40)
    if ws.any (fun w => bits w 47 45 != 0 || bits w 39 0 != 0) || !l.contains (s.house, s.room) || l.eraseDups.length != n then .error stInvalid
    else .ok l

/-- The tensors, the list of rooms and the tables that a descriptor names are read, once (R182, R301); the Bool says that they have been. -/
def State.fetchExch (s : State) (i : Nat) (tensors : List Nat) (tabs : List (Nat × Nat)) : State × Bool :=
  match s.fetchTensors i tensors with
  | (s, false) => (s, false)
  | (s, true) => s.fetchTabs i tabs

/-- The list of rooms of an EXCHANGE, where it may be read. -/
def State.peerTab (s : State) (v : Slot) : List (Nat × Nat) :=
  if (s.roomsBad (v.word 3) v.xPeers).isNone then [(v.word 3, 8 * v.xPeers)] else []

/-- The status of a list that could not be read. -/
def roomsErr (l : Except Nat (List (Nat × Nat))) : Option Nat := match l with | .error st => some st | .ok _ => none

/-- The EXCHANGE of slot `i` may start in phase `p`. -/
def State.xReady (s : State) (i : Nat) (p : Nat → Bool) : Bool := s.opReady i 5 && p (s.slot i).xphase

/-- Its Sluice is disabled (R505). -/
def State.xOff (s : State) (i : Nat) : Bool := s.unitOff (67 + (s.slot i).sluice)

/-! ## The source's admission (R276, R280, R282, R284, R285, R288–R290) -/

/-- Tries of a token: those admitted, those whose instance has not answered. -/
def Exch.of (x : Exch) (token : Nat) : List Try := x.tries.filter fun t => t.token == token
def Exch.admitted (x : Exch) (token : Nat) : Nat := ((x.of token).filter fun t => t.outcome = some 1).length
def Exch.asked (x : Exch) (token : Nat) : Nat := ((x.of token).filter fun t => t.outcome = none).length

/-- Tokens of the rows. -/
def Exch.tokens (x : Exch) : Nat := x.rows.d.size.getD 1 1

/-- The counter of an outcome. -/
def dropReg (o : Nat) : Nat :=
  match o with
  | 2 => Reg.sluDropFull
  | 3 => Reg.sluDropInvalid
  | 4 => Reg.sluDropSkew
  | _ => Reg.sluDropLate

/-- A try takes an outcome that is no admission: its counter, and what the EXCHANGE's status takes from it (R298, R323); `live` says that the
instance's room is not dead. -/
def State.dropTry (s : State) (i : Nat) (t : Try) (o : Nat) (live : Bool) : State :=
  (s.modExch i fun x => { x with
    tries := x.tries.map fun y => if y.token = t.token ∧ y.rank = t.rank then { y with outcome := some o } else y
    skew := x.skew || o == 4
    part := x.part || o == 3 || (o == 5 && live) }).incReg (dropReg o) 1

/-- The choice list's next entry of a token is judged (R276, R291, R292): empty, invalid, or tried at an instance. -/
def State.judge (s : State) (i token : Nat) : State :=
  match s.exch i with
  | none => s
  | some x =>
    match x.choices with
    | none => s
    | some c =>
      let rank := (x.of token).length
      let w := s.tcode (s.slot i) c [rank, token]
      let e := bits w 63 32
      let t : Try := ⟨token, rank, e, bits w 31 0, 0, 0, 0, 0, x.step, none⟩
      let put := fun (s : State) (t : Try) => s.modExch i fun x => { x with tries := x.tries ++ [t] }
      let s := if s.elemsDead (s.slot i) c [[rank, token]] then s.modExch i fun x => { x with bad := true } else s
      let s := s.noteElems 6 c [[rank, token]]
      let at_ := aOff x.place + 64 + 64 * e
      let used := e != 0xFFFFFFFF && decide (e < x.count)
      let s := if used then s.readNotes 6 at_ 64 else s
      let s := if used && s.rangeBad at_ 64 then s.modExch i fun x => { x with bad := true } else s
      let ws := s.placeWords x.place e
      if e = 0xFFFFFFFF then put s { t with outcome := some 6 }
      else if x.count ≤ e || !(v32 t.weight).isFin || (x.of token).any (fun y => y.expert == e) || !placeOk ws then (put s t).dropTry i t 3 true
      else
        let (n, word) := s.pickInst ws token
        let t := { t with inst := n, house := wHouse word, room := wRoom word, slot := wSlot word }
        let s := (put s t).incReg Reg.sluTried 1
        if x.ranked then s
        else s.sluSend i t.house t.room x (.reserve token rank e n x.ver x.rows.d.fmt) true

/-- A token tries its next choices below rank `lim`, as many as it still wants (R280). -/
def State.fill : Nat → State → Nat → Nat → Nat → State
  | 0, s, _, _, _ => s
  | f + 1, s, i, token, lim =>
    match s.exch i with
    | none => s
    | some x =>
      if x.admitted token + x.asked token < x.k && (x.of token).length < lim then State.fill f (s.judge i token) i token lim else s

/-- The final weights of a token's admitted choices, by rank (R289), and whether they were to be renormalised and were not. -/
def finalWeights (renorm : Bool) (l : List Try) : List (Nat × Nat) × Bool :=
  let sum := l.foldl (fun a t => flv (a.add (v32 t.weight))) (FVal.zero false)
  if renorm then
    if sum.isFin && (FVal.zero false).lt sum then (l.map fun t => (t.rank, fl ((v32 t.weight).div sum)), false)
    else (l.map fun t => (t.rank, t.weight), true)
  else (l.map fun t => (t.rank, t.weight), false)

/-- The admission of a token is final (R288–R290): its weights, its entries of the admission list. -/
def State.settleToken (s : State) (i token : Nat) : State :=
  match s.exch i with
  | none => s
  | some x =>
    let l := x.of token
    let adm := l.filter fun t => t.outcome = some 1
    if x.final.contains token || x.asked token != 0 || (decide (adm.length < x.k) && decide (l.length < x.k + x.s)) then s
    else
      match x.admits with
      | none => s
      | some a =>
        let (ws, keptW) := finalWeights x.renorm adm
        let wt := fun (r : Nat) => ((ws.find? fun w => w.1 == r).map Prod.snd).getD 0
        let entry := fun (j : Nat) =>
          match l.find? fun t => t.rank == j with
          | none => 0
          | some t => t.inst * 2 ^ 40 + t.outcome.getD 0 * 2 ^ 32 + (if t.outcome = some 1 then wt j else 0)
        let s := s.putRuns i 6 (a.runs ((List.range (a.d.size.headD 0)).map fun j => ([j, token], entry j)))
        let s := if adm.isEmpty then s.incReg Reg.sluTokensEmpty 1 else s
        let s := if keptW then s.incReg Reg.sluRenormKept 1 else s
        let s := s.modExch i fun x => { x with final := token :: x.final }
        match s.roundOf x.layer x.gen with
        | none => s
        | some e =>
          if x.renorm then
            ((s.round e).routes.filter fun r => r.token == token).foldl (fun s r => s.putRoute e { r with weight := wt r.rank }) s
          else s

/-- Count messages for what the EXCHANGE tries in its step (R284). -/
def State.sendCounts (s : State) (i : Nat) : State :=
  match s.exch i with
  | none => s
  | some x =>
    let l := x.tries.filter fun t => t.outcome = none
    ((l.map fun t => (t.expert, t.inst, t.house, t.room)).eraseDups).foldl
      (fun s g =>
        let mine := l.filter fun t => t.expert == g.1 && t.inst == g.2.1
        let ranks := ((mine.map Try.rank).eraseDups).map fun r => (r, (mine.filter fun t => t.rank == r).length)
        s.sluSend i g.2.2.1 g.2.2.2 x (.counts x.step g.1 g.2.1 x.ver x.peers.length x.rows.d.fmt ranks) true) s

/-- Admission goes on (R280, R282, R285): under ARRIVAL token by token, under RANKED once the step's choices are decided. -/
def State.admitGo (s : State) (i : Nat) : State :=
  match s.exch i with
  | none => s
  | some x =>
    let left := (List.range x.tokens).filter fun t => !x.final.contains t
    let fillAll := fun (s : State) => left.foldl (fun s t => s.fill 17 i t (x.k + x.s)) s
    let settleAll := fun (s : State) => left.foldl (fun s t => s.settleToken i t) s
    if left.isEmpty then s
    else if !x.ranked then settleAll (fillAll s)
    else if x.tries.any fun t => t.outcome = none then s
    else
      let s := fillAll (s.modExch i fun x => { x with step := x.step + 1 })
      settleAll (s.sendCounts i)

/-- An admitted choice gets its route record and is dispatched (R19, R282, R303). -/
def State.admitTry (s : State) (i : Nat) (t : Try) (row handle : Nat) : State :=
  match s.exch i with
  | none => s
  | some x =>
    match s.roundOf x.layer x.gen with
    | none => s
    | some e =>
      let r : Route := ⟨s.freeRecord, t.token, t.rank, decide (x.k ≤ t.rank), false, false, false, t.house, t.room, t.slot, row, t.weight, handle⟩
      let (elems, scales, dead) := s.rowOf (s.slot i) x.rows t.token
      let s := s.modExch i fun x => { x with
        tries := x.tries.map fun y => if y.token = t.token ∧ y.rank = t.rank then { y with outcome := some 1 } else y }
      let s := (s.putRoute e r).incReg Reg.sluAdmitted 1
      let s := if r.excess then s.incReg Reg.sluOverflowAdmitted 1 else s
      let s := s.noteElems 6 x.rows ((List.range (x.rows.d.size.headD 0)).map fun c => [c, t.token])
      let s := if dead then s.modExch i fun x => { x with bad := true } else s
      s.sluSend i t.house t.room x (.row t.slot row t.token t.rank r.idx x.ver x.rows.d.fmt elems scales) false

/-- An instance's verdict on a try. -/
def State.verdict (s : State) (i : Nat) (t : Try) (v : Verdict) : State :=
  match v with
  | .granted row handle => s.admitTry i t row handle
  | .full => s.dropTry i t 2 true
  | .invalid => s.dropTry i t 3 true
  | .skew => s.dropTry i t 4 true
  | .late => s.dropTry i t 5 true

/-! ## The end of an EXCHANGE (R311, R318, R323) -/

/-- An EXCHANGE ends with a status; its info stands whatever the status becomes (R323). -/
def State.xEnd (s : State) (i st info : Nat) : State :=
  let s := s.setSlot i { s.slot i with info := info % 65536 }
  ({ s with exchs := s.exchs.filter (fun x => x.slot != i), kept := s.kept.filter fun m => m.slot != i }).endSlot i st (info % 65536)

/-- The choices of an EXCHANGE that took a DROPPED outcome, or the answers it has not received (R323). -/
def Exch.droppedTries (x : Exch) : Nat :=
  (x.tries.filter fun t => t.outcome = some 2 || t.outcome = some 3 || t.outcome = some 4 || t.outcome = some 5).length
def Round.missing (r : Round) (phase : Nat) : Nat := (r.routes.filter fun q => !(if phase = 1 then q.fwd else q.bwd)).length
def State.xInfo (s : State) (x : Exch) : Nat :=
  let r := (s.roundOf x.layer x.gen).elim Round.none s.round
  if x.phase = 0 then x.droppedTries else if x.phase = 2 then r.dropped else r.missing x.phase

/-- Reserved records that the admission of a FWD_DISPATCH has left unused return to the store (R305). -/
def State.xReturn (s : State) (x : Exch) : State :=
  match if x.phase = 0 then s.roundOf x.layer x.gen else none with
  | none => s
  | some e =>
    let r := s.round e
    (s.setRound e { r with reserved := r.routes.length, dropped := x.droppedTries }).waterRr s.rrFree false

/-- An EXCHANGE in execution is stopped (R320, R321): it sends no further row and applies no further answer. -/
def State.xStop (s : State) (x : Exch) (st : Nat) : State := (s.xReturn x).xEnd x.slot st (s.xInfo x)

/-- The status of an EXCHANGE that has executed. -/
def State.xStatus (s : State) (x : Exch) : Nat :=
  if !x.dead.isEmpty || x.bad || (s.slot x.slot).dead then stDead else if x.skew then stSkew else if x.part then stPartial else stOk

/-- A peer counts as done for every wait (R322). -/
def State.peerDone (s : State) (x : Exch) (p : Nat × Nat) : Bool :=
  x.dead.contains p || s.dones.contains (x.layer, x.gen, x.phase, p.1, p.2)

/-- The receive table of a dispatch (R311). -/
def State.rxTable (s : State) (x : Exch) : List Byte :=
  (List.range x.slots).flatMap fun n =>
    match s.served x.layer x.gen n with
    | none => leBytes 16 0
    | some v =>
      let (h, rows) := if x.phase = 0 then (v.fwd, v.fwdRows.length) else (v.bwd, v.bwdRows.length)
      match h with
      | none => leBytes 16 0
      | some h => leBytes 8 (s.localAddr (s.handleOff h)) ++ leBytes 4 rows ++ leBytes 4 h

/-- A dispatch is over in both its roles: its receive table, what it leaves of its reservation, its end (R311, R320). -/
def State.dispatchEnd (s : State) (x : Exch) (e : Nat) : State :=
  let s := (s.descWrite x.slot 6 x.table (s.rxTable x)).xReturn x
  let s := { (s.setRound e { s.round e with state := 2 * x.phase + 2 }) with
    dones := s.dones.filter fun d => !(d.1 == x.layer && d.2.1 == x.gen && d.2.2.1 == x.phase) }
  s.xEnd x.slot (s.xStatus x) (s.xInfo x)

/-- Rows of a slot area's buffers, and how many buffers the area needs (R315). -/
def State.areaNeeds (s : State) (pool rows cols : Nat) : Nat × Nat :=
  let per := s.fieldOf (Reg.panCfg pool) 15 0 * 4096 / (cdiv (4 * cols) 128 * 128)
  (per, cdiv rows per)

/-- The bytes an answer row takes of its slot; the slot of a record's answer in the slot area (R315). -/
def Exch.areaRow (x : Exch) : Nat := cdiv (4 * x.rows.d.size.headD 0) 128 * 128
def State.areaAt (s : State) (x : Exch) (e : Nat) (r : Route) : Option Nat :=
  let y := s.round e
  let j := (y.routes.filter fun q => q.token == r.token && decide (q.rank < r.rank)).length
  let at_ := r.token * x.k + j
  let per := (s.areaNeeds (s.slot x.slot).xPool 0 (x.rows.d.size.headD 0)).1
  (y.area[at_ / per]?).map fun h => s.handleOff h + at_ % per * x.areaRow

/-- A term of a SLOTTED combine, as the slot area holds it: the answer's weight and its elements, and the range it lies in (R315, R333). -/
def State.areaTerm (s : State) (x : Exch) (e : Nat) (r : Route) : Option ((FVal × List FVal) × (Nat × Nat)) :=
  match x.terms.find? fun t => t.1 == r.idx, s.areaAt x e r with
  | some (_, f), some o =>
    let n := min (fmtBytes f + fmtScales f) x.areaRow
    let bs := s.memBytes o n
    some ((if x.phase = 1 then v32 r.weight else v32 0x3F800000, rowVals f (bs.take (fmtBytes f)) (bs.drop (fmtBytes f))), (o, n))
  | _, _ => none

/-- The ordered reductions of a SLOTTED combine (R315, R351): for each token the terms in rank order, then the row's initial value. -/
def State.slottedSums (s : State) (x : Exch) (e : Nat) : State :=
  let n := x.rows.d.size.headD 0
  (List.range x.tokens).foldl
    (fun s token =>
      let mine := (List.range 16).filterMap fun r => (s.round e).routes.find? fun q => q.token == token && q.rank == r
      let terms := mine.filterMap (s.areaTerm x e)
      if terms.isEmpty then s
      else
        let ixs := (List.range n).map fun c => [c, token]
        let out := ixs.map fun ix =>
          let sum := terms.foldl (fun a t => flv (a.add (t.1.1.mul (t.1.2.getD (ix.headD 0) (.zero false))))) (FVal.zero false)
          let old := if x.keep then s.tval (s.slot x.slot) x.rows ix else .zero false
          (ix, x.rows.d.ty.rne (old.add sum))
        let dead := terms.any (fun t => s.rangeBad t.2.1 t.2.2) || (x.keep && s.elemsDead (s.slot x.slot) x.rows ixs)
        let t := terms.foldl (fun s t => s.readNotes 6 t.2.1 t.2.2) s
        let t := if x.keep then t.noteElems 6 x.rows ixs else t
        let t := t.putRuns x.slot 6 (x.rows.runs out)
        if dead then t.setSlot x.slot { t.slot x.slot with dead := true } else t) s

/-- A combine is over in both its roles. -/
def State.combineEnd (s : State) (x : Exch) (e : Nat) : State :=
  let s := s.incReg Reg.sluAnswersMissing ((s.round e).missing x.phase)
  let info := s.xInfo x
  let s := if x.slotted then s.slottedSums x e else s
  let s := (s.round e).area.foldl (fun s h => (s.dropRef h).1) (s.setRound e { s.round e with area := [] })
  let closes := x.phase = 3 || (s.round e).fwdOnly
  let s := s.xEnd x.slot (s.xStatus x) info
  if closes then s.endRound e else s.setRound e { s.round e with state := 4 }

/-- The LOADs that an EXCHANGE needs of other rooms: its choice list and its rows at its start; the rows of a SLOTTED combine that keeps them, at its
end. -/
def Exch.startReads (x : Exch) : List (Nat × Nat) :=
  if x.phase % 2 = 1 then []
  else (x.choices.elim [] fun c => c.readRuns (allIdx c.d.size)) ++ x.rows.readRuns (allIdx x.rows.d.size)
def Exch.endReads (x : Exch) : List (Nat × Nat) := if x.slotted && x.keep then x.rows.readRuns (allIdx x.rows.d.size) else []

/-- A gradient row multiplied by its combine weight (R303): each element, rounded once. -/
def weighted (d : TDesc) (w : Nat) (elems : List Byte) : List (Nat × Ev) :=
  (codesOf d.ty elems (d.size.headD 0)).map fun c => d.ty.conv .rne d.e5inf 0 ((d.ty.val c).mul (v32 w))

/-- The rows of a BWD_DISPATCH leave along the route records (R22, R300). -/
def State.bwdRows (s : State) (i : Nat) (x : Exch) : State :=
  let v := s.slot i
  ((s.roundOf x.layer x.gen).elim [] fun e => (s.round e).routes).foldl
    (fun s r =>
      let (elems, scales, dead) := s.rowOf v x.rows r.token
      let s := s.noteElems 6 x.rows ((List.range (x.rows.d.size.headD 0)).map fun c => [c, r.token])
      let s := if dead then s.modExch i fun x => { x with bad := true } else s
      let evs := weighted x.rows.d r.weight elems
      let (s, elems) := if v.xWeighted then (s.countConv x.rows.d.ty evs, rowCodes x.rows.d.ty (evs.map Prod.fst)) else (s, elems)
      s.sluSend i r.house r.room x (.brow r.slot r.row r.token r.rank r.idx x.rows.d.fmt elems scales) true) s

/-- What an EXCHANGE does once its own reads are over: a FWD_DISPATCH tries the primary choices of its tokens, a BWD_DISPATCH sends its rows. -/
def State.xBegin (s : State) (i : Nat) (x : Exch) : State :=
  if x.phase = 0 then
    let s := (List.range x.tokens).foldl (fun t k => t.fill 17 i k x.k) s
    if x.ranked then s.sendCounts i else s
  else if x.phase = 2 then s.bwdRows i x
  else s

/-- Nothing of a dispatch is left to send: every token's admission is final, or every gradient row has been accepted or is for a dead room. -/
def State.xSentAll (s : State) (x : Exch) : Bool :=
  if x.phase = 0 then (List.range x.tokens).all fun t => x.final.contains t
  else ((s.roundOf x.layer x.gen).elim [] fun e => (s.round e).routes).all fun r => r.brow || x.dead.contains (r.house, r.room)

/-- DONE leaves for every peer once nothing is left to send (R301). -/
def State.sendDone (s : State) (i : Nat) (x : Exch) : State :=
  if x.phase % 2 = 0 && s.xSentAll x && !x.sent then
    x.peers.foldl (fun s p => s.sluSend i p.1 p.2 x (.done x.phase) false) (s.modExch i fun x => { x with sent := true })
  else s

/-- Both roles of an EXCHANGE are over (R301, R318). -/
def State.xOver (s : State) (x : Exch) (e : Nat) : Bool :=
  if x.phase % 2 = 0 then x.sent && s.xSentAll x && x.peers.all (s.peerDone x)
  else
    ((s.round e).routes.all fun q => (if x.phase = 1 then q.fwd else q.bwd) || x.dead.contains (q.house, q.room)) &&
    ((s.service x.layer x.gen).elim true fun y => y.slots.all fun v => v.answers.isEmpty)

/-- An EXCHANGE whose reads are over goes on: choices of dead rooms are dropped, admission runs, DONE leaves, the capacity counts close, and it ends when
nothing is left to wait for; `step` 3 says that it has only to read the rows it keeps (R315). -/
def State.sluRun (s : State) (i : Nat) (x : Exch) : State :=
  let s := (x.tries.filter fun t => t.outcome = none && x.dead.contains (t.house, t.room)).foldl (fun s t => s.dropTry i t 5 false) s
  let s := if x.phase = 0 then s.admitGo i else s
  let s := (s.exch i).elim s (s.sendDone i)
  let s := (s.answersGone fun l g _ a => l == x.layer && g == x.gen && x.dead.contains (a.2.1, a.2.2)).closeReturned
  match s.exch i, s.roundOf x.layer x.gen with
  | some x, some e =>
    if !s.xOver x e then s
    else if x.phase % 2 = 0 then s.dispatchEnd x e
    else
      let s := if (s.slot i).step = 2 then (s.setSlot i { s.slot i with step := 3 }).loadAll i x.endReads else s
      if s.slotBusy i then s else s.combineEnd x e
  | _, _ => s

/-- An EXCHANGE goes on: dead peers are taken note of (R322), its reads are waited for (`step` 1), and it runs. A refusal of its reads ends it (R392). -/
def State.sluGo (s : State) (i : Nat) : State :=
  let s := s.modExch i fun x =>
    { x with dead := x.dead ++ x.peers.filter fun p => p.1 == s.house && p.2 != s.room && s.roomDead p.2 && !x.dead.contains p }
  match s.exch i with
  | none => s
  | some x =>
    if (s.slot i).step = 1 then
      if s.slotBusy i then s
      else if (s.slot i).refused then s.xStop x stDenied
      else
        let s := (s.setSlot i { s.slot i with step := 2 }).xBegin i x
        (s.exch i).elim s (s.sluRun i)
    else s.sluRun i x

/-- Every EXCHANGE of a round goes on. -/
def State.sluWake (s : State) (layer gen : Nat) : State :=
  ((s.exchs.filter fun x => x.layer == layer && x.gen == gen).map Exch.slot).foldl (fun s i => s.sluGo i) s

/-! ## FWD_DISPATCH and BWD_DISPATCH (R300–R305, R308, R322) -/

/-- R303: a tensor of source rows or answers. -/
def rowTensorBad (d : TDesc) : Bool := d.rank != 2 || d.block = .square

/-- R275, R288: a list of choices or of admissions. -/
def listBad (d : TDesc) (tokens cols : Nat) : Bool :=
  d.rank != 2 || d.ty != .int64 || d.block != .none || d.size.getD 1 1 != tokens || decide (d.size.headD 0 < cols)

/-- The EXCHANGE of slot `i` executes: its reads leave, and it goes on. -/
def State.xStart (s : State) (i : Nat) (x : Exch) : State :=
  ({ (s.setSlot i { s.slot i with stage := .started, step := 1 }) with exchs := s.exchs ++ [x] }).loadAll i x.startReads

/-- An EXCHANGE of slot `i` as it starts. -/
def State.xNew (s : State) (i : Nat) (peers : List (Nat × Nat)) (rows : Tensor) (table : Nat) : Exch :=
  let v := s.slot i
  let l := s.layerAt v.xLayer
  ⟨i, v.xphase, v.xLayer, v.xGen, peers, [], rows, none, none, table, l.k, l.s, l.ranked, l.renorm, l.experts, l.place, l.version, l.nslots, 0, [], [],
    false, false, false, false, v.xSlotted, v.xKeep, []⟩

/-- No layer routing entries: every EXCHANGE is invalid (R299). -/
def State.noLayers (s : State) : Option Nat := if s.fieldOf Reg.sluLayerCount 8 0 = 0 then some stInvalid else none

/-- Reading layer entry `n` gives the error value. -/
def State.layerDead (s : State) (n : Nat) : Option Nat := if s.rangeBad (s.layerOff n) 64 then some stDead else none

/-- The checks of a FWD_DISPATCH (R275, R278, R288, R303, R319, R346, R391), on what could be read of its tensors. -/
def State.fwdChecks (s : State) (v : Slot) (src ch ad : Except Nat Tensor) (peers : Except Nat (List (Nat × Nat))) : Option Nat :=
  let l := s.layerAt v.xLayer
  let dead := s.layerDead v.xLayer
  firstBad
    [s.noLayers, dead, if dead.isNone && s.layerBad v.xLayer l then some stInvalid else none,
     if decide (4 < v.xphase) || s.inHold v.xLayer v.xGen || (s.roundOf v.xLayer v.xGen).isSome then some stInvalid else none,
     tensorErr src, tensorErr ch, tensorErr ad, roomsErr peers, s.writeBad false (v.word 7) (16 * l.nslots),
     if l.load = 0 then none else s.atomicBad [(l.load, 16 * max 1 l.nslots)],
     match src with | .ok a => s.tensorReadBad false a | .error _ => none, match ch with | .ok a => s.tensorReadBad false a | .error _ => none,
     match ad with | .ok a => s.tensorWriteBad false a | .error _ => none,
     match v.fieldsOf (v.word 4) with | some d => if rowTensorBad d then some stInvalid else none | none => none,
     match v.fieldsOf (v.word 4), v.fieldsOf (v.word 5) with
     | some d, some c => if listBad c (d.size.getD 1 1) (l.k + l.s) then some stInvalid else none
     | _, _ => none,
     match v.fieldsOf (v.word 4), v.fieldsOf (v.word 5), v.fieldsOf (v.word 6) with
     | some d, some c, some a =>
       if listBad a (d.size.getD 1 1) (c.size.headD 0) || a.size.headD 0 != c.size.headD 0 then some stInvalid else none
     | _, _, _ => none]

/-- A FWD_DISPATCH starts (R278, R303, R305), once its descriptors have been read. -/
def State.fwdBegin (s : State) (i : Nat) : State :=
  match s.fetchExch i [(s.slot i).word 4, (s.slot i).word 5, (s.slot i).word 6] (s.peerTab (s.slot i)) with
  | (s, false) => s
  | (s, true) =>
    let v := s.slot i
    let s := s.noteLayer v.xLayer
    let src := s.readTensor v false (v.word 4)
    let ch := s.readTensor v false (v.word 5)
    let ad := s.readTensor v true (v.word 6)
    let peers := s.readRooms v (v.word 3) v.xPeers
    let k := (s.layerAt v.xLayer).k
    if v.refused then s.xEnd i stDenied 0
    else
      match s.fwdChecks v src ch ad peers, src, ch, ad, peers with
      | none, .ok src, .ok ch, .ok ad, .ok peers =>
        let n := src.d.size.getD 1 1
        match s.freeEntry, decide (n * k ≤ s.rrFree) with
        | some e, true =>
          ((s.setRound e ⟨v.xLayer, v.xGen, 1, false, v.xFwdOnly, n, n * k, 0, [], []⟩).xStart i
            { s.xNew i peers src (v.word 7) with choices := some ch, admits := some ad }).sluGo i
        | _, _ => s.parkOr i 64
      | st, _, _, _, _ => s.xEnd i (st.getD stInvalid) 0

/-- FWD_DISPATCH (R300–R305): the EXCHANGE of slot `i` with `xphase` 0, or one with a reserved code, starts, or goes on. -/
def execFwdDispatch (i : Nat) (s : State) : Host.Outcome State Fault Refusal :=
  if s.xReady i fun p => p == 0 || decide (4 < p) then .next (if s.xOff i then s.xEnd i stCancelled 0 else s.fwdBegin i)
  else if (s.slot i).xphase = 0 then .next (s.sluGo i)
  else .next s

/-- The round of an EXCHANGE that starts in phase `p`, when the round's state is the one its predecessor leaves (R320). -/
def State.roundFor (s : State) (v : Slot) : Option Nat :=
  match s.roundOf v.xLayer v.xGen with
  | some e => if (s.round e).state = 2 * v.xphase && !((s.round e).fwdOnly && decide (2 ≤ v.xphase)) then some e else none
  | none => none

/-- The checks of a BWD_DISPATCH (R303, R320, R391), on what could be read of its tensor. -/
def State.bwdChecks (s : State) (v : Slot) (src : Except Nat Tensor) (peers : Except Nat (List (Nat × Nat))) : Option Nat :=
  firstBad
    [s.noLayers, s.layerDead v.xLayer, if v.word 5 != 0 || v.word 6 != 0 || (s.roundFor v).isNone then some stInvalid else none, tensorErr src,
     roomsErr peers, s.writeBad false (v.word 7) (16 * (s.layerAt v.xLayer).nslots),
     match src with | .ok a => s.tensorReadBad false a | .error _ => none,
     match v.fieldsOf (v.word 4) with
     | some d => if rowTensorBad d || d.size.getD 1 1 != (s.roundFor v).elim 0 fun e => (s.round e).tokens then some stInvalid else none
     | none => none]

/-- A BWD_DISPATCH starts, once its descriptors have been read. -/
def State.bwdBegin (s : State) (i : Nat) : State :=
  match s.fetchExch i [(s.slot i).word 4] (s.peerTab (s.slot i)) with
  | (s, false) => s
  | (s, true) =>
    let v := s.slot i
    let s := s.noteLayer v.xLayer
    let src := s.readTensor v false (v.word 4)
    let peers := s.readRooms v (v.word 3) v.xPeers
    if v.refused then s.xEnd i stDenied 0
    else
      match s.bwdChecks v src peers, src, peers, s.roundFor v with
      | none, .ok src, .ok peers, some e => ((s.setRound e { s.round e with state := 5 }).xStart i (s.xNew i peers src (v.word 7))).sluGo i
      | st, _, _, _ => s.xEnd i (st.getD stInvalid) 0

/-- BWD_DISPATCH (R300, R303): the EXCHANGE of slot `i` with `xphase` 2 starts, or goes on. -/
def execBwdDispatch (i : Nat) (s : State) : Host.Outcome State Fault Refusal :=
  if s.xReady i (· == 2) then .next (if s.xOff i then s.xEnd i stCancelled 0 else s.bwdBegin i)
  else if (s.slot i).xphase = 2 then .next (s.sluGo i)
  else .next s

/-! ## FWD_COMBINE and BWD_COMBINE (R304, R313–R318) -/

/-- Entry `k` of the answer table (R304): the address of the rows, their pitch and form, and whether it is valid. -/
def State.ansEntry (s : State) (v : Slot) (n k cols : Nat) : Nat × Nat × RowFmt × Bool :=
  let bs := ((v.tab (v.word 4) (16 * n)).getD []).drop (16 * k)
  let o := field bs 0 8
  let w := field bs 8 8
  (o, bits w 31 0, ⟨cols, bits w 39 32, bits w 42 40 == 2⟩,
   s.isLocal o && bits w 63 43 == 0 && (bits w 42 40 == 0 || bits w 42 40 == 2) && (EType.ofCode (bits w 39 32)).isSome)

/-- Receive rows of a slot, in the phase of a combine. -/
def Served.rowsIn (v : Served) (phase : Nat) : List Arrived := if phase = 1 then v.fwdRows else v.bwdRows

/-- What keeps the answers from being read, or the table from being valid (R304, R388, R391). -/
def State.ansBad (s : State) (v : Slot) (n cols : Nat) : Option Nat :=
  match s.readBad false (v.word 4) (16 * n), v.tab (v.word 4) (16 * n) with
  | some st, _ => some st
  | none, none => if n = 0 then none else some stDead
  | none, some _ =>
    firstBad ((List.range n).map fun k =>
      let (o, pitch, f, ok) := s.ansEntry v n k cols
      let rows := ((s.served v.xLayer v.xGen k).elim [] fun x => x.rowsIn v.xphase).length
      if o = 0 then none
      else if !ok then some stInvalid
      else s.readBad false o (rows * pitch + rows * fmtScales f))

/-- One answer row leaves: answer row r of a slot answers receive row r (R304). -/
def State.sendAnswer (s : State) (i : Nat) (x : Exch) (k rows : Nat) (a : Arrived) : State :=
  let (o, pitch, f, _) := s.ansEntry (s.slot i) x.slots k (x.rows.d.size.headD 0)
  let at_ := aOff o + a.row * pitch
  let sc := aOff o + rows * pitch + a.row * fmtScales f
  let s := (s.readNotes 6 at_ (fmtBytes f)).readNotes 6 sc (fmtScales f)
  let s := if s.rangeBad at_ (fmtBytes f) || s.rangeBad sc (fmtScales f) then s.modExch i fun x => { x with bad := true } else s
  s.sluSend i a.house a.room x (.answer x.phase k a.row a.store f (s.memBytes at_ (fmtBytes f)) (s.memBytes sc (fmtScales f))) true

/-- The answers of the instance role leave (R304, R326). -/
def State.sendAnswers (s : State) (i : Nat) (x : Exch) : State :=
  let s := (List.range x.slots).foldl
    (fun s k =>
      match s.served x.layer x.gen k with
      | none => s
      | some y =>
        let rows := y.rowsIn x.phase
        let handle := if x.phase = 1 then y.fwd else y.bwd
        if (s.ansEntry (s.slot i) x.slots k (x.rows.d.size.headD 0)).1 = 0 || rows.isEmpty then s
        else
          let s := handle.elim s fun h => (s.addRef h).1
          let s := s.setServed x.layer x.gen { y with answers := rows.map fun a => (a.row, a.house, a.room), ansRef := handle }
          rows.foldl (fun s a => s.sendAnswer i x k rows.length a) s)
    s
  if x.phase = 1 then
    { s with services := s.services.map fun y => if y.layer = x.layer ∧ y.gen = x.gen ∧ y.ended = false then { y with sent := true } else y }
  else s

/-- Where the contributions of a combine go (R313–R315, R346, R391): an ATOMIC one makes atomics and, unless it keeps the rows, writes their zeros; a
SLOTTED one writes, and reads the rows it keeps. -/
def State.combWriteBad (s : State) (v : Slot) (b : Tensor) : Option Nat :=
  firstBad [if v.xSlotted || !v.xKeep then s.tensorWriteBad false b else none, if v.xSlotted then none else s.atomicBad b.extents,
    if v.xSlotted && v.xKeep then s.tensorReadBad false b else none]

/-- The checks of a combine (R303, R304, R313, R320, R391), on what could be read of its destination. -/
def State.combChecks (s : State) (v : Slot) (dst : Except Nat Tensor) (peers : Except Nat (List (Nat × Nat))) : Option Nat :=
  firstBad
    [s.noLayers, s.layerDead v.xLayer, if v.word 6 != 0 || v.word 7 != 0 || (s.roundFor v).isNone then some stInvalid else none, tensorErr dst,
     roomsErr peers, match dst with | .ok b => s.combWriteBad v b | .error _ => none,
     s.ansBad v (s.layerAt v.xLayer).nslots ((v.fieldsOf (v.word 5)).elim 0 fun d => d.size.headD 0),
     match v.fieldsOf (v.word 5) with
     | some d =>
       if d.rank != 2 || !(d.ty = .fp32 || d.ty = .bf16) || d.block != .none || d.size.getD 1 1 != (s.roundFor v).elim 0 fun e => (s.round e).tokens then
         some stInvalid
       else none
     | none => none]

/-- The table of answers, where it may be read (R304). -/
def State.ansTab (s : State) (v : Slot) : List (Nat × Nat) :=
  let n := 16 * (s.layerAt v.xLayer).nslots
  if (s.readBad false (v.word 4) n).isNone && n != 0 then [(v.word 4, n)] else []

/-- A combine starts (R303, R313, R315), once its descriptors and its answer table have been read. -/
def State.combBegin (s : State) (i : Nat) : State :=
  match s.fetchExch i [(s.slot i).word 5] (s.peerTab (s.slot i) ++ s.ansTab (s.slot i)) with
  | (s, false) => s
  | (s, true) =>
    let v := s.slot i
    let s := s.noteLayer v.xLayer
    let dst := s.readTensor v true (v.word 5)
    let peers := s.readRooms v (v.word 3) v.xPeers
    if v.refused then s.xEnd i stDenied 0
    else
      match s.combChecks v dst peers, dst, peers, s.roundFor v with
      | none, .ok dst, .ok peers, some e =>
        let x := s.xNew i peers dst (v.word 4)
        let (per, need) := s.areaNeeds v.xPool ((s.round e).tokens * (s.layerAt v.xLayer).k) (dst.d.size.headD 0)
        let got := if !v.xSlotted then some (s, []) else if per = 0 then none else s.alloc v.xPool need
        match got with
        | none => (s.incReg (Reg.panFails v.xPool) 1).parkOr i v.xPool
        | some (t, bufs) =>
          let t := (t.setRound e { t.round e with state := 2 * v.xphase + 1, area := bufs.map (handleOf v.xPool) }).xStart i x
          let t := if v.xKeep then t else t.putRuns i 6 (dst.runs ((allIdx dst.d.size).map fun ix => (ix, 0)))
          (t.sendAnswers i x).sluGo i
      | st, _, _, _ => s.xEnd i (st.getD stInvalid) 0

/-- FWD_COMBINE (R313): the EXCHANGE of slot `i` with `xphase` 1 starts, or goes on. -/
def execFwdCombine (i : Nat) (s : State) : Host.Outcome State Fault Refusal :=
  if s.xReady i (· == 1) then .next (if s.xOff i then s.xEnd i stCancelled 0 else s.combBegin i)
  else if (s.slot i).xphase = 1 then .next (s.sluGo i)
  else .next s

/-- BWD_COMBINE (R313): the EXCHANGE of slot `i` with `xphase` 3 starts, or goes on. -/
def execBwdCombine (i : Nat) (s : State) : Host.Outcome State Fault Refusal :=
  if s.xReady i (· == 3) then .next (if s.xOff i then s.xEnd i stCancelled 0 else s.combBegin i)
  else if (s.slot i).xphase = 3 then .next (s.sluGo i)
  else .next s

/-! ## CANCEL (R320) -/

/-- CANCEL (R320): the EXCHANGE of slot `i` with `xphase` 4 ends its round in the room. -/
def execCancel (i : Nat) (s : State) : Host.Outcome State Fault Refusal :=
  let v := s.slot i
  if !s.xReady i (· == 4) then .next s
  else if s.xOff i then .next (s.xEnd i stCancelled 0)
  else if s.noLayers.isSome || (List.range 4).any (fun k => v.word (4 + k) != 0) then .next (s.xEnd i stInvalid 0)
  else
    match s.roundOf v.xLayer v.xGen with
    | none => .next (s.xEnd i stOk 0)
    | some e =>
      let s := match s.exchOf v.xLayer v.xGen fun _ => true with
        | some x => s.xStop x stCancelled
        | none => s
      .next (((s.endRound e).incReg Reg.sluCancels 1).xEnd i stOk 0)

end Sys2Proof.Machine
end

