-- ==== Sys2Proof/Machine/Exchange.lean ====
section
/-! DEFINITION. Messages of the Sluice as they arrive (11_expert_routing.md R281–R286, 12_sluice_and_pantry.md R308–R322): reservations, counts and
their replies, rows, DONE markers, answers and their acknowledgements, time-outs and retries. -/

namespace Sys2Proof.Machine

/-- A message arrives from a room, unless no Sluice of this room takes any (R505); one of this room's own is on its way. -/
def State.sluTake (s : State) (m : Sys2Proof.SluMsg) (f : State → State) : State :=
  if s.sluOff then s
  else
    match s.takeLoop m.house m.room (.slu m) with
    | (s, true) => f s
    | (s, false) => s

/-- A message is refused for retry (R281, R308, R312). -/
def State.sluRefuse (s : State) (m : Sys2Proof.SluMsg) (empty counted : Bool) : State :=
  (if counted then s.incReg Reg.sluRetries 1 else s).refuseMsg m.house m.room (.slu m) empty

/-- A reply to the message's sender. -/
def State.sluBack (s : State) (m : Sys2Proof.SluMsg) (b : SluBody) : State := s.sluReply m.house m.room m.layer m.gen b

/-! ## Instances (R281, R282, R284, R291, R298, R308) -/

/-- Where a message finds its slot: turned down, refused for retry (`empty`: for an empty pool), or served. -/
inductive Seat where
  | no (v : Verdict)
  | again (empty : Bool)
  | at_ (v : Served)
  deriving DecidableEq, Repr

/-- The forward buffer of a served slot is allocated when there is none (R308). -/
def State.seatBuffer (s : State) (m : Sys2Proof.SluMsg) (v : Served) (f : RowFmt) : State × Seat :=
  if v.refused then (s, .no .invalid)
  else if v.fwd.isSome then (s, .at_ v)
  else
    let p := s.fieldOf (Reg.sluPools m.layer) 5 0
    if s.fieldOf (Reg.panCfg p) 15 0 * 4096 < rxSize v.cap f then
      (s.setServed m.layer m.gen { v with refused := true }, .no .invalid)
    else
      match s.alloc p 1 with
      | some (s, b :: _) =>
        let v := { v with fwd := some (handleOf p b), fwdFmt := f }
        ((s.setServed m.layer m.gen v).memWrite 6 (s.bufOff p b) (rxHeader m.layer m.gen v.slot 0 v.cap f), .at_ v)
      | _ => (s.incReg (Reg.panFails p) 1, .again true)

/-- A reservation or count message for instance `n` of expert `e` is looked at (R281, R291, R298, R308, R320). -/
def State.seat (s : State) (m : Sys2Proof.SluMsg) (e n ver : Nat) (f : RowFmt) : State × Seat :=
  let l := s.layerAt m.layer
  let w := (s.placeWords l.place e).getD n 0
  let t := s.noteLayer m.layer
  let u := t.readNotes 6 (aOff l.place + 64 + 64 * e) 64
  if s.inHold m.layer m.gen then (s, .no .late)
  else if s.fieldOf Reg.sluLayerCount 8 0 ≤ m.layer then (s, .no .invalid)
  else if l.version ≠ ver then (t, .no .skew)
  else if l.experts ≤ e then (t, .no .invalid)
  else if !wValid w || wHouse w != s.house || wRoom w != s.room || decide (l.nslots ≤ wSlot w) then (u, .no .invalid)
  else
    match s.service m.layer m.gen with
    | some y =>
      if !y.counting then (u, .no .late)
      else u.seatBuffer m ((s.served m.layer m.gen (wSlot w)).getD (Served.fresh (wSlot w) (wCap w))) f
    | none =>
      if 64 ≤ (s.services.filter fun y => y.counting).length then (u, .again false)
      else
        ({ u with services := s.services ++ [Service.mk m.layer m.gen true false false []] }).seatBuffer m (Served.fresh (wSlot w) (wCap w)) f

/-- RESERVATION (R282): granted while the slot's count is below its capacity, refused after. -/
def execReservation (m : SluMsg) (s : State) : Host.Outcome State Fault Refusal :=
  .next (match m.body with
    | .reserve token rank e n ver f =>
      s.sluTake m fun s =>
        match s.seat m e n ver f with
        | (s, .no v) => s.sluBack m (.reply token rank v)
        | (s, .again empty) => s.sluRefuse m empty empty
        | (s, .at_ v) =>
          let excess := decide ((s.layerAt m.layer).k ≤ rank)
          let v := { v with requested := v.requested + 1 }
          if v.admitted < v.cap then
            (s.setServed m.layer m.gen { v with admitted := v.admitted + 1, excess := v.excess + b2n excess }).sluBack m
              (.reply token rank (.granted v.admitted (v.fwd.getD 0)))
          else (s.setServed m.layer m.gen { v with dropped := v.dropped + 1 }).sluBack m (.reply token rank .full)
    | _ => s)

/-- The number of choices of rank `r` that a source counts. -/
def Counted.of (c : Counted) (r : Nat) : Nat := ((c.ranks.filter fun x => x.1 == r).map Prod.snd).sum

/-- Sources by house, then by room. -/
def insertSource (c : Counted) : List Counted → List Counted
  | [] => [c]
  | d :: r => if c.house < d.house || (c.house == d.house && decide (c.room < d.room)) then c :: d :: r else d :: insertSource c r

/-- Choices of lower rank than `r`, from every source. -/
def below (l : List Counted) (r : Nat) : Nat := ((List.range r).map fun q => (l.map fun c => c.of q).sum).sum

/-- A step of a slot is answered (R284, R286): offsets for the sources whose counts are held; the slot's count rises by what they will admit. -/
def State.answerStep (s : State) (layer gen : Nat) (v : Served) (step : Nat) : State :=
  let l := (v.counts.filter fun c => c.step == step).foldr insertSource []
  let left := v.cap - v.admitted
  let total := below l 16
  let k := (s.layerAt layer).k
  let s := s.setServed layer gen { v with
    counts := v.counts.filter fun c => c.step != step
    closed := v.closed ++ [step]
    requested := v.requested + total
    admitted := v.admitted + min total left
    dropped := v.dropped + (total - left)
    excess := v.excess + (min total left - min (below l k) left) }
  l.zipIdx.foldl
    (fun s c =>
      let offs := c.1.ranks.map fun r => (r.1, below l r.1 + (((l.take c.2).map fun d => d.of r.1).sum))
      s.sluReply c.1.house c.1.room layer gen (.offsets c.1.step c.1.expert c.1.inst (.given offs left v.admitted (v.fwd.getD 0)))) s

/-- Steps of a slot are answered, the lowest first, while the counts of every source that is not dead are held (R284, R322). -/
def State.tryStep : Nat → State → Nat → Nat → Nat → State
  | 0, s, _, _, _ => s
  | f + 1, s, layer, gen, slot =>
    match s.served layer gen slot with
    | none => s
    | some v =>
      match v.counts with
      | [] => s
      | c :: r =>
        let step := r.foldl (fun n d => min n d.step) c.step
        let held := v.counts.filter fun d => d.step == step
        let dead := ((s.exchOf layer gen fun p => p == 0).elim [] Exch.dead).filter fun p => !(held.any fun d => d.house == p.1 && d.room == p.2)
        if (held.map Counted.peers).foldl max 0 ≤ held.length + dead.length then State.tryStep f (s.answerStep layer gen v step) layer gen slot
        else s

/-- COUNT_MESSAGE (R284, R320): the counts of a source are held; when those of every source are, offsets go back. Counts of a round that has ended here
are discarded. -/
def execCountMessage (m : SluMsg) (s : State) : Host.Outcome State Fault Refusal :=
  .next (match m.body with
    | .counts step e n ver peers f ranks =>
      s.sluTake m fun s =>
        if s.inHold m.layer m.gen then s
        else match s.seat m e n ver f with
        | (s, .no v) => s.sluBack m (.offsets step e n (.refused v))
        | (s, .again empty) => s.sluRefuse m empty empty
        | (s, .at_ v) =>
          if v.closed.contains step then (s.setServed m.layer m.gen v).sluBack m (.offsets step e n (.refused .late))
          else
            (s.setServed m.layer m.gen { v with counts := v.counts ++ [⟨m.house, m.room, step, e, n, peers, ranks⟩] }).tryStep 6 m.layer m.gen v.slot
    | _ => s)

/-- COUNT_TIMEOUT (R286): SLU_COUNT_TIMEOUT has passed since the first counts of a step of a slot came; sources without counts are taken as zero. -/
def execCountTimeout (layer gen slot step : Nat) (s : State) : Host.Outcome State Fault Refusal :=
  match s.served layer gen slot with
  | none => .next s
  | some v =>
    .next (if v.counts.any fun c => c.step == step then (s.answerStep layer gen v step).tryStep 6 layer gen slot else s)

/-! ## Replies at the source (R282, R284) -/

/-- A backward row of token `token`, rank `rank`, has been accepted by its instance's room: its record's flag is set (R306), and the row is kept no
more. -/
def State.browTaken (s : State) (m : Sys2Proof.SluMsg) (token rank : Nat) : State :=
  match s.roundOf m.layer m.gen with
  | none => s
  | some e =>
    match (s.round e).routes.find? fun r => r.token == token && r.rank == rank && r.house == m.house && r.room == m.room with
    | none => s
    | some r =>
      let mine := fun (k : Kept) => match k.body with
        | .slu ⟨_, _, l, g, .brow _ _ tk rk _ _ _ _⟩ => l == m.layer && g == m.gen && tk == token && rk == rank
        | _ => false
      ((s.putRoute e { r with brow := true }).dropKept mine).sluWake m.layer m.gen

/-- RESERVATION_REPLY (R282, R298): the source decides the choice, and may try overflow. A token row turned down for its placement version, and a
backward row that has been accepted, are reported so too. -/
def execReservationReply (m : SluMsg) (s : State) : Host.Outcome State Fault Refusal :=
  .next (match m.body with
    | .reply token rank v =>
      s.sluTake m fun s =>
        match s.exchOf m.layer m.gen fun p => p == 0 with
        | none => (match v with | .granted _ _ => s.browTaken m token rank | _ => s)
        | some x =>
          match x.tries.find? fun t => t.token == token && t.rank == rank && t.house == m.house && t.room == m.room with
          | none => s
          | some t =>
            let mine := fun (k : Kept) => match k.body with
              | .slu ⟨_, _, _, _, .reserve tk rk _ _ _ _⟩ => k.slot == x.slot && tk == token && rk == rank
              | _ => false
            let s := s.dropKept mine
            if t.outcome = none && !x.ranked then (s.verdict x.slot t v).sluGo x.slot
            else if t.outcome = some 1 && v = .skew then
              let s := match s.roundOf m.layer m.gen with
                | some e =>
                  let r := s.round e
                  s.setRound e { r with routes := r.routes.filter fun q => !(q.token == token && q.rank == rank) }
                | none => s
              let s := (s.modExch x.slot fun x => { x with final := x.final.filter (· != token) }).dropTry x.slot t 4 true
              s.sluGo x.slot
            else s
    | _ => s)

/-- The choices that an offsets message decides: those of a rank take their places in the order of their tokens (R284, R310). -/
def decided (l : List Try) (offs : List (Nat × Nat)) (left base handle : Nat) : List (Try × Verdict) :=
  l.map fun t =>
    let off := ((offs.find? fun o => o.1 == t.rank).map Prod.snd).getD 0
    let p := (l.filter fun u => u.rank == t.rank && decide (u.token < t.token)).length
    (t, if off + p < left then .granted (base + off + p) handle else .full)

/-- OFFSETS_REPLY (R284, R286): the source admits its choices of each rank to the instance, or drops them. -/
def execOffsetsReply (m : SluMsg) (s : State) : Host.Outcome State Fault Refusal :=
  .next (match m.body with
    | .offsets step e n o =>
      s.sluTake m fun s =>
        match s.exchOf m.layer m.gen fun p => p == 0 with
        | none => s
        | some x =>
          let l := x.tries.filter fun t => t.outcome = none && t.step == step && t.expert == e && t.inst == n && t.house == m.house && t.room == m.room
          let mine := fun (k : Kept) => match k.body with
            | .slu ⟨_, _, _, _, .counts st ex ins _ _ _ _⟩ => k.slot == x.slot && st == step && ex == e && ins == n
            | _ => false
          let ds := match o with
            | .given offs left base handle => decided l offs left base handle
            | .refused v => l.map fun t => (t, v)
          if l.isEmpty then s else (ds.foldl (fun s d => s.verdict x.slot d.1 d.2) (s.dropKept mine)).sluGo x.slot
    | _ => s)

/-! ## Rows (R298, R308–R312) -/

/-- TOKEN_ROW (R298, R309, R310, R312): a dispatched row is written to its receive row. -/
def execTokenRow (m : SluMsg) (s : State) : Host.Outcome State Fault Refusal :=
  .next (match m.body with
    | .row slot row token rank store ver f elems scales =>
      s.sluTake m fun s =>
        if s.inHold m.layer m.gen then s
        else if (s.layerAt m.layer).version ≠ ver then s.sluBack m (.reply token rank .skew)
        else
          match s.served m.layer m.gen slot with
          | none => s
          | some v =>
            match v.fwd with
            | none => s
            | some h =>
              let a : Arrived := ⟨row, m.house, m.room, token, rank, store⟩
              let v := { v with fwdRows := v.fwdRows ++ [a] }
              (s.setServed m.layer m.gen v).putArrived h v.cap f v.fwdRows.length a elems scales
    | _ => s)

/-- BACKWARD_ROW (R308, R309): a gradient row is written to the same row of the slot's backward receive buffer, which the first of them allocates;
while the pool is empty, or its buffers too small, the row is refused for retry. The source is told of the row's acceptance. -/
def execBackwardRow (m : SluMsg) (s : State) : Host.Outcome State Fault Refusal :=
  .next (match m.body with
    | .brow slot row token rank store f elems scales =>
      s.sluTake m fun s =>
        match s.served m.layer m.gen slot with
        | none => s
        | some v =>
          let p := s.fieldOf (Reg.sluPools m.layer) 13 8
          let small := decide (s.fieldOf (Reg.panCfg p) 15 0 * 4096 < rxSize v.cap f)
          let (s, v) : State × Served := match v.bwd, if small then none else s.alloc p 1 with
            | some _, _ => (s, v)
            | none, some (t, b :: _) =>
              (t.memWrite 6 (t.bufOff p b) (rxHeader m.layer m.gen slot 0 v.cap f), { v with bwd := some (handleOf p b), bwdFmt := f })
            | none, _ => (s.incReg (Reg.panFails p) 1, v)
          match v.bwd with
          | none => s.sluRefuse m true true
          | some h =>
            let a : Arrived := ⟨row, m.house, m.room, token, rank, store⟩
            let v := { v with bwdRows := v.bwdRows ++ [a] }
            ((s.setServed m.layer m.gen v).putArrived h v.cap f v.bwdRows.length a elems scales).sluBack m (.reply token rank (.granted row h))
    | _ => s)

/-- DONE_MARKER (R301): a peer has sent its last row of a dispatch. -/
def execDoneMarker (m : SluMsg) (s : State) : Host.Outcome State Fault Refusal :=
  .next (match m.body with
    | .done p =>
      s.sluTake m fun s =>
        let d := (m.layer, m.gen, p, m.house, m.room)
        if s.inHold m.layer m.gen || s.dones.contains d then s
        else ({ s with dones := s.dones ++ [d] }).sluWake m.layer m.gen
    | _ => s)

/-! ## Answers (R312–R318, R326) -/

/-- The elements of an answer are added into a row of `dest` by scaled-add atomics with its weight (R314, R348, R398): here, or in the room where the row
is. -/
def State.scaledAdd (s : State) (i : Nat) (b : Tensor) (token w : Nat) (vals : List FVal) : State :=
  s.addElems i 6 b 1 w .fp32 (vals.zipIdx.map fun c => ([c.2, token], fl c.1))

/-- An accepted answer is applied: added at once, or put into the slot area (R314, R315). -/
def State.applyAnswer (s : State) (x : Exch) (e : Nat) (r : Route) (f : RowFmt) (elems scales : List Byte) : State :=
  let n := x.rows.d.size.headD 0
  let w := if x.phase = 1 then r.weight else 0x3F800000
  if !x.slotted then s.scaledAdd x.slot x.rows r.token w ((rowVals f elems scales).take n)
  else
    let s := s.modExch x.slot fun x => { x with terms := x.terms ++ [(r.idx, f)] }
    match s.areaAt x e r with
    | some o => s.memWrite 6 o ((elems ++ scales).take x.areaRow)
    | none => s

/-- ANSWER (R312, R317): an answer is applied, discarded, or refused for retry; all but the last are acknowledged. -/
def execAnswer (m : SluMsg) (s : State) : Host.Outcome State Fault Refusal :=
  .next (match m.body with
    | .answer p slot row store f elems scales =>
      s.sluTake m fun s =>
        let ack := fun (s : State) => s.sluBack m (.ack p slot row)
        match s.roundOf m.layer m.gen with
        | none => ack (s.incReg Reg.sluStaleAnswers 1)
        | some e =>
          let y := s.round e
          match y.routes.find? fun r => r.idx == store with
          | none => if y.state < 2 * p + 1 then s.sluRefuse m false true else ack s
          | some r =>
            if y.state < 2 * p + 1 then s.sluRefuse m false true
            else if (if p = 1 then r.fwd else r.bwd) then ack (s.incReg Reg.sluDupAnswers 1)
            else
              match s.exchOf m.layer m.gen fun q => q == p with
              | none => ack s
              | some x =>
                if y.state ≠ 2 * p + 1 then ack s
                else
                  let s := s.applyAnswer x e r f elems scales
                  let s := s.putRoute e (if p = 1 then { r with fwd := true } else { r with bwd := true })
                  (ack s).sluGo x.slot
    | _ => s)

/-- ANSWER_ACK (R317, R326): an answer's acknowledgement reaches the instance; the slot's last releases its answer reference. -/
def execAnswerAck (m : SluMsg) (s : State) : Host.Outcome State Fault Refusal :=
  .next (match m.body with
    | .ack p slot row =>
      s.sluTake m fun s =>
        let mine := fun (k : Kept) => match k.body with
          | .slu ⟨_, _, l, g, .answer q sl rw _ _ _ _⟩ => l == m.layer && g == m.gen && q == p && sl == slot && rw == row
          | _ => false
        ((s.dropKept mine).answersGone fun l g k a => l == m.layer && g == m.gen && k == slot && a == (row, m.house, m.room)).closeReturned.sluWake m.layer m.gen
    | _ => s)

/-! ## Retry (R281, R286, R308, R312) -/

/-- A kept message leaves again. -/
def State.sendAgain (s : State) (k : Kept) : State := s.sendUnit (.msg k.num) k.unit k.house k.room k.body

/-- The choices of a reservation or a count message are given up: still refused for an empty pool once SLU_COUNT_TIMEOUT has passed (R308). -/
def State.giveUp (s : State) (k : Kept) (x : Exch) : State :=
  let mine := fun (t : Try) => t.outcome = none && (match k.body with
    | .slu ⟨_, _, _, _, .reserve token rank _ _ _ _⟩ => t.token == token && t.rank == rank
    | .slu ⟨_, _, _, _, .counts step e n _ _ _ _⟩ => t.step == step && t.expert == e && t.inst == n
    | _ => false)
  ((x.tries.filter mine).foldl (fun s t => s.dropTry x.slot t 5 true) (s.dropKept fun m => m.num == k.num)).sluGo x.slot

/-- MESSAGE_RETRY (R281, R308, R312): message `n`, which has been refused for retry, is sent again; `empty` says that it was for an empty pool. -/
def execMessageRetry (n : Nat) (empty : Bool) (s : State) : Host.Outcome State Fault Refusal :=
  match s.kept.find? fun k => k.num == n with
  | none => .next s
  | some k =>
    if s.loop.contains k.body then .next s
    else
      match k.body, s.exch k.slot with
      | .slu ⟨_, _, _, _, .reserve _ _ _ _ _ _⟩, some x | .slu ⟨_, _, _, _, .counts _ _ _ _ _ _ _⟩, some x =>
        .next (if empty && decide (k.since + 1000 * s.fieldOf Reg.sluCountTimeout 13 0 ≤ s.now) then s.giveUp k x else s.sendAgain k)
      | .slu _, some _ => .next (s.sendAgain k)
      | .slu _, none => .next s
      | .col _, _ => .next (if (s.slot k.slot).stage = .started then s.sendAgain k else s)

end Sys2Proof.Machine
end

