-- ==== Sys2Proof/Machine/Collective.lean ====
section
/-! DEFINITION. The collective engine (16_collectives_and_sharding.md R412–R434): gathers with version stamps, the release of a gathered buffer,
reductions with their deadlines, Sumps, compression and error feedback. -/

namespace Sys2Proof.Machine

/-! ## The COLLECTIVE body (R456) -/

def Slot.cop (v : Slot) : Nat := bits (v.word 2) 2 0
def Slot.cKey (v : Slot) : Nat := bits (v.word 2) 31 16
def Slot.cPool (v : Slot) : Nat := bits (v.word 2) 11 5
def Slot.cVmode (v : Slot) : Nat := bits (v.word 2) 4 3

/-- The collective engine of a slot (R412): 0 to 3. -/
def Slot.cEngine (v : Slot) : Nat := v.ctx / 8 % 4

/-- The COLLECTIVE of slot `i` may start with an operation. -/
def State.cReady (s : State) (i : Nat) (p : Nat → Bool) : Bool := s.opReady i 6 && p (s.slot i).cop

/-- Its collective engine is disabled (R505). -/
def State.cOff (s : State) (i : Nat) : Bool := s.unitOff (72 + (s.slot i).cEngine)

/-- A COLLECTIVE ends. -/
def State.cEnd (s : State) (i st info : Nat) : State := s.endSlot i st (info % 65536)

/-- Order of the checks of R434: smaller first. -/
def colRank (st : Nat) : Nat :=
  if st = stInvalid then 0 else if st = stRemote then 1 else if st = stDenied then 2 else if st = stSkew then 3 else if st = stPoolEmpty then 4 else 5

/-- The first failing check of a COLLECTIVE. -/
def firstCol (l : List (Option Nat)) : Option Nat :=
  (l.filterMap id).foldl (fun o x => match o with
    | none => some x
    | some y => if colRank x < colRank y then some x else some y) none

/-! ## GATHER and RELEASE (R414–R417) -/

/-- What keeps a GATHER from reading a shard: another house's is not refused under R404. -/
def State.shardBad (s : State) (a n : Nat) : Option Nat :=
  if aHouse a = s.house || isHost a then s.readBad false a n else if s.outAdmits a n .read then none else some stDenied

/-- The destination of a GATHER at the address of a buffer, its scale plane after its elements (R417). -/
def Tensor.placed (t : Tensor) (a : Nat) : Tensor :=
  let n := match ({ t with shards := t.shards.map fun sh => { sh with loc := 0, scaleLoc := 0 } } : Tensor).extents with
    | e :: _ => e.2
    | [] => 0
  { t with shards := t.shards.map fun sh => { sh with loc := a, scaleLoc := a + n } }

/-- Bytes a destination takes from its address on. -/
def Tensor.span (t : Tensor) (a : Nat) : Nat := ((t.extents.map fun e => e.1 + e.2).foldl max a) - a

/-- Fields of a GATHER that are not valid whatever its tensors (R412, R413). -/
def Slot.gatherFieldBad (v : Slot) : Bool := v.cKey = 0 || v.word 3 = 0 || v.cVmode = 3 || decide (64 < v.cPool)

/-- R413, R414, R417: a GATHER of these tensors is not valid. -/
def Slot.gatherBad (v : Slot) (a b : TDesc) : Bool :=
  !a.owned || b.owned || a.ty != b.ty || a.block != b.block || a.size != b.size || a.rank != b.rank || (decide (v.cPool < 64) && b.base != 0)

/-- The checks of a GATHER that come before its stamps (R391, R413, R414, R417), on what could be read of its tensors. -/
def State.gatherChecks (s : State) (v : Slot) (a b : Except Nat Tensor) : Option Nat :=
  firstCol
    ([if v.gatherFieldBad then some stInvalid else none, tensorErr a, tensorErr b,
      match v.fieldsOf (v.word 4), v.fieldsOf (v.word 5) with
      | some a, some b => if v.gatherBad a b then some stInvalid else none
      | _, _ => none,
      match b with
      | .ok b =>
        if v.cPool < 64 then (if s.fieldOf (Reg.panCfg v.cPool) 15 0 * 4096 < (b.placed 0).span 0 then some stInvalid else none)
        else if b.extents.any fun e => !s.isLocal e.1 then some stInvalid
        else s.tensorWriteBad false b
      | .error _ => none,
      if v.cPool < 64 then s.writeBad false (v.word 6) 16 else none,
      if v.cVmode = 1 then s.writeBad true (v.word 4 + 0x20) 8 else none] ++
     (match a with
      | .ok a => a.extents.map fun e => s.shardBad e.1 e.2
      | .error _ => []))

/-- The ranges of another house among these. -/
def State.foreign (s : State) (l : List (Nat × Nat)) : List (Nat × Nat) := l.filter fun r => r.2 != 0 && !isHost r.1 && aHouse r.1 != s.house

/-- A GATHER asks for its shards (R414): those in other rooms of the house by LOADs, those in other houses of the engines that own them, by messages
whose form is not given. `at_` is the address of the buffer it has allocated. -/
def State.gatherStart (s : State) (i at_ : Nat) (a : Tensor) : State :=
  let v := s.slot i
  let l := a.readRuns (allIdx a.d.size)
  let far := s.foreign l
  let s := (s.setSlot i { v with stage := .started, step := 1, asks := v.asks ++ far, idx := [at_], addrs := [] }).loadAll i l
  far.foldl (fun s r => s.sendUnit (.unit (72 + v.cEngine)) (5 + v.cEngine) (aHouse r.1) (aRoom r.1)
    (.col ⟨s.house, s.room, v.cKey, v.word 3, 0, .ask r.1 r.2⟩)) s

/-- Every byte of another house has come, or its room has been found dead (R415). -/
def State.gatherHas (s : State) (v : Slot) (a : Tensor) : Bool :=
  (s.foreign (a.readRuns (allIdx a.d.size))).all fun r =>
    v.addrs.contains (mkAddr (aHouse r.1) (aRoom r.1) 0) || (List.range r.2).all fun j => v.got.any fun c => c.1 == r.1 + j

/-- The copy of a GATHER, bit for bit (R414, R415). -/
def State.gatherCopy (s : State) (i : Nat) (a b : Tensor) : State :=
  let v := s.slot i
  let ixs := allIdx b.d.size
  let codes := ixs.map fun ix => (ix, s.tcode v a ix)
  let scales := if b.d.block.scaled then b.blocks.map fun l => (l.headD [], s.tscale v a (l.headD [])) else []
  let t := ((s.noteElems 5 a ixs).putRuns i 5 (b.runs codes)).putRuns i 5 (b.scaleRuns scales)
  t.setSlot i { t.slot i with step := 2, dead := (t.slot i).dead || s.elemsDead v a ixs }

/-- A started GATHER goes on: its shards come, it copies them, and once its writes are over it records its stamp and ends (R416). -/
def State.gatherGo (s : State) (i : Nat) : State :=
  let v := s.slot i
  match v.tensorOf false (v.word 4), v.tensorOf true (v.word 5) with
  | .ok a, .ok b =>
    let s := if v.step = 1 && !s.slotBusy i && !v.refused && s.gatherHas v a then
        s.gatherCopy i a (if v.cPool < 64 then b.placed (v.idx.headD 0) else b)
      else s
    let u := s.slot i
    if s.slotBusy i then s
    else if u.refused then s.cEnd i stDenied 0
    else if u.step = 1 then s
    else if u.dead then s.cEnd i stDead 0
    else
      (if v.cVmode = 1 then s.descWrite i 5 (v.word 4 + 0x20) (leBytes 8 ((a.shards.map Shard.version).foldl max 0)) else s).cEnd i stOk 0
  | _, _ => s

/-- COLLECTIVE_GATHER (R414–R417): the GATHER in slot `i`, or a COLLECTIVE of a reserved operation, goes on: its descriptors are read, its checks made,
its shards copied. -/
def execCollectiveGather (i : Nat) (s : State) : Host.Outcome State Fault Refusal :=
  if (s.slot i).opcode == 6 && (s.slot i).cop == 0 && (s.slot i).stage = .started then .next (s.gatherGo i)
  else if !s.cReady i (fun p => p == 0 || decide (2 < p)) then .next s
  else if s.cOff i then .next (s.cEnd i stCancelled 0)
  else if 2 < (s.slot i).cop then .next (s.cEnd i stInvalid 0)
  else
    match s.fetchTensors i [(s.slot i).word 4, (s.slot i).word 5] with
    | (s, false) => .next s
    | (s, true) =>
      let v := s.slot i
      let a := s.readTensor v false (v.word 4)
      let b := s.readTensor v true (v.word 5)
      if v.refused then .next (s.cEnd i stDenied 0)
      else
        match s.gatherChecks v a b, a with
        | none, .ok a =>
          let stamp := (a.shards.map Shard.version).foldl max 0
          if v.cVmode = 2 && a.d.version != 0 && a.d.version != stamp then .next ((s.incReg Reg.colSkews 1).cEnd i stSkew 0)
          else if 64 ≤ v.cPool then .next ((s.gatherStart i 0 a).gatherGo i)
          else
            match s.alloc v.cPool 1 with
            | some (t, k :: _) =>
              let at_ := t.localAddr (t.bufOff v.cPool k)
              .next (((t.descWrite i 5 (v.word 6) (leBytes 8 (handleOf v.cPool k) ++ leBytes 8 at_)).gatherStart i at_ a).gatherGo i)
            | _ => .next ((s.incReg (Reg.panFails v.cPool) 1).parkOr i v.cPool)
        | st, _ => .next (s.cEnd i (st.getD stInvalid) 0)

/-- COLLECTIVE_RELEASE (R412, R413, R417): the handle at `list_addr` loses a reference, as by UNREF. -/
def execCollectiveRelease (i : Nat) (s : State) : Host.Outcome State Fault Refusal :=
  if !s.cReady i (· == 2) then .next s
  else if s.cOff i then .next (s.cEnd i stCancelled 0)
  else
    match firstCol [if 64 < (s.slot i).cPool then some stInvalid else none, s.readBad false ((s.slot i).word 6) 16] with
    | some st => .next (s.cEnd i st 0)
    | none =>
      match s.fetchTabs i [((s.slot i).word 6, 16)] with
      | (s, false) => .next s
      | (s, true) =>
        let v := s.slot i
        match v.tab (v.word 6) 16 with
        | some bs =>
          let (t, ok) := s.dropRef (field bs 0 4)
          .next (t.cEnd i (if ok then stOk else stPartial) 0)
        | .none => .next (s.cEnd i (if v.refused then stDenied else stDead) 0)

/-! ## Shard areas (R422, R429) -/

/-- Elements of a shard; bytes of a mask over them; of the member bytes; of the whole area. -/
def Tensor.shardElems (t : Tensor) (sh : Shard) : Nat := sizeOf_ (t.shardSize sh)
def maskBytes (n cols : Nat) : Nat := cdiv (cdiv (cdiv n (16 * cols)) 8) 64 * 64
def memberBytes (n : Nat) : Nat := cdiv n 64 * 64
def areaSize (n members cols comp : Nat) : Nat := 64 + memberBytes members + 2 * maskBytes n cols + 4 * n + (if comp = 0 then 0 else 4 * n)

/-- The shard with entry `i`. -/
def Red.shardAt (x : Red) (i : Nat) : Shard := x.dst.shards.getD i ⟨0, 0, 0, 0, 0, 0⟩
def Red.elems (x : Red) (i : Nat) : Nat := x.dst.shardElems (x.shardAt i)

/-- Local offsets within the area of shard `i`: member byte `m`, present-mask, Sump mask, Sump value and error-feedback value of element `e`. -/
def Red.areaOf (x : Red) (i : Nat) : Nat := x.area + i * x.stride
def Red.memberAt (x : Red) (i m : Nat) : Nat := x.areaOf i + 64 + m
def Red.maskAt (x : Red) (i : Nat) : Nat := x.areaOf i + 64 + memberBytes x.members.length
def Red.sumpMaskAt (x : Red) (i : Nat) : Nat := x.maskAt i + maskBytes (x.elems i) x.maskCols
def Red.sumpAt (x : Red) (i e : Nat) : Nat := x.sumpMaskAt i + maskBytes (x.elems i) x.maskCols + 4 * e
def Red.efAt (x : Red) (i e : Nat) : Nat := x.sumpAt i (x.elems i) + 4 * e

/-- A field of an area's header is written. -/
def State.putHead (s : State) (x : Red) (i o n v : Nat) : State := s.memWrite 5 (x.areaOf i + o) (leBytes n v)
def State.headOf (s : State) (x : Red) (i o n : Nat) : Nat := s.memNat (x.areaOf i + o) n

/-- The band of an element (R270, R422). -/
def Red.band (x : Red) (e : Nat) : Nat := e / (16 * x.maskCols)

/-- Bits of a mask at local offset `o` are set. -/
def State.setBands (s : State) (o : Nat) (l : List Nat) : State :=
  l.eraseDups.foldl (fun s b => s.memWrite 5 (o + b / 8) (leBytes 1 (Nat.lor (s.memNat (o + b / 8) 1) (2 ^ (b % 8))))) s

/-- A mask of bands. -/
def maskOf (n : Nat) (l : List Nat) : List Byte :=
  (List.range n).map fun k => BitVec.ofNat 8 (((List.range 8).filter fun j => l.contains (8 * k + j)).map (2 ^ ·)).sum

/-- The REDUCE executes. -/
def State.redLive (s : State) (x : Red) : Bool := (s.slot x.slot).stage = .started

/-- The collective engine reads a range of a shard area for a REDUCE: an error leaves it, while it executes, with a dead target (R352). -/
def State.areaRead (s : State) (x : Red) (o n : Nat) : State :=
  let t := s.readNotes 5 o n
  if s.rangeBad o n && s.redLive x then t.setSlot x.slot { t.slot x.slot with dead := true } else t

/-- FP32 codes are added into words of memory by Larder ADD atomics, those of one line together (R348, R426); an error there is a dead target. -/
def State.addWords (s : State) (x : Red) (l : List (Nat × Nat)) : State :=
  (joinRuns (l.map fun e => (e.1, leBytes 4 e.2))).foldl
    (fun s r => (lineParts r.1 r.2.length).foldl
      (fun s p =>
        let bs := (r.2.drop (p.1 - r.1)).take p.2
        let (t, e) := s.eatomic 5 .fp32 .fp32 0 0 p.1 ((List.range (p.2 / 4)).map fun j => leNat ((bs.drop (4 * j)).take 4))
        if e && t.redLive x then t.setSlot x.slot { t.slot x.slot with dead := true } else t) s) s

/-! ## Members, receivers, contributions (R418–R421) -/

/-- The rooms of a house among the members, in room order. -/
def roomsIn (l : List (Nat × Nat)) (h : Nat) : List Nat := (List.range 32).filter fun r => l.contains (h, r)

/-- The house and room of a shard's owner. -/
def ownerOf (sh : Shard) : Nat × Nat := (aHouse sh.loc, aRoom sh.loc)

/-- The relay of house `h` for the shard with entry `i`; the receiver of a house's contributions (R420). -/
def relayOf (l : List (Nat × Nat)) (h i : Nat) : Nat × Nat := (h, (roomsIn l h).getD (i % (roomsIn l h).length) 0)
def receiverOf (l : List (Nat × Nat)) (sh : Shard) (i h : Nat) : Nat × Nat := if h = aHouse sh.loc then ownerOf sh else relayOf l h i

/-- Houses that hold members, in increasing order. -/
def housesOf (l : List (Nat × Nat)) : List Nat := (((l.map Prod.fst).eraseDups).map fun h => (h, 1)).foldr strideIn [] |>.map Prod.fst

/-- The contributions a receiver expects, in the order of R421. -/
def State.expected (s : State) (l : List (Nat × Nat)) (sh : Shard) (i : Nat) : List Contrib :=
  ((roomsIn l s.house).map fun r => Contrib.mk s.house r false none [] [] [] 0) ++
  (if ownerOf sh = (s.house, s.room) then ((housesOf l).filter (· != s.house)).map fun h =>
      Contrib.mk h (relayOf l h i).2 true none [] [] [] 0
    else [])

/-- The index in the whole tensor of element `e` of a shard. -/
def Tensor.shardIdx (t : Tensor) (sh : Shard) (e : Nat) : List Nat :=
  let ix := idxAt (t.shardSize sh) e
  ix.set t.split (ix.getD t.split 0 + sh.first)

/-- The local offset of an element of the source; under `src_pair` offsets count pairs of 8 bytes (R418). -/
def srcOff (a : Tensor) (pair : Bool) (ix : List Nat) : Nat :=
  if pair then aOff a.d.base + 8 * (ix.zipWith (· * ·) a.d.stride).sum else aOff (a.elemAt ix).1

/-- An element of the source is present (R419, R232). -/
def State.srcPresent (s : State) (mask : Bool) (o : Nat) : Bool :=
  !mask || (match regionOf o with
    | some (.cistern k) => s.flag (Reg.cisTouched k ((o - cisternBase k) / 0x10000 / 64)) ((o - cisternBase k) / 0x10000 % 64)
    | _ => false)

/-- Its FP32 code. -/
def State.srcCode (s : State) (pair : Bool) (o : Nat) : Nat :=
  if pair then fl (pairVal (s.memNat o 4, s.memNat (o + 4) 4)) else s.memNat o 4

/-- Number of chunks of a shard; elements of one. -/
def chunksOf (n : Nat) : Nat := cdiv n 4096
def chunkLen (n c : Nat) : Nat := min 4096 (n - 4096 * c)

/-- The present chunks of this room's contribution to a shard. -/
def State.srcChunks (s : State) (a : Tensor) (pair mask : Bool) (t : Tensor) (sh : Shard) : List Chunk :=
  let n := t.shardElems sh
  (List.range (chunksOf n)).filterMap fun c =>
    let es := (List.range (chunkLen n c)).filterMap fun e =>
      let o := srcOff a pair (t.shardIdx sh (4096 * c + e))
      if s.srcPresent mask o then some (e, s.srcCode pair o) else none
    if es.isEmpty then none else some ⟨c, .full es⟩

/-- What a chunk's elements stand for, by linear index in the shard (R431). -/
def standsFor (n : Nat) (c : Chunk) : List (Nat × Nat) :=
  let len := chunkLen n c.index
  let at_ := fun (l : List (Nat × Nat)) => l.map fun e => (4096 * c.index + e.1, e.2)
  match c.data with
  | .full es => at_ es
  | .topk es => at_ ((List.range len).map fun e => (e, (((es.find? fun x => x.1 == e).map Prod.snd).getD 0) * 65536))
  | .sign a bs => at_ ((List.range len).map fun e => (e, if bit (bs.getD (e / 8) 0).toNat (e % 8) then Nat.xor a 0x80000000 else a))

/-- A message about a shard of a REDUCE. -/
def State.colBody (s : State) (x : Red) (i : Nat) (b : ColBody) : UnitBody := .col ⟨s.house, s.room, x.key, x.step, i, b⟩

/-- The fabric unit of a REDUCE's collective engine (R362). -/
def State.colUnit (s : State) (x : Red) : Nat := 5 + (s.slot x.slot).cEngine

/-- A contribution leaves, chunk by chunk (R419); one without present chunks says so. -/
def State.sendChunks (s : State) (x : Red) (i : Nat) (to_ : Nat × Nat) (relay : Bool) (absent : List (Nat × Nat)) (l : List Chunk) : State :=
  let send := fun (s : State) (c : Option Chunk) => s.sendKept (s.colUnit x) x.slot to_.1 to_.2 (s.colBody x i (.chunk relay l.length absent c))
  if l.isEmpty then send s none else l.foldl (fun s c => send s (some c)) s

/-! ## REDUCEs held -/

def State.setRed (s : State) (x : Red) : State := { s with reds := s.reds.map fun y => if y.slot = x.slot then x else y }
def State.redOf (s : State) (i : Nat) : Option Red := s.reds.find? fun x => x.slot == i
def Red.setRecv (x : Red) (r : Recv) : Red := { x with recvs := x.recvs.map fun y => if y.shard = r.shard then r else y }

/-- The contributions it expects are changed, each alike. -/
def Red.mapParts (x : Red) (f : Contrib → Contrib) : Red := { x with recvs := x.recvs.map fun r => { r with parts := r.parts.map f } }

/-- Its receivers are forgotten, once a later REDUCE of its key starts (R427). -/
def Red.shut (x : Red) (key : Nat) : Red := if x.key = key then { x with recvs := [] } else x

/-- Buffers of staged chunks are released (R423). -/
def State.freeBufs (s : State) (l : List Nat) : State := l.foldl (fun s h => (s.dropRef h).1) s

/-! ## The Sump (R425, R426) -/

/-- The Sump of a shard's area is empty. -/
def State.sumpClear (s : State) (x : Red) (i : Nat) : State :=
  let s := s.putHead x i 2 2 (setBits (s.headOf x i 2 2) 1 1 0)
  let s := s.memWrite 5 (x.sumpMaskAt i) (leBytes (maskBytes (x.elems i) x.maskCols) 0)
  let s := s.memWrite 5 (x.sumpAt i 0) (leBytes (4 * x.elems i) 0)
  { s with sumpFrom := Tbl.set [] s.sumpFrom (x.areaOf i) [] }

/-- A late contribution, whole, is added to the Sump when that is empty or of its step; the Bool says that it was. -/
def State.sumpAdd (s : State) (x : Red) (i : Nat) (from_ : Nat × Nat) (cs : List Chunk) : State × Bool :=
  let s := s.areaRead x (x.areaOf i) 64
  let valid := bit (s.headOf x i 2 2) 1
  if valid && s.headOf x i 0x10 8 != x.step then (s, false)
  else
    let es := cs.flatMap (standsFor (x.elems i))
    let s := s.addWords x (es.map fun e => (x.sumpAt i e.1, e.2))
    let s := s.setBands (x.sumpMaskAt i) (es.map fun e => x.band e.1)
    let s := ((s.putHead x i 2 2 (setBits (s.headOf x i 2 2) 1 1 1)).putHead x i 0x10 8 x.step).putHead x i 0x28 4 (s.headOf x i 0x28 4 + 1)
    let old := Tbl.get [] s.sumpFrom (x.areaOf i)
    ({ s.incReg Reg.colLateCarried 1 with
      sumpFrom := Tbl.set [] s.sumpFrom (x.areaOf i) (if old.contains from_ then old else old ++ [from_]) }, true)

/-- A late contribution is discarded (R425, R429). -/
def State.lateDrop (s : State) (x : Red) (i : Nat) : State := (s.incReg Reg.colLateDropped 1).putHead x i 0x2C 4 (s.headOf x i 0x2C 4 + 1)

/-- The reply to a contribution (R427). -/
def State.colReply (s : State) (m : Sys2Proof.ColMsg) (relay : Bool) (r : Nat) : State :=
  s.sendUnit (.unit 72) 5 m.house m.room (.col ⟨s.house, s.room, m.key, m.step, m.shard, .reply relay r⟩)

/-- A chunk of a contribution that comes after its class has closed (R425): the contribution is dealt with once it is whole.
A dead room adds nothing to the Sump (R428). -/
def State.lateChunk (s : State) (x : Red) (m : Sys2Proof.ColMsg) (relay dead : Bool) (total : Nat) : State :=
  let same := fun (q : Sys2Proof.ColMsg) => q.house == m.house && q.room == m.room && q.key == m.key && q.step == m.step && q.shard == m.shard
  let s := { s with lateParts := s.lateParts ++ [m] }
  let mine := s.lateParts.filter same
  if mine.length < total then s
  else
    let s := { s with lateParts := s.lateParts.filter fun q => !same q }
    let cs := mine.filterMap fun q => match q.body with | .chunk _ _ _ c => c | _ => none
    let (s, ok) := if x.policy = 1 && !dead then s.sumpAdd x m.shard (m.house, m.room) cs else (s, false)
    if ok then s.colReply m relay 1 else (s.lateDrop x m.shard).colReply m relay 2

/-- At the start of a REDUCE at a receiver (R426, R429): an area that is not its key's is made so, and the Sump's carry is taken or emptied. -/
def State.openArea (s : State) (x : Red) (i : Nat) : State × List (Nat × Nat) × List (Nat × Nat) :=
  let n := x.elems i
  let s := s.areaRead x (x.areaOf i) 64
  if !bit (s.headOf x i 2 2) 0 || s.headOf x i 0 2 != x.key then
    let s := s.memWrite 5 (x.areaOf i) (leBytes (areaSize n x.members.length x.maskCols x.comp) 0)
    ({ ((s.putHead x i 0 2 x.key).putHead x i 2 2 1) with sumpFrom := Tbl.set [] s.sumpFrom (x.areaOf i) [] }, [], [])
  else if !bit (s.headOf x i 2 2) 1 then (s, [], [])
  else if s.headOf x i 0x10 8 + 1 = x.step then
    let s := (s.areaRead x (x.sumpMaskAt i) (maskBytes n x.maskCols)).areaRead x (x.sumpAt i 0) (4 * n)
    let carry := (List.range n).filterMap fun e =>
      if bit (s.memNat (x.sumpMaskAt i + x.band e / 8) 1) (x.band e % 8) then some (e, s.memNat (x.sumpAt i e) 4) else none
    (s.sumpClear x i, carry, Tbl.get [] s.sumpFrom (x.areaOf i))
  else if s.headOf x i 0x10 8 < x.step then ((s.sumpClear x i).incReg Reg.colSumpDiscarded 1, [], [])
  else (s, [], [])

/-! ## Closes (R421, R422, R430–R432) -/

/-- A member's status and late run at a close (R430): the record of a run that reaches 16. -/
def State.closeMember (s : State) (x : Red) (i : Nat) (m : Nat × Nat) (status : Nat) (counts carried : Bool) : State :=
  match x.members.findIdx? (· == m) with
  | none => s
  | some k =>
    let s := s.areaRead x (x.memberAt i k) 1
    let run := bits (s.memNat (x.memberAt i k) 1) 5 0
    let late := status == 0 || status == 2
    let run' := if !counts then run else if late then min (run + 1) 63 else 0
    let s := s.memWrite 5 (x.memberAt i k) (leBytes 1 ((if carried then 3 else status) * 64 + run'))
    if counts && run' = 16 && run = 15 then
      (s.incReg Reg.colChronic 1).raise 0x24 x.key 5 (s.slot x.slot).cEngine (m.1 + m.2 * 2 ^ 16) x.step
    else s

/-- What a receiver's parts come to at its close: every member concerned with its status (0 missing, 1 on time, 2 dead) and whether its own run
counts (R430). -/
def Red.closing (x : Red) (r : Recv) : List ((Nat × Nat) × Nat × Bool) :=
  let code := fun (st : Nat) => if st = 1 then 1 else if st = 3 then 2 else 0
  (r.parts.map fun p => ((p.house, p.room), code p.status, true)) ++
  r.parts.flatMap fun p =>
    if !p.relay then []
    else
      ((roomsIn x.members p.house).filter (· != p.room)).map fun q =>
        ((p.house, q), if p.status = 1 then (if p.absent.contains (p.house, q) then 0 else 1) else 0, false)

/-- The close of a receiver: member bytes, header, counters. -/
def State.closeRecv (s : State) (x : Red) (r : Recv) : State :=
  let l := x.closing r
  let cnt := fun (st : Nat) => (l.filter fun m => m.2.1 == st).length
  let s := l.foldl (fun s m => s.closeMember x r.shard m.1 m.2.1 m.2.2 (r.carried.contains m.1)) s
  let s := (r.carried.filter fun c => l.all fun m => m.1 != c).foldl (fun s c => s.closeMember x r.shard c 1 false true) s
  let s := (((s.putHead x r.shard 8 8 x.step).putHead x r.shard 0x18 4 (cnt 1)).putHead x r.shard 0x1C 4 (cnt 0)).putHead x r.shard 0x20 4 (cnt 2)
  let s := ((s.putHead x r.shard 0x24 4 r.carried.length).putHead x r.shard 0x28 4 0).putHead x r.shard 0x2C 4 0
  ((s.incReg Reg.colOnTime (r.parts.filter fun p => p.status == 1).length).incReg Reg.colMissing (cnt 0)).incReg Reg.colDead (cnt 2)

/-- The sum of what contributes to an element, in the order of R421, and whether anything does. -/
def sumAt (ls : List (List (Nat × Nat))) (e : Nat) : Option Nat :=
  let vs := ls.filterMap fun l => (l.find? fun x => x.1 == e).map Prod.snd
  if vs.isEmpty then none else some (fl (vs.foldl (fun a v => flv (a.add (v32 v))) (FVal.zero false)))

/-- The contributions of a receiver that are present, by linear index in the shard. -/
def Red.present (x : Red) (r : Recv) : List (List (Nat × Nat)) :=
  r.carry :: (r.parts.filter fun p => p.status == 1).map fun p => p.chunks.flatMap (standsFor (x.elems r.shard))

/-- The owner's result (R421, R422): rounded once, written where something was present, with the present-mask. -/
def State.ownerWrite (s : State) (x : Red) (r : Recv) : State :=
  let sh := x.shardAt r.shard
  let n := x.elems r.shard
  let es := (List.range n).filterMap fun e => (sumAt (x.present r) e).map fun c => (e, x.dst.d.ty.conv .rne true 0 ((FVal.zero false).add (v32 c)))
  let s := if es.isEmpty then s else s.countConv x.dst.d.ty (es.map fun e => e.2)
  let s := s.putRuns x.slot 5 (x.dst.runs (es.map fun e => (x.dst.shardIdx sh e.1, e.2.1)))
  s.memWrite 5 (x.maskAt r.shard) (maskOf (maskBytes n x.maskCols) (es.map fun e => x.band e.1).eraseDups)

/-- The elements of a chunk that TOPK keeps (R431): by magnitude, the lower index of equals, in index order. -/
def topElems (k : Nat) (l : List (Nat × Nat)) : List (Nat × Nat) :=
  let mag := fun (e : Nat × Nat) => bits e.2 30 0
  l.filter fun e => decide ((l.filter fun f => decide (mag e < mag f) || (mag f == mag e && decide (f.1 < e.1))).length < k)

/-- A chunk of a relay's result compressed (R431): `y` holds its elements' FP32 codes, error feedback added. -/
def Red.compress (x : Red) (r : Recv) (c : Nat) (y : List (Nat × Nat)) : Chunk :=
  match x.comp with
  | 1 =>
    let sr : SrIn := ⟨x.seed, x.salt, x.stream, 0⟩
    let pos := fun (e : Nat) => linAt x.dst.d.size (x.dst.shardIdx (x.shardAt r.shard) (4096 * c + e))
    ⟨c, .topk ((topElems x.topk y).map fun e =>
      (e.1, (EType.conv .bf16 (if x.rnd = 2 then .sr else .rne) true (if x.rnd = 2 then sr.at (pos e.1) else 0) (v32 e.2)).1))⟩
  | 2 =>
    let sum := flv (Prec.core.csum (y.map fun e => (v32 e.2).abs))
    ⟨c, .sign (fl (sum.divN 4096)) (maskOf 512 ((y.filter fun e => bit e.2 31).map Prod.fst))⟩
  | _ => ⟨c, .full y⟩

/-- A relay sends its house's result to the owner, and what it does not stand for stays in error feedback (R420, R431, R432). -/
def State.relaySend (s : State) (x : Red) (r : Recv) : State :=
  let n := x.elems r.shard
  let ls := x.present r
  let owner := ownerOf (x.shardAt r.shard)
  let sums := (List.range n).map fun e => (e, sumAt ls e)
  let used := (List.range (chunksOf n)).filter fun c => sums.any fun e => e.1 / 4096 == c && e.2.isSome
  let s := if x.comp = 0 then s else used.foldl (fun s c => s.areaRead x (x.efAt r.shard (4096 * c)) (4 * chunkLen n c)) s
  let ys := used.map fun c =>
    let es := sums.filter fun e => e.1 / 4096 == c
    if x.comp = 0 then (c, es.filterMap fun e => e.2.map fun v => (e.1 % 4096, v))
    else (c, es.map fun e => (e.1 % 4096, fl ((v32 (e.2.getD 0)).add (v32 (s.memNat (x.efAt r.shard e.1) 4)))))
  let cs := ys.map fun y => x.compress r y.1 y.2
  let stands := if x.comp = 0 then [] else cs.flatMap (standsFor n)
  let s := if x.comp = 0 then s
    else
      let err := (ys.flatMap fun y => y.2.map fun e => (4096 * y.1 + e.1, e.2)).map fun e =>
        (e.1, fl ((v32 e.2).sub (v32 (((stands.find? fun z => z.1 == e.1).map Prod.snd).getD 0))))
      (joinRuns (err.map fun e => (x.efAt r.shard e.1, leBytes 4 e.2))).foldl (fun s w => s.memWrite 5 w.1 w.2)
        (s.incReg Reg.colDoorBytes (cs.map fun c => match c.data with
          | .topk es => 4 * es.length
          | .sign _ bs => 4 + bs.length
          | .full _ => 0).sum)
  let absent := (r.parts.filter fun p => p.status != 1).map fun p => (p.house, p.room)
  let s := s.setRed { x with sends := x.sends ++ [Sent.mk r.shard owner.1 owner.2 true none stands] }
  s.sendChunks x r.shard owner true absent cs

/-- Contributions of earlier steps of the key that went through doors have no reply yet (R432). -/
def State.efPending (s : State) (x : Red) : Bool :=
  s.reds.any fun y => y.key == x.key && decide (y.step < x.step) && y.sends.any fun z => z.relay && z.reply.isNone

/-- A receiver that waits for nothing closes: its sum, its bytes, its buffers (R421–R424). -/
def State.formRecv (s : State) (i : Nat) (shard : Nat) : State :=
  match s.redOf i with
  | none => s
  | some x =>
    match x.recvs.find? fun r => r.shard == shard with
    | none => s
    | some r =>
      if r.excess || r.parts.any (fun p => p.status == 0) || (!r.owner && x.comp != 0 && s.efPending x) then s
      else
        let s := if r.owner then s.ownerWrite x r else s.relaySend x r
        match s.redOf i with
        | none => s
        | some x =>
          let s := s.closeRecv x r
          let s := s.freeBufs (r.parts.flatMap Contrib.bufs)
          s.setRed (x.setRecv { r with excess := true, parts := r.parts.map fun p => { p with bufs := [] } })

/-- A dropped compressed contribution returns to error feedback (R432). -/
def State.efReturn (s : State) (x : Red) (t : Sent) : State :=
  if t.stands.isEmpty then s
  else
    let s := (joinRuns (t.stands.map fun e => (x.efAt t.shard e.1, leBytes 4 0))).foldl (fun s w => s.areaRead x w.1 w.2.length) s
    ((t.stands.map fun e => (x.efAt t.shard e.1, leBytes 4 (fl ((v32 (s.memNat (x.efAt t.shard e.1) 4)).add (v32 e.2))))).foldl
      (fun s w => s.memWrite 5 w.1 w.2) s).incReg Reg.colEfReturns 1

/-- A sent contribution is resolved. -/
def State.resolve (s : State) (x : Red) (t : Sent) (r : Nat) : State :=
  let s := if t.relay && (r == 2 || r == 3) then s.efReturn x t else s
  let s := s.dropKept fun k => k.slot == x.slot && k.house == t.house && k.room == t.room && (match k.body with
    | .col ⟨_, _, _, _, sh, .chunk rl _ _ _⟩ => sh == t.shard && rl == t.relay
    | _ => false)
  match s.redOf x.slot with
  | none => s
  | some x => s.setRed { x with sends := x.sends.map fun y => if y.shard = t.shard ∧ y.relay = t.relay then { y with reply := some r } else y }

/-- The end of a REDUCE in this room (R427, R434). -/
def State.reduceEnd (s : State) (x : Red) : State :=
  let parts := x.recvs.flatMap fun r => (x.closing r)
  let missing := (parts.filter fun m => m.2.1 == 0).length
  let dead := (parts.filter fun m => m.2.1 == 2).length
  let late := (x.sends.filter fun t => t.reply = some 1 || t.reply = some 2).length
  let gone := (x.sends.filter fun t => t.reply = some 3).length
  let st := if x.refused then stDenied else if 0 < dead + gone || (s.slot x.slot).dead then stDead else if 0 < missing + late then stPartial else stOk
  ({ s with kept := s.kept.filter fun k => k.slot != x.slot }).cEnd x.slot st (if st = stDead || st = stPartial then missing + dead + late else 0)

/-- A REDUCE goes on: members and receivers found dead, receivers that may close, its end. -/
def State.colGo (s : State) (i : Nat) : State :=
  match s.redOf i with
  | none => s
  | some x =>
    if !s.redLive x then s
    else
      let isDead := fun (p : Nat × Nat) => x.dead.contains p || (p.1 == s.house && p.2 != s.room && s.roomDead p.2)
      let s := (x.sends.filter fun t => t.reply.isNone && isDead (t.house, t.room)).foldl (fun s t => s.resolve x t 3) s
      let s := match s.redOf i with
        | none => s
        | some x => s.setRed (x.mapParts fun p =>
            if p.status == 0 && x.policy == 0 && x.probed.contains (p.house, p.room) && isDead (p.house, p.room) then { p with status := 3 } else p)
      let s := (x.recvs.map Recv.shard).foldl (fun s k => s.formRecv i k) s
      match s.redOf i with
      | none => s
      | some x => if x.recvs.all (fun r => r.excess) && x.sends.all (fun t => t.reply.isSome) then s.reduceEnd x else s

/-! ## REDUCE (R412, R413, R418–R420) -/

/-- The REDUCE parameter block (R456): its words; none when a reserved bit is set. -/
def parseRparm (ws : List Nat) : Option (List Nat) :=
  let w := fun (i : Nat) => ws.getD i 0
  if bits (w 2) 63 41 != 0 || bits (w 3) 63 48 != 0 || bits (w 4) 63 38 != 0 || bits (w 5) 63 48 != 0 || w 7 != 0 then none else some ws

/-- Field values of the block that R412 and R413 do not allow. -/
def State.rparmBad (s : State) (ws : List Nat) : Bool :=
  let w := fun (i : Nat) => ws.getD i 0
  let comp := bits (w 4) 18 17
  decide (2 < comp) || decide (2 < bits (w 4) 16 15) || (bits (w 4) 20 19 != 0 && bits (w 4) 20 19 != 2) || bits (w 5) 15 0 == 0 ||
  decide (bits (w 5) 31 16 < bits (w 5) 15 0) || (comp == 1 && (bits (w 4) 31 21 == 0 || decide (1024 < bits (w 4) 31 21))) || bits (w 6) 63 32 == 0 ||
  (bit (w 4) 13 && !bit (w 4) 14) || decide (s.fieldOf (Reg.panCfg (bits (w 4) 37 32)) 15 0 < 4)

/-- The tensors of a REDUCE are not valid (R418, R419). -/
def State.reduceBad (s : State) (a b : Tensor) (members : List (Nat × Nat)) (mask : Bool) : Bool :=
  a.d.ty != .fp32 || a.d.block != .none || a.d.owned || a.d.size != b.d.size || a.d.rank != b.d.rank || !b.d.owned || b.d.block != .none ||
  !(b.d.ty = .fp32 || b.d.ty = .bf16) || (a.extents.any fun e => !s.isLocal e.1) || (b.shards.any fun sh => !members.contains (ownerOf sh)) ||
  (mask && a.extents.any fun e => !(match regionOf (aOff e.1) with | some (.cistern _) => true | _ => false))

/-- The REDUCE of slot `i` as its fields name it. -/
def Slot.newRed (v : Slot) (i : Nat) (ws : List Nat) (members : List (Nat × Nat)) (b : Tensor) : Red :=
  let w := fun (k : Nat) => ws.getD k 0
  { slot := i, key := v.cKey, step := v.word 3, policy := bits (w 4) 16 15, comp := bits (w 4) 18 17, rnd := bits (w 4) 20 19, topk := bits (w 4) 31 21,
    seed := w 1, salt := bits (w 6) 31 0, stream := bits (w 5) 47 32, maskCols := bits (w 6) 63 32, pool := bits (w 4) 37 32, area := bits (w 2) 40 0,
    stride := bits (w 3) 47 0, members := members, dst := b, sends := [], recvs := [], direct := false, doors := false, probed := [], dead := [],
    refused := false }

/-- A REDUCE executes (R419, R420, R424, R426): areas of the shards it receives, then its contributions. -/
def State.redStart (s : State) (i : Nat) (x : Red) (a : Tensor) (pair mask : Bool) : State :=
  let old := s.reds.filter fun y => y.key == x.key
  let s := s.freeBufs (old.flatMap fun y => y.recvs.flatMap fun r => r.parts.flatMap Contrib.bufs)
  let s := { (s.setStage i .started) with
    reds := ((s.reds.map fun y => y.shut x.key).filter fun (y : Red) => y.key != x.key || s.redLive y) ++ [x]
    lateParts := s.lateParts.filter fun m => m.key != x.key }
  let mine := x.dst.shards.zipIdx.filter fun sh => receiverOf x.members sh.1 sh.2 s.house == (s.house, s.room)
  let s := mine.foldl
    (fun (s : State) sh =>
      let (s, carry, from_) := s.openArea x sh.2
      let r : Recv := ⟨sh.2, x.areaOf sh.2, ownerOf sh.1 == (s.house, s.room), carry, from_, s.expected x.members sh.1 sh.2, false⟩
      match s.redOf i with
      | some y => s.setRed { y with recvs := y.recvs ++ [r] }
      | none => s) s
  let s := ((allIdx a.d.size).filter fun ix => s.srcPresent mask (srcOff a pair ix)).foldl
    (fun s ix => s.readNotes 5 (srcOff a pair ix) (if pair then 8 else 4)) s
  let dead := (allIdx a.d.size).any fun ix => s.srcPresent mask (srcOff a pair ix) && s.rangeBad (srcOff a pair ix) (if pair then 8 else 4)
  let s := if dead then s.setSlot i { s.slot i with dead := true } else s
  (x.dst.shards.zipIdx.foldl
    (fun s sh =>
      let to_ := receiverOf x.members sh.1 sh.2 s.house
      match s.redOf i with
      | some y =>
        (s.setRed { y with sends := y.sends ++ [Sent.mk sh.2 to_.1 to_.2 false none []] }).sendChunks y sh.2 to_ false [] (s.srcChunks a pair mask x.dst sh.1)
      | none => s) s).colGo i

/-- What keeps the engine from reading the parameter block of a REDUCE (R456). -/
def State.rparmDenied (s : State) (v : Slot) : Option Nat :=
  if v.word 6 % 64 ≠ 0 || badAddr (v.word 6) then some stInvalid else s.readBad false (v.word 6) 64

/-- The words of the parameter block, once it has been read. -/
def Slot.rparm (v : Slot) : Option (List Nat) := (v.tab (v.word 6) 64).map fun bs => (List.range 8).map fun k => field bs (8 * k) 8

/-- The block, the tensors and the member list of a REDUCE are read, once (R182, R456); the Bool says that they have been. -/
def State.fetchReduce (s : State) (i : Nat) : State × Bool :=
  let v := s.slot i
  match s.fetchExch i [v.word 4, v.word 5] (if (s.rparmDenied v).isNone then [(v.word 6, 64)] else []) with
  | (s, false) => (s, false)
  | (s, true) =>
    match (s.slot i).rparm with
    | none => (s, true)
    | some ws =>
      let n := bits (ws.getD 4 0) 12 0
      s.fetchTabs i (if (s.roomsBad (ws.headD 0) n).isNone then [(ws.headD 0, 8 * n)] else [])

/-- What keeps the engine from the shard area of a shard it receives: it reads and writes it and, under CARRY, makes atomics there (R346, R391,
R426). -/
def State.areaBad (s : State) (x : Red) (i size : Nat) : Option Nat :=
  let a := s.localAddr (x.areaOf i)
  firstCol [s.readBad false a size, s.writeBad false a size, if x.policy = 1 then s.atomicBad [(a, size)] else none]

/-- The checks of a REDUCE (R391, R413, R418, R419, R434), on what could be read of it; `ws` are the words of its block. -/
def State.reduceChecks (s : State) (i : Nat) (v : Slot) (ws : List Nat) (a b : Except Nat Tensor) (members : Except Nat (List (Nat × Nat))) : Option Nat :=
  let (pair, mask) := (bit (ws.getD 4 0) 13, bit (ws.getD 4 0) 14)
  firstCol
    ([if v.cKey = 0 || v.word 3 = 0 || (parseRparm ws).isNone || s.rparmBad ws then some stInvalid else none, tensorErr a, tensorErr b, roomsErr members] ++
     (match a with
      | .ok a => a.extents.map fun e => s.readBad false e.1 ((if pair then 2 else 1) * e.2)
      | .error _ => []) ++
     (match b with
      | .ok b => b.shards.map fun sh => s.writeBad false sh.loc (b.shardElems sh * (b.d.ty.width / 8))
      | .error _ => []) ++
     (match a, b, members with
      | .ok a, .ok b, .ok members =>
        let x := v.newRed i ws members b
        let size := fun (sh : Shard) => areaSize (b.shardElems sh) members.length x.maskCols x.comp
        (if s.reduceBad a b members mask || b.shards.any (fun sh => decide (x.stride < size sh)) then some stInvalid else none) ::
        (b.shards.zipIdx.filter fun sh => receiverOf members sh.1 sh.2 s.house == (s.house, s.room)).map fun sh => s.areaBad x sh.2 (size sh.1)
      | _, _, _ => []))

/-- A REDUCE starts, or is turned down (R413, R434), once what it names has been read. -/
def State.redBegin (s : State) (i : Nat) : State :=
  match s.fetchReduce i with
  | (s, false) => s
  | (s, true) =>
    let v := s.slot i
    match s.rparmDenied v, v.rparm with
    | some st, _ => s.cEnd i st 0
    | none, none => s.cEnd i (if v.refused then stDenied else stDead) 0
    | none, some ws =>
      let a := s.readTensor v false (v.word 4)
      let b := s.readTensor v true (v.word 5)
      let members := s.readRooms v (ws.headD 0) (bits (ws.getD 4 0) 12 0)
      if v.refused then s.cEnd i stDenied 0
      else
        match s.reduceChecks i v ws a b members, a, b, members with
        | none, .ok a, .ok b, .ok members => s.redStart i (v.newRed i ws members b) a (bit (ws.getD 4 0) 13) (bit (ws.getD 4 0) 14)
        | st, _, _, _ => s.cEnd i (st.getD stInvalid) 0

/-- COLLECTIVE_REDUCE (R412, R418–R434): the REDUCE in slot `i` starts, or goes on. -/
def execCollectiveReduce (i : Nat) (s : State) : Host.Outcome State Fault Refusal :=
  if s.cReady i (· == 1) then .next (if s.cOff i then s.cEnd i stCancelled 0 else s.redBegin i)
  else .next (s.colGo i)

/-! ## Contributions (R423–R427) -/

/-- How far a contribution has come: the chunks below this one are staged, or absent from it. -/
def Contrib.upTo (p : Contrib) : Nat := (p.chunks.getLast?.map fun c => c.index + 1).getD 0

/-- The first chunk of a shard that awaits a contribution (R423); none when nothing is awaited. -/
def Recv.ripe (r : Recv) : Option Nat :=
  match r.parts.filter fun p => p.status == 0 with
  | [] => none
  | p :: ps => some ((ps.map Contrib.upTo).foldl min p.upTo)

/-- How many buffers of a contribution hold chunks before `n`. -/
def Contrib.shed (p : Contrib) (n : Option Nat) : Nat :=
  ((p.chunks.drop (p.chunks.length - p.bufs.length)).takeWhile fun c => n.all fun n => decide (c.index < n)).length

/-- The buffers of the chunks whose reduction is formed (R423), and the REDUCE without them. -/
def Red.shed (x : Red) : List Nat × Red :=
  (x.recvs.flatMap fun r => r.parts.flatMap fun p => p.bufs.take (p.shed r.ripe),
   { x with recvs := x.recvs.map fun r => { r with parts := r.parts.map fun p => { p with bufs := p.bufs.drop (p.shed r.ripe) } } })

/-- The REDUCE is kept, and the buffers of the chunks it has formed are released (R423). -/
def State.setShed (s : State) (x : Red) : State := (s.freeBufs x.shed.1).setRed x.shed.2

/-- A chunk is staged, in bytes of its buffer whose layout no rule gives, unless the pool is empty (R423); the contribution is on time once whole (R424, R427). -/
def State.stage (s : State) (x : Red) (r : Recv) (p : Contrib) (m : Sys2Proof.ColMsg) (relay : Bool) (total : Nat) (absent : List (Nat × Nat))
    (c : Option Chunk) : State :=
  let put := fun (s : State) (p : Contrib) =>
    let whole := decide (total ≤ p.chunks.length)
    let p := { p with total := some total, absent := absent, status := if whole then 1 else 0 }
    let s := s.setShed (x.setRecv { r with parts := r.parts.map fun q => if q.house = p.house ∧ q.room = p.room ∧ q.relay = p.relay then p else q })
    (if whole then s.colReply m relay 0 else s).colGo x.slot
  match c with
  | none => put s p
  | some c =>
    match s.alloc x.pool 1 with
    | some (s, b :: _) =>
      let (s, bs) := s.freeBytes 16384
      put (s.memWrite 5 (s.bufOff x.pool b) bs) { p with chunks := p.chunks ++ [c], bufs := p.bufs ++ [handleOf x.pool b] }
    | _ => ((s.incReg Reg.colStageRetries 1).incReg (Reg.panFails x.pool) 1).refuseMsg m.house m.room (.col m) true

/-- CONTRIBUTION (R424–R427): a chunk of a contribution reaches its receiver: refused for retry before the receiver's REDUCE of the step, discarded once
a later one has started, late after its class has closed, staged otherwise. -/
def execContribution (m : ColMsg) (s : State) : Host.Outcome State Fault Refusal :=
  .next (match m.body with
    | .chunk relay total absent c =>
      match s.takeLoop m.house m.room (.col m) with
      | (s, false) => s
      | (s, true) =>
        let mine := s.reds.filter fun x => x.key == m.key && x.recvs.any fun r => r.shard == m.shard
        match mine.getLast? with
        | none => s.refuseMsg m.house m.room (.col m) false
        | some x =>
          if x.step < m.step then s.refuseMsg m.house m.room (.col m) false
          else if m.step < x.step then
            (match c with
             | none => (s.lateDrop x m.shard).colReply m relay 2
             | some _ =>
               let (q, s) : Nat × State := ((s.lateParts.filter fun q => q.house == m.house && q.room == m.room && q.key == m.key && q.step == m.step &&
                 q.shard == m.shard).length, s)
               if total ≤ q + 1 then
                 (({ s with lateParts := s.lateParts.filter fun q => !(q.house == m.house && q.room == m.room && q.key == m.key && q.step == m.step &&
                   q.shard == m.shard) }).lateDrop x m.shard).colReply m relay 2
               else { s with lateParts := s.lateParts ++ [m] })
          else
            match x.recvs.find? fun r => r.shard == m.shard with
            | none => s
            | some r =>
              match r.parts.find? fun p => p.house == m.house && p.room == m.room && p.relay == relay with
              | none => s
              | some p =>
                if p.status = 1 then s
                else if p.status = 0 && !r.excess && s.redLive x then s.stage x r p m relay total absent c
                else s.lateChunk x m relay (p.status == 3) total
    | _ => s)

/-- CONTRIBUTION_REPLY (R427, R432): the reply to a contribution reaches its sender. -/
def execContributionReply (m : ColMsg) (s : State) : Host.Outcome State Fault Refusal :=
  .next (match m.body with
    | .reply relay r =>
      match s.takeLoop m.house m.room (.col m) with
      | (s, false) => s
      | (s, true) =>
        match s.reds.find? fun x => x.key == m.key && x.step == m.step with
        | none => s
        | some x =>
          match x.sends.find? fun t => t.shard == m.shard && t.relay == relay && t.house == m.house && t.room == m.room && t.reply.isNone with
          | none => s
          | some t => (s.resolve x t (min r 2)).colGo x.slot
    | _ => s)

/-! ## Deadlines (R424, R425, R428) -/

/-- A class of a REDUCE closes: what is awaited in it is dead or missing, its staged chunks late; under WAIT it is probed. -/
def State.closeClass (s : State) (i : Nat) (relays : Bool) : State :=
  match s.redOf i with
  | none => s
  | some x =>
    if !s.redLive x || (if relays then x.doors else x.direct) then s
    else
      let open_ := x.recvs.flatMap fun r => (r.parts.filter fun p => p.relay == relays && p.status == 0).map fun p => (r, p)
      let x := if relays then { x with doors := true } else { x with direct := true }
      if x.policy = 0 then
        let rooms := (open_.map fun q => (q.2.house, q.2.room)).eraseDups.filter fun p => !x.probed.contains p
        (rooms.foldl (fun s p => s.sendUnit (.unit (72 + (s.slot i).cEngine)) (s.colUnit x) p.1 p.2 (s.colBody x 0 .probe))
          (s.setRed { x with probed := x.probed ++ rooms })).colGo i
      else
        let isDead := fun (p : Contrib) => x.dead.contains (p.house, p.room) || (p.house == s.house && s.roomDead p.room)
        let late := open_.flatMap fun q => q.2.chunks.map fun c =>
          Sys2Proof.ColMsg.mk q.2.house q.2.room x.key x.step q.1.shard (.chunk relays (q.2.total.getD 0) q.2.absent (some c))
        let s := s.freeBufs (open_.flatMap fun q => q.2.bufs)
        let x := x.mapParts fun p =>
          if p.relay = relays ∧ p.status = 0 then { p with status := if isDead p then 3 else 2, chunks := [], bufs := [] } else p
        (({ s with lateParts := s.lateParts ++ late }).setShed x).colGo i

/-- DEADLINE_CLOSE (R424): `deadline_us` has passed since the REDUCE of slot `i` started; its direct members close. -/
def execDeadlineClose (i : Nat) (s : State) : Host.Outcome State Fault Refusal := .next (s.closeClass i false)

/-- DOOR_DEADLINE_CLOSE (R424): `door_deadline_us` has passed; its relays close. -/
def execDoorDeadlineClose (i : Nat) (s : State) : Host.Outcome State Fault Refusal := .next (s.closeClass i true)

/-- PROBE_TIMEOUT (R428): a probed member has not answered in time, and is dead. -/
def execProbeTimeout (i house room : Nat) (s : State) : Host.Outcome State Fault Refusal :=
  match s.redOf i with
  | none => .next s
  | some x =>
    .next (if x.probed.contains (house, room) && !x.dead.contains (house, room) then (s.setRed { x with dead := x.dead ++ [(house, room)] }).colGo i else s)

/-- STAGE_RETRY (R423): message `n`, a chunk that was refused, is sent again. -/
def execStageRetry (n : Nat) (s : State) : Host.Outcome State Fault Refusal :=
  match s.kept.find? fun k => k.num == n with
  | none => .next s
  | some k =>
    .next (match k.body with
      | .col _ => if (s.slot k.slot).stage = .started && !s.loop.contains k.body then s.sendAgain k else s
      | .slu _ => s)

end Sys2Proof.Machine
end

