-- ==== Sys2Proof/Machine/Scale.lean ====
section
/-! DEFINITION. The SCALE class and the scale histories (09_range_and_scales.md R241–R252, R144), and the completion of
the instructions of the vector engine (R163, R181, R252). -/

namespace Sys2Proof.Machine

/-! ## Histories -/

def State.setHist (s : State) (h : Nat) (v : Hist) : State := { s with hists := Tbl.set Hist.init s.hists h v }

/-- R242, R243: an observation of a source with these values reaches history `h`. -/
def Hist.observe (h : Hist) (vs : List FVal) : Hist :=
  let fin := vs.filter FVal.isFin
  let h := { h with nonfin := h.nonfin + (vs.length - fin.length) }
  if fin.isEmpty then h
  else { h with acc := fl ((v32 h.acc).max false (maxFinite fin)), seen := true }

/-- R246: the scale code of magnitude `a` for type `t` under margin `g`. -/
def histCode (t : EType) (a : FVal) (g : Nat) : Nat :=
  match a with
  | .fin n m e => if m = 0 then 127 else (max 0 (min 254 (127 + (FVal.fin n m e).ilog - t.eMax + g))).toNat
  | .inf _ => 254
  | .nan => 127

/-! ## Issue -/

/-- The values of a handle as a SCALE instruction reads them, row by row (R228). -/
def State.scaleVals (s : State) (a : Handle) : List (List FVal) := (List.range a.rows).map (s.vxRow a)

/-- The fields of a SCALE word hold no reserved value (R123, R134, R144). -/
def scaleWordOk (w : Nat) : Bool := bits w 25 24 != 3 && bits w 1 0 == 0 && regOk (bits w 41 36)

/-- The types SCONV writes (R248). -/
def sconvTarget (d : Handle) : Bool :=
  d.ty = .e4m3 || d.ty = .e5m2 || (d.ty = .fp4 && d.block.scaled)

/-- The cause of the program fault a SCALE instruction is (R144, R161, R248). -/
def State.scaleCause (s : State) (k op : Nat) (a d : Handle) : Option Nat :=
  if a.ty.isInt then some 1
  else if op = 0 then
    if !d.block.scaled then some 1 else if !sameShape a d then some 2 else none
  else if op = 3 then
    if !sconvTarget d || (inCistern k d.base && !s.cisOpen k) then some 1 else if !sameShape a d then some 2 else none
  else none

/-- A SCALE instruction of operation `op`, which writes td for 0 and 3 and rd for 1 and 3. -/
def State.scaleOp (s : State) (k op : Nat) : State :=
  s.issue k 5 op fun w s =>
    let c := s.core k
    let wrTd := op = 0 ∨ op = 3
    let wrRd := op = 1 ∨ op = 3
    let a := c.handle (bits w 47 42)
    let d := c.handle (bits w 53 48)
    let rd := bits w 41 36
    let ready := (c.readable (bits w 47 42)).and (if wrTd then c.writable (bits w 53 48) else .ok)
    let regs := (if wrRd then [rd] else []) ++
      (if wrTd ∧ bits w 25 24 = 2 then [bits w 15 11, bits w 10 6, 32 + bits w 5 2] else [])
    if !scaleWordOk w then s.progFault k 1 w
    else if c.anyPend regs then s.hold k
    else if a.st = .free ∨ wrTd ∧ d.st = .free then s.progFault k 2 w
    else
      match s.scaleCause k op a d with
      | some cause => s.progFault k cause w
      | none =>
        match ready with
        | .illegal => s.progFault k 2 w
        | .wait => s.hold k
        | .ok =>
          if c.vecWait then s.holdEngine k
          else
            let h := s.hist (bits w 35 26)
            let f : Flight :=
              { word := w, td := if wrTd then some (bits w 53 48, d) else none, ta := some (bits w 47 42, a), tb := none,
                tc := none, scalar := h.margin, seed := c.get (bits w 15 11), salt := c.get (bits w 10 6) % 2 ^ 32,
                pos := c.get (32 + bits w 5 2), rd := if wrRd then some rd else none, cold := h.cold, amax := h.amax,
                sample := none, launch := (c.run.map Run.launch).getD 0, since := s.cycles k, loadWait := 0 }
            let s := s.vecEnter k f
            if wrRd then s.pendReg k rd else s

/-- SQUANT (R144). -/
def execSquant (k : Fin 256) (s : State) : Host.Outcome State Fault Refusal := .next (s.scaleOp k 0)

/-- SAMAX (R144). -/
def execSamax (k : Fin 256) (s : State) : Host.Outcome State Fault Refusal := .next (s.scaleOp k 1)

/-- SHIST (R144, R243). -/
def execShist (k : Fin 256) (s : State) : Host.Outcome State Fault Refusal := .next (s.scaleOp k 2)

/-- SCONV (R144, R245, R248). -/
def execSconv (k : Fin 256) (s : State) : Host.Outcome State Fault Refusal := .next (s.scaleOp k 3)

/-! ## Completion -/

/-- The rounding a SCALE word names. -/
def scaleRnd (w : Nat) : Rnd := (Rnd.ofCode (bits w 25 24)).getD .rne

/-- The scale code an SCONV uses (R246, R249, R250). -/
def Flight.sconvCode (f : Flight) (d : Handle) (vs : List (List FVal)) : Nat :=
  histCode d.ty (if f.cold then maxFinite vs.flatten else v32 f.amax) f.scalar

/-- SCONV's conversion and its events (R246, R248). -/
def State.sconvWrite (s : State) (f : Flight) (d : Handle) (vs : List (List FVal)) : State × List (Nat × Ev) :=
  let c := f.sconvCode d vs
  if d.block.scaled then s.writeTile d (scaleRnd f.word) f.vxSr (some c) vs
  else s.writeTile d (scaleRnd f.word) f.vxSr none (vs.map fun r => r.map fun x => x.scale (127 - (c : Int)))

/-- The result of a SCALE instruction: memory, history, register. -/
def State.scaleWrite (s : State) (k : Nat) (f : Flight) (a : Handle) : State :=
  let w := f.word
  let n := bits w 35 26
  let vs := s.scaleVals a
  match vxOp w, f.td with
  | 0, some (_, d) => (s.writeTile d (scaleRnd w) f.vxSr none vs).1
  | 1, _ => s.putReg k (bits w 41 36) (fl (maxAbs vs.flatten))
  | 2, _ => s.setHist n ((s.hist n).observe vs.flatten)
  | 3, some (_, d) =>
    let (t, evs) := s.sconvWrite f d vs
    let h := (t.hist n).observe vs.flatten
    let t := t.setHist n { h with sat := h.sat + evCount .sat evs, flush := h.flush + evCount .flush evs }
    let t := t.putReg k (bits w 41 36) (f.sconvCode d vs + 256 * b2n f.cold)
    if f.cold then t.markRun f.launch fun l => { l with cold := true } else t
  | _, _ => s

/-- The next instruction of the vector engine begins to run. -/
def beginNext (now : Nat) : List Flight → List Flight
  | [] => []
  | f :: r => { f with since := now } :: r

/-- Elements per cycle of a VX operation (R162); none where R162 gives no rate. -/
def vxRate (w kk : Nat) (bf : Bool) : Option Nat :=
  let op := vxOp w
  if (decide (0x10 ≤ op) && decide (op ≤ 0x18)) then some 64
  else if op ≤ 0x0D then some (if bf then 512 else 256)
  else if decide (0x20 ≤ op) && decide (op ≤ 0x23) then some 256
  else if op = 0x38 then some (if kk ≤ 8 then 256 else 128)
  else none

/-- Bits per cycle that core `k`'s handle supplies or accepts (R164): 512 bytes for each scratch bank its region spans, at most 1 KiB. -/
def supplyBits (k : Nat) (h : Handle) : Nat :=
  let last := h.base + h.rows * h.pitch - 1
  if decide (scratchBase k ≤ h.base) && decide (h.base < scratchBase k + 0xC00000) && (h.base - scratchBase k) / 0x40000 == (last - scratchBase k) / 0x40000
  then 4096 else 8192

/-- Bits of one element of a handle. -/
def Handle.elemBits (h : Handle) : Nat := if h.pair then 64 else h.ty.width

/-- R164: cycles among `n` in which a running VX instruction processed fewer elements than its rate. It loses none where every handle of full size
suffices and the array has been idle; one that a handle limits loses every cycle in which it processes; how many it loses to the array's
precedence, and what R162 gives no rate for, is a free value. -/
def State.supplyLost (s : State) (k n : Nat) (f : Flight) (a b c d : Handle) : Nat × State :=
  let size := max (a.rows * a.cols) (d.rows * d.cols)
  let hs := [a, b, c, d].filter fun h => decide (h.rows * h.cols = size)
  let (x, s) := s.takeFree
  match vxRate f.word (f.scalar % 2 ^ 32) (vxBf16 f.word ([a] ++ (f.tb.map Prod.snd).toList ++ (f.tc.map Prod.snd).toList) d) with
  | none => (x % (n + 1), s)
  | some r =>
    let slow := hs.filter fun h => decide (supplyBits k h < r * h.elemBits)
    let least := (slow.map fun h => cdiv (size * h.elemBits) (supplyBits k h)).foldl max 0
    let co := s.core k
    if slow.isEmpty && co.mxq.isEmpty && decide (co.idleAt ≤ f.since) then (0, s)
    else (min n least + x % (n - min n least + 1), s)

/-- VX_COMPLETE (R163, R164, R181, R252): the running instruction of the vector engine, VX or SCALE, completes. -/
def execVxComplete (k : Fin 256) (s : State) : Host.Outcome State Fault Refusal :=
  match (s.core k).vxq with
  | [] => .next s
  | f :: rest =>
    match f.ta with
    | none => .next s
    | some (_, a) =>
      let other := fun (o : Option (Nat × Handle)) => (o.map Prod.snd).getD Handle.none
      let b := other f.tb
      let c := other f.tc
      let d := other f.td
      let bad := s.handleBad a || s.handleBad b || s.handleBad c
      let s1 := ((s.handleNotes a).handleNotes b).handleNotes c
      let isVx := bits f.word 63 60 == 4
      let t := if isVx then s1.vxWrite k f a b c d else s1.scaleWrite k f a
      let t := if bad then t.markDead f.launch else t
      let now := t.cycles k
      let co := t.core k
      let t := t.setCore k { co with vxq := beginNext now rest }
      let t := match f.td with | some (n, _) => t.resident k n | none => t
      let t := if isVx then
          let (x, t) := t.supplyLost k (now - f.since) f a b c d
          ((t.incReg (Reg.vecVxDone k) 1).incReg (Reg.vecBusy k) (now - f.since)).incReg (Reg.vecSupply k) x
        else t
      .next ((t.instrDone k).settle k)

end Sys2Proof.Machine
end

