-- ==== Sys2Proof/Machine/Host.lean ====
section
/-! DEFINITION. The host's side (17_host_interface.md R439–R450, R462–R467, R522): doorbells, rings, cancellation, interrupts, the link, job
ownership; and the units' disabling (R505). -/

namespace Sys2Proof.Machine

/-! ## Cancellation (R450) -/

/-- Requests of slot `i` that wait without a tag are not issued (R215). -/
def State.dropHeld (s : State) (i : Nat) : State := { s with reqs := s.reqs.filter fun r => !(r.held && r.who = .slot i) }

/-- A descriptor that has started ends at its cancellation: a LAUNCH, or a built-in program, stops on its cores (R158, R215, R273), an EXCHANGE
stops (R321), and so does a COLLECTIVE (R433). -/
def State.stopSlot (s : State) (i : Nat) : State :=
  let v := s.slot i
  if v.opcode = 1 && v.step != 0 then s.cancelLaunch i
  else
    match s.exch i with
    | some x => s.xStop x stCancelled
    | none => if v.opcode = 6 then s.cEnd i stCancelled 0 else (s.cancelLaunch i).endSlot i stCancelled 0

/-- The descriptor in slot `i` is cancelled. What it has not issued is not issued; one that has ended but still waits for its requests completes
with `CANCELLED`, and one that waits for its record alone keeps its status. -/
def State.cancelSlot (s : State) (i : Nat) : State :=
  let off := fun (s : State) => (s.setSlot i { s.slot i with cancelled := true }).dropHeld i
  match (s.slot i).stage with
  | .ended _ _ => if s.slotBusy i then off s else s
  | _ => (off (s.dropWaiters fun w => match w with | .slot j _ => j == i | _ => false)).stopSlot i

/-- Ring `n` is cancelled (R450): it fetches no more, its entries up to its tail end, and its fetched descriptors are cancelled. While that is in
progress another cancellation changes nothing. -/
def State.cancelRing (s : State) (n : Nat) : State :=
  if s.ringStop.contains n then s
  else
    let s := s.setFlag (Reg.ringCfg n) 63 false
    let l := s.slots.filter fun e => e.2.ring == n
    let s := l.foldl (fun s e => s.cancelSlot e.1) s
    let s := s.fetchMany n (some stCancelled) (s.ringWaiting n)
    if s.ringBusy n then { s with ringStop := s.ringStop ++ [n] } else s

/-- Rings that have been set up, or have descriptors. -/
def State.ringsUsed (s : State) : List Nat :=
  (List.range 4096).filter fun n =>
    (s.regs.any fun e => e.1 == Reg.ringCfg n || e.1 == Reg.ringTail n || e.1 == Reg.ringHead n) || s.slots.any fun e => e.2.ring == n

/-- Every ring is cancelled. -/
def State.cancelAll (s : State) : State := s.ringsUsed.foldl State.cancelRing s

/-- A write of HOST_CANCEL. -/
def State.cancelWrite (s : State) (v : Nat) : State := if bit v 12 then s.cancelAll else s.cancelRing (bits v 11 0)

/-- CANCEL_RING (R450). -/
def execCancelRing (n : Fin 4096) (s : State) : Host.Outcome State Fault Refusal := .next (s.cancelRing n)

/-- CANCEL_ALL (R450). -/
def execCancelAll (s : State) : Host.Outcome State Fault Refusal := .next s.cancelAll

/-! ## Doorbells and rings (R447–R449) -/

/-- A doorbell that R448 ignores. -/
def State.doorbellBad (s : State) (page size v : Nat) : Bool :=
  !s.ready || size != 8 || bits v 63 28 != 0 || bits v 27 16 != page || !s.flag (Reg.ringCfg page) 63 ||
  decide (s.ringSize (Reg.ringCfg page) ≤ bits v 15 0)

/-- DOORBELL (R448, R449, R490): the host has made stores and writes `size` bytes to a doorbell page. It is a privileged source; in DEEP and
protected off the cellar latches it. -/
def execDoorbell (page : Fin 4096) (size : Nat) (v : Word) (host : Cells) (s : State) : Host.Outcome State Fault Refusal :=
  let s := s.hostCells host
  if !s.linkUp then .next s
  else
    let st := s.fieldOf Reg.powerStatus 2 0
    let t := s.wakeSource 1 true [1, 2, 3, 4]
    if st = 3 || st = 4 then .next t
    else if s.doorbellBad page size v.toNat then .next (t.incReg Reg.dbDropped 1)
    else .next (t.setReg (Reg.ringTail page) (bits v.toNat 15 0))

/-- RING_CFG of ring `n` takes a word (R446, R447, R521): while ENABLE is 1 only ENABLE and JOB change. ENABLE 1 needs a size in range, an
aligned base and an enabled queue engine (R505). A change of JOB is a protection's. -/
def State.ringCfgWrite (s : State) (n v : Nat) : State :=
  let o := Reg.ringCfg n
  let old := s.reg o
  let w := if bit old 63 then setBits old 62 62 (bits v 62 62)
    else bits v 62 62 * 2 ^ 62 + bits v 39 32 * 2 ^ 32 + bits v 21 16 * 2 ^ 16 + bits v 10 8 * 2 ^ 8 + bits v 4 0
  let lg := bits w 4 0
  let ok := decide (6 ≤ lg) && decide (lg ≤ 16) && s.reg (Reg.ringBase n) % (64 * 2 ^ lg) == 0 && !s.unitOff (bits w 21 16)
  let w := setBits w 63 63 (b2n (bit v 63 && ok))
  let s := s.setReg o w
  if bit old 62 = bit w 62 then s else s.noteProt false o old w

/-- Keeper firmware sets or clears the job bit of ring `n` (R2, R521). -/
def State.keeperRing (s : State) (n : Nat) (job : Bool) : State :=
  s.setProt true (Reg.ringCfg n) (setBits (s.reg (Reg.ringCfg n)) 62 62 (b2n job))

/-- RING_CFG_WRITE (R2, R447): with `keeper`, keeper firmware sets JOB, which it may at any time. -/
def execRingCfgWrite (keeper : Bool) (n : Fin 4096) (v : Word) (s : State) : Host.Outcome State Fault Refusal :=
  .next (if keeper then (if s.keeperRuns then s.keeperRing n (bit v.toNat 62) else s) else s.ringCfgWrite n v.toNat)

/-! ## Completion and fault rings (R462, R464, R466) -/

/-- Held records are written as far as there is room. -/
def State.flushRecords (s : State) : State := s.flushComps.flushFaults

/-- A configuration register of a ring of `rec`-byte records takes a word (R462). -/
def State.cqWrite (s : State) (cfg base rec v : Nat) : State :=
  let lg := bits v 4 0
  let ok := decide (6 ≤ lg) && decide (lg ≤ 16) && s.reg base % (rec * 2 ^ lg) == 0
  (s.setReg cfg (b2n (bit v 63 && ok) * 2 ^ 63 + bits v 47 15 * 2 ^ 15 + bits v 13 8 * 2 ^ 8 + lg)).flushRecords

/-- CQ_CFG_WRITE (R462): completion ring `m`, or the fault ring (256). -/
def execCqCfgWrite (m : Fin 257) (v : Word) (s : State) : Host.Outcome State Fault Refusal :=
  .next (if m.val = 256 then s.cqWrite Reg.fltCfg Reg.fltBase 32 v.toNat else s.cqWrite (Reg.cqCfg m) (Reg.cqBase m) 16 v.toNat)

/-- CQ_HEAD_WRITE (R464): the host has consumed records of completion ring `m`, or of the fault ring (256). -/
def execCqHeadWrite (m : Fin 257) (v : Word) (s : State) : Host.Outcome State Fault Refusal :=
  .next (s.setReg (if m.val = 256 then Reg.fltHead else Reg.cqHead m) (bits v.toNat 15 0)).flushRecords

/-- TELEM_HEAD_WRITE (R473). -/
def execTelemHeadWrite (v : Word) (s : State) : Host.Outcome State Fault Refusal := .next (s.setReg Reg.telemHead (bits v.toNat 15 0))

/-! ## Interrupts (R467) -/

/-- HOST_IRQ_PENDING takes a word: each bit written 1 is cleared; nothing is sent. -/
def State.irqClear (s : State) (v : Nat) : State := s.setReg Reg.irqPending (Nat.land (s.reg Reg.irqPending) (2 ^ 64 - 1 - v))

/-- IRQ_PENDING_CLEAR (R467). -/
def execIrqPendingClear (v : Word) (s : State) : Host.Outcome State Fault Refusal := .next (s.irqClear v.toNat)

/-- HOST_IRQ_MASK takes a word: a vector that is pending and loses its mask sends its message. -/
def State.maskWrite (s : State) (v : Nat) : State :=
  let go := (List.range 64).filter fun i => s.flag Reg.irqPending i && s.flag Reg.irqMask i && !bit v i
  { s.setReg Reg.irqMask v with out := s.out ++ go.map .msix }

/-- IRQ_MASK_WRITE (R467). -/
def execIrqMaskWrite (v : Word) (s : State) : Host.Outcome State Fault Refusal := .next (s.maskWrite v.toNat)

/-- IRQ_DELAY_EXPIRY (R467): DELAY_US has passed since the first record of ring `m` (256: the fault ring) that no interrupt has told of. -/
def execIrqDelayExpiry (m : Fin 257) (s : State) : Host.Outcome State Fault Refusal :=
  let cfg := if m.val = 256 then Reg.fltCfg else Reg.cqCfg m
  if s.flag cfg 15 && s.fieldOf cfg 47 32 != 0 && Tbl.get 0 s.irqCount m != 0 then
    .next ({ s with irqCount := Tbl.set 0 s.irqCount m 0 }.raiseVec (s.fieldOf cfg 13 8))
  else .next s

/-! ## The link (R439, R442) -/

/-- HOST_LINK_DOWN (R442, R515): host accesses and records are held; a load of firmware ends. -/
def execHostLinkDown (s : State) : Host.Outcome State Fault Refusal :=
  let s := (s.setFlag Reg.hostStatus 1 false).setReg Reg.linkStatus 0
  .next (if s.reg Reg.secBootStatus = 2 then s.setReg Reg.secBootStatus 0x14 else s)

/-- HOST_LINK_UP (R439, R442, R513): the link trains with these lanes at this rate (1 to 3), and what was held goes on. -/
def execHostLinkUp (lanes : Fin 256) (rate : Fin 4) (s : State) : Host.Outcome State Fault Refusal :=
  if !s.powered then .next s
  else
    let s := (s.setFlag Reg.hostStatus 1 true).setReg Reg.linkStatus (lanes * 2 ^ 8 + rate)
    let s := if s.linkWas then s.incReg Reg.linkRetrains 1 else { s with linkWas := true }
    .next s.bootWaits.flushRecords

/-- LINK_HOLD_EXPIRY (R442): the link has stayed down for HOLD_MS; every ring is cancelled. -/
def execLinkHoldExpiry (s : State) : Host.Outcome State Fault Refusal := .next (if s.linkUp then s else s.cancelAll)

/-- HOST_READ_ERROR (R444, R515): the host answers a read of `n` bytes at bus address `a` with an error: a descriptor's, or the boot ROM's
of the image. -/
def execHostReadError (slot : Option Nat) (a n : Nat) (s : State) : Host.Outcome State Fault Refusal :=
  match slot with
  | none =>
    .next (if s.reg Reg.secBootStatus = 2 then (s.incReg Reg.hostReadErrors 1).setReg Reg.secBootStatus 0x14 else s)
  | some i =>
    let v := s.slot i
    match v.words, v.stage with
    | [], _ => .next s
    | _, .ended _ _ => .next s
    | _, _ =>
      .next (((s.setSlot i { v with badHost := v.badHost ++ [(a, n)] }).incReg Reg.hostReadErrors 1).raise stDead 0 13 0
        (0xFFFF * 2 ^ 48 + a % 2 ^ 46) 0)

/-! ## Job ownership (R445, R522) -/

/-- JOB_ASSIGN (R445): a write of HOST_JOB with OWNED 1. -/
def State.jobAssign (s : State) (v : Nat) : State :=
  if s.owned || !s.ready then s
  else
    let w := 2 ^ 63 + bits v 62 62 * 2 ^ 62 + bits v 31 0
    (((s.setProt false Reg.hostJob w).setFlag Reg.hostStatus 2 true).setFlag Reg.hostStatus 3 true).syncPower

def execJobAssign (v : Word) (s : State) : Host.Outcome State Fault Refusal := .next (s.jobAssign v.toNat)

/-- VALID of every window is cleared (R394, R445). -/
def State.clearWindows (s : State) (keeper : Bool) : State :=
  let house := (List.range 32).flatMap fun i => [Reg.owinRange i, Reg.iwinRange i]
  let host := (List.range 8).map Reg.hwinLo
  (house ++ host).foldl (fun s o => s.setProt keeper o (setBits (s.reg o) 63 63 0)) s

/-- The memory that an assignment without KEEP clears (R445): DRAM in service, pinned Larder areas, and the memories of cores in service. A
failed channel drops writes (R353). -/
def State.cleared (s : State) (p : Nat) : Bool :=
  if p < 2 ^ 41 then s.chanIn (stackOf p) (chanOf p) && !s.failed p
  else
    match regionOf (p - 2 ^ 41) with
    | some (.larder m) =>
      decide ((p - 2 ^ 41 - 0x18000000000) % 0x10000000 < bits (s.reg Reg.memLarderCfg) (4 * m + 3) (4 * m) * 2 ^ 24)
    | some (.scratch n) => !(s.core n).retired
    | some (.landing n) => !(s.core n).retired
    | some (.cistern n) => !(s.core n).retired
    | _ => false

/-- Every history is reset (R254); the configuration in force stays. -/
def State.clearHists (s : State) : State :=
  let s := s.resetRegs fun o => decide (Reg.sclSat 0 ≤ o) && decide (o < Reg.sclNonfinite 1024)
  s.hists.foldl (fun s e => s.setHist e.1 { Hist.init with len := e.2.len, margin := e.2.margin }) s

/-- ASSIGNMENT_COMPLETE (R146, R254, R329, R394, R445, R485): keeper firmware has done steps 2 to 4 of an assignment; clearing the events ends
IDLE. -/
def execAssignmentComplete (s : State) : Host.Outcome State Fault Refusal :=
  if !s.flag Reg.hostStatus 3 then .next s
  else
    let s := if s.sync.event (s.fieldOf Reg.powerCtl 9 0) then s.leaveIdle 10 else s
    let s := { s with sync := ⟨[], [], [], []⟩ }.clearHists.freePools.clearWindows false
    let s := if s.flag Reg.hostJob 62 then s
      else (List.range 256).foldl (fun s k => s.setFlag (Reg.cisStatus k) 0 false) { s.loseMem s.cleared with pinGen := [], lines := [], lineRead := [] }
    .next (s.setFlag Reg.hostStatus 3 false).syncPower

/-- Some ring of the job is enabled, or has a descriptor without a record. -/
def State.jobBusy (s : State) (enabled : Bool) : Bool :=
  s.ringsUsed.any fun n => s.flag (Reg.ringCfg n) 62 && ((enabled && s.flag (Reg.ringCfg n) 63) || s.ringBusy n)

/-- OWNED is cleared. -/
def State.jobOff (s : State) (keeper : Bool) : State :=
  (s.setProt keeper Reg.hostJob (setBits (s.reg Reg.hostJob) 63 63 0)).setFlag Reg.hostStatus 2 false

/-- JOB_RELEASE (R445): a write of HOST_JOB with OWNED 0. -/
def State.jobRelease (s : State) : State := if s.flag Reg.hostStatus 3 || s.jobBusy true then s else s.jobOff false

def execJobRelease (s : State) : Host.Outcome State Fault Refusal := .next s.jobRelease

/-- OWNERSHIP_REVOKE (R522): keeper firmware cancels the job's rings, and once none is busy clears OWNED. -/
def execOwnershipRevoke (s : State) : Host.Outcome State Fault Refusal :=
  let s := (s.ringsUsed.filter fun n => s.flag (Reg.ringCfg n) 62).foldl State.cancelRing s
  .next (if s.jobBusy false || !s.owned then s else s.jobOff true)

/-! ## Histories and the dip sampler -/

/-- A write of SCL_SEED of history `h` (R253). -/
def State.seedWrite (s : State) (h v : Nat) : State :=
  let x := s.hist h
  if bit v 63 then s.setHist h { x with ring := [], amax := 0, cold := true, acc := 0, seen := false }
  else
    let a := bits v 31 0
    if bit a 31 || bits a 30 23 == 255 then s
    else s.setHist h { x with ring := [a], amax := a, cold := false }

/-- SCL_SEED_VALUE (R253): a write with CLEAR 0. -/
def execSclSeedValue (h : Fin 1024) (v : Word32) (s : State) : Host.Outcome State Fault Refusal := .next (s.seedWrite h v.toNat)

/-- SCL_SEED_CLEAR (R253): a write with CLEAR 1. -/
def execSclSeedClear (h : Fin 1024) (s : State) : Host.Outcome State Fault Refusal := .next (s.seedWrite h (2 ^ 63))

/-- DIP_CTL takes a word (R95, R96); ENABLE only from keeper firmware, as a change of a protection. -/
def State.dipCtlWrite (s : State) (keeper : Bool) (v : Nat) : State :=
  let old := s.reg Reg.dipCtl
  let w := bits v 39 32 * 2 ^ 32 + bits v 23 16 * 2 ^ 16 + bits v 15 12 * 2 ^ 12 + bits v 7 4 * 2 ^ 4 + bits v 3 2 * 4 +
    (if keeper then bits v 0 0 else bits old 0 0)
  let s := s.setReg Reg.dipCtl w
  if bit old 0 = bit w 0 then s else s.noteProt true Reg.dipCtl old w

/-- DIP_CTL_WRITE (R95). -/
def execDipCtlWrite (keeper : Bool) (v : Word) (s : State) : Host.Outcome State Fault Refusal := .next (s.dipCtlWrite keeper v.toNat)

/-- FLT_ALERT takes a word: each bit written 1 is cleared; the alert line is not affected. -/
def State.alertClear (s : State) (v : Nat) : State := s.setReg Reg.fltAlert (Nat.land (s.reg Reg.fltAlert) (15 - v % 16))

/-- FLT_ALERT_CLEAR (R504). -/
def execFltAlertClear (v : Word) (s : State) : Host.Outcome State Fault Refusal := .next (s.alertClear v.toNat)

end Sys2Proof.Machine
end

