-- ==== Sys2Proof/Machine/Stacks.lean ====
section
/-! DEFINITION. Stacks and channels (13_memory_and_larder.md R337, R340, R344, R352–R356): scrub, throttling, failed channels, map-out
requests, placement and pinned sizes. -/

namespace Sys2Proof.Machine

/-- The position of `x` in a list. -/
def posIn (x : Nat) (l : List Nat) : Nat := (l.zipIdx.find? fun e => e.1 == x).elim 0 Prod.snd

/-- The local offset of a DRAM place (R338, R339): the inverse of placement. -/
def State.dramOff (s : State) (p : Nat) : Nat :=
  let st := stackOf p
  let c := chanOf p
  let b := p % 2 ^ 30
  if s.flag Reg.memCtl 0 then
    let ch := s.allChans
    let n := ch.length
    let g := b / 256
    let r := (posIn (128 * st + c) ch + n - mix 0 0 0 g % n) % n
    (g * n + r) * 256 + b % 256
  else
    let i := c / 8
    let ch := s.chansIn st (8 * i) 8
    st * 0x1200000000 + i * 0x120000000 + (b / 4096 * ch.length + posIn c ch) * 4096 + b % 4096

/-- PATROL_SCRUB (R352, R356, R474): a scrub access reads 64 bytes of a channel, at `byte`; `err` says what it meets: 0 nothing, 1 an error
that is corrected, 2 an uncorrectable one that had not been seen. -/
def execPatrolScrub (stack : Fin 16) (chan : Fin 128) (byte : Fin (2 ^ 30)) (err : Fin 3) (s : State) :
    Host.Outcome State Fault Refusal :=
  if !s.flag Reg.memCtl 2 || s.fieldOf Reg.memScrub 15 0 = 0 || s.shedLevel ≠ 0 || !s.chanIn stack chan then .next s
  else
    let p := dramPlace chan.val (byte.val / 64 * 64) + stack.val * 2 ^ 37
    let s := s.incReg (Reg.memClassBytes (4 * stack + s.fieldOf Reg.memClassMap 15 14)) 64
    if s.failed p then .next (s.noteFailed (s.dramOff p) p)
    else
      let s := if err.val = 2 then { s with ue := Tbl.set false s.ue p true } else s
      if s.bad p then .next (s.noteUe (s.dramOff p) p true)
      else if err.val = 1 then
        let r := Reg.memCe (128 * stack + chan)
        .next (s.setReg r ((s.reg r + 1) % 2 ^ 32))
      else .next s

/-- The throttle stage at temperature `t` after stage `g` (R340). -/
def throttleStage (g t : Nat) : Nat :=
  if 105 ≤ t || (g = 2 && decide (102 < t)) then 2 else if 95 ≤ t || (decide (1 ≤ g) && decide (92 < t)) then 1 else 0

/-- STACK_THROTTLE (R340, R356): the temperature of a stack, and its throttle stage. -/
def execStackThrottle (stack : Fin 16) (t : Fin 256) (s : State) : Host.Outcome State Fault Refusal :=
  let r := Reg.memStackStatus stack
  .next ((s.setField r 39 32 t).setField r 17 16 (throttleStage (s.fieldOf r 17 16) t))

/-- Keeper firmware declares channel `c` of stack `st` failed (R353, R354, R498). -/
def State.declareFailed (s : State) (st c : Nat) : State :=
  let r := Reg.memChanFailed (2 * st + c / 64)
  if s.flag r (c % 64) || !s.chanIn st c then s
  else
    let s := { s.setFlag r (c % 64) true with chanDead := Tbl.set false s.chanDead (128 * st + c) true }
    (s.internal 0 8 st 4 st c 0 0).chanPend st c

/-- CHANNEL_FAILED (R353). -/
def execChannelFailed (stack : Fin 16) (chan : Fin 128) (s : State) : Host.Outcome State Fault Refusal := .next (s.declareFailed stack chan)

/-- The record of a spent limit (R10, R497). -/
def State.spent (s : State) (o : Nat) : State := s.raise stDenied 0 0 0 o 0xFFFF

/-- A write of MEM_MAPOUT_REQ (R10, R354). One made before keeper firmware runs is ignored, which the spec does not say (log 37). -/
def State.mapoutReq (s : State) (v : Nat) : State :=
  let st := bits v 3 0
  let c := bits v 14 8
  if !s.keeperRuns then s
  else if s.flag (Reg.memStackStatus st) 1 || Tbl.get false s.stackMarks st then s.spent Reg.memMapoutReq
  else if !s.chanIn st c || Tbl.get false s.chanMarks (128 * st + c) then s
  else s.chanPend st c

/-- MEM_MAPOUT_REQ (R354). -/
def execMemMapoutReq (v : Word) (s : State) : Host.Outcome State Fault Refusal := .next (s.mapoutReq v.toNat)

/-- MEM_CTL takes a word (R2, R337, R356, R521): PLACEMENT from the operator only while no job owns the part, from keeper firmware at any time. -/
def State.memCtlWrite (s : State) (keeper : Bool) (v : Nat) : State :=
  let s := if keeper then s else s.setFlag Reg.memCtl 2 (bit v 2)
  if s.owned && !keeper then s else s.setProt keeper Reg.memCtl (setBits (s.reg Reg.memCtl) 0 0 (bits v 0 0))

/-- PLACEMENT_WRITE (R2, R337): `keeper` says that keeper firmware, and not the operator, changes the setting. -/
def execPlacementWrite (keeper : Bool) (v : Word) (s : State) : Host.Outcome State Fault Refusal :=
  .next (if keeper && !s.keeperRuns then s else s.memCtlWrite keeper v.toNat)

/-- MEM_LARDER_CFG takes a word (R2, R344, R521): fields above 12 stay; after a change of PINm the pinned contents of slice m are undefined, and its
cached lines have left, so that they fit what remains (log 10). -/
def State.larderCfgWrite (s : State) (keeper : Bool) (v : Nat) : State :=
  if s.owned && !keeper then s
  else
    let old := s.reg Reg.memLarderCfg
    let w := (List.range 4).foldl
      (fun w m => if bits v (4 * m + 3) (4 * m) ≤ 12 then setBits w (4 * m + 3) (4 * m) (bits v (4 * m + 3) (4 * m)) else w) old
    let changed := (List.range 4).filter fun m => bits old (4 * m + 3) (4 * m) != bits w (4 * m + 3) (4 * m)
    let s := changed.foldl (fun s m => ((s.linesOf m).foldl State.evict s).voidOut m) s
    s.setProt keeper Reg.memLarderCfg w

/-- LARDER_CFG_WRITE (R2, R344): `keeper` says that keeper firmware, and not the operator, changes the setting. -/
def execLarderCfgWrite (keeper : Bool) (v : Word) (s : State) : Host.Outcome State Fault Refusal :=
  .next (if keeper && !s.keeperRuns then s else s.larderCfgWrite keeper v.toNat)

end Sys2Proof.Machine
end

