-- ==== Sys2Proof/Machine/Boot.lean ====
section
/-! DEFINITION. Resets, start-up, firmware, anti-rollback, attestation and the test access port (20_boot_and_security.md R511–R525;
R355, R471, R492, R531). -/

namespace Sys2Proof.Machine

/-! ## Resets (R511, R512) -/

/-- The machine with everything lost but what lies outside it or in fuses: the queue, host memory, what has left the Criaro. -/
def State.afresh (s : State) : State :=
  { State.reset with
    pending := s.pending, free := s.free, hostMem := s.hostMem, fuses := s.fuses, production := s.production, out := s.out }

/-- A register that a device or maintenance reset keeps: the POWER block. -/
def keptAtReset (o : Nat) : Bool := decide (0x200000 ≤ o) && decide (o < 0x300000)

/-- The pending marks of R354 show in their registers. -/
def State.showMarks (s : State) : State :=
  let s := ((List.range 16).filter fun st => Tbl.get false s.stackMarks st).foldl (fun s st => s.setFlag (Reg.memStackStatus st) 2 true) s
  (s.chanMarks.map Prod.fst).foldl (fun s c => s.setFlag (Reg.memChanPending (c / 64)) (c % 64) true) s

/-- What a device or maintenance reset leaves of the state: the POWER block and what it reports of, the time, the pending marks, the alert line. -/
def State.afterReset (s : State) : State :=
  let t := { s.afresh with
    regs := s.regs.clear fun o => !keptAtReset o, now := s.now, centi := s.centi, tripped := s.tripped, capStep := s.capStep, thermStep := s.thermStep, inputs := s.inputs,
    chanDead := s.chanDead, chanNoted := s.chanNoted, chanMarks := s.chanMarks, stackMarks := s.stackMarks, energy := s.energy, capBelow := s.capBelow, tseq := s.tseq, tlost := s.tlost, alert := s.alert, resetHeld := s.resetHeld }
  (((t.showMarks.setFlag Reg.clkStatus 0 false).setFlag Reg.clkStatus 1 false).setFlag Reg.powerStatus 20 false).setPower 0

/-- A reset of kind `k` (1 device, 2 maintenance) begins: start-up begins at its first step. One that comes during start-up takes the stronger
kind of the two. -/
def State.resetTo (s : State) (k : Nat) : State :=
  if !s.power then s
  else
    let k := if s.reg Reg.secBootStatus = 5 then k else max k s.resetKind
    { s.afterReset.loadFuses.loadStacks with resetKind := k }

/-- POWER_UP (R471, R511): the hot-swap stage closes. -/
def execPowerUp (s : State) : Host.Outcome State Fault Refusal :=
  .next (if s.power then s else { s.afresh.loadFuses.loadStacks with resetHeld := s.resetHeld })

/-- HOT_SWAP_OPEN (R471): the stage opens, and all contents are lost. -/
def execHotSwapOpen (s : State) : Host.Outcome State Fault Refusal := .next { s.afresh with power := false, resetHeld := s.resetHeld }

/-- DEVICE_RESET (R511). -/
def execDeviceReset (s : State) : Host.Outcome State Fault Refusal := .next (s.resetTo 1)

/-- MAINTENANCE_RESET (R511). -/
def execMaintenanceReset (s : State) : Host.Outcome State Fault Refusal := .next (s.resetTo 2)

/-- RESET_N (R511, R531): the reset input has been low for 10 µs; start-up begins at its release. -/
def execResetN (s : State) : Host.Outcome State Fault Refusal := .next { s.resetTo 1 with resetHeld := true }

/-- RESET_N_RELEASE (R531). -/
def execResetNRelease (s : State) : Host.Outcome State Fault Refusal := .next { s with resetHeld := false }

/-! ## Firmware (R514–R517) -/

/-- SEC_FW_GO takes a word: ignored unless the boot ROM waits or a load has failed (R515). -/
def State.fwGo (s : State) (v : Nat) : State :=
  let st := s.reg Reg.secBootStatus
  if bit v 0 && (st == 1 || decide (0x10 ≤ st)) then s.setReg Reg.secBootStatus 2 else s

/-- SEC_FW_GO (R515): the host has placed the image and writes SEC_FW_GO. -/
def execSecFwGo (v : Word) (host : Cells) (s : State) : Host.Outcome State Fault Refusal := .next ((s.hostCells host).fwGo v.toNat)

/-- A field of an image. -/
def imageField (bs : List Byte) (o n : Nat) : Nat := leNat ((bs.drop o).take n)

/-- R516: the code of the first check that an image fails, none where it passes all. -/
def State.imageBad (s : State) (bs : List Byte) : Option Nat :=
  let l := imageField bs 0x10 4
  let key := imageField bs 0x06 1
  let mask := imageField bs 0x07 1
  let svn := imageField bs 0x0C 4
  if s.fieldOf Reg.secFwLen 23 0 ≠ l || decide (l < 30048) || decide (8388608 < l) || l % 4 != 0 then some 0x10
  else if imageField bs 0 4 ≠ 0x5746564F || imageField bs 4 2 != 1 || imageField bs 0x14 2 != 0x2548 || imageField bs 0x16 1 != 0xA1 ||
      bits mask 7 5 != 0 || imageField bs 0x17 233 != 0 || bit mask key then some 0x10
  else if bit (s.fieldOf Reg.secKeys 4 0) key then some 0x11
  else if decide (svn < s.fieldOf Reg.secRollback 6 0) || decide (64 < svn) then some 0x12
  else if decide (4 < key) || !Sys2Proof.Config.vendorVerify key (bs.take (l - 29792)) (bs.drop (l - 29792)) then some 0x13
  else none

/-- R517: a vendor key is revoked. -/
def State.revoke (s : State) (k : Nat) : State :=
  if bit (s.fieldOf Reg.secKeys 4 0) k then s
  else ((s.blow 7 ((s.fusesOf 7).length + 1) k 0).setFlag Reg.secKeys k true).noteSecurity

/-- Keeper firmware starts from a verified image: the version, its security version and key are shown, the test port is limited on a
production part, and the keys it names are revoked (R513, R517, R523). -/
def State.startImage (s : State) (bs : List Byte) : State :=
  let s := s.extend 1 bs
  let s := (s.setReg Reg.geomFw (imageField bs 0x08 4)).setField Reg.secRollback 14 8 (imageField bs 0x0C 4)
  let s := s.setField Reg.secKeys 10 8 (imageField bs 0x06 1)
  let s := (s.setReg Reg.secBootStatus 4)
  let s := if s.production then (s.setFlag Reg.secDebug 1 true).noteSecurity else s
  ((List.range 5).filter (bit (imageField bs 0x07 1))).foldl State.revoke s

/-- FIRMWARE_VERIFY (R515–R517): the boot ROM has read the image and verifies it. -/
def execFirmwareVerify (s : State) : Host.Outcome State Fault Refusal :=
  if s.reg Reg.secBootStatus ≠ 2 || !s.linkUp then .next s
  else
    let bs := s.hostRead (s.fieldOf Reg.secFwAddr 45 12 * 4096) (s.fieldOf Reg.secFwLen 23 0)
    match s.imageBad bs with
    | some c => .next (s.setReg Reg.secBootStatus c)
    | none => .next (s.startImage bs)

/-! ## Stacks (R355) -/

/-- A stack is retired by fuse. -/
def State.retireStack (s : State) (st : Nat) : State :=
  let s := ((s.blow 4 ((s.fusesOf 4).length + 1) st 0).setFlag (Reg.memStackStatus st) 1 true).setFlag (Reg.memStackStatus st) 2 false
  { s with stackMarks := Tbl.set false s.stackMarks st false }

/-- R355: what keeper firmware does for stack `st` at a maintenance reset before training. -/
def State.stackFuses (s : State) (st : Nat) : State :=
  let r := Reg.memStackStatus st
  let s :=
    if s.flag r 1 then s
    else if Tbl.get false s.stackMarks st then s.retireStack st
    else
      (s.chansMarked st).foldl
        (fun s c => (s.blow 3 (s.fieldOf r 11 8 + 1) (128 * st + c) 0).setField r 11 8 (s.fieldOf r 11 8 + 1)) s
  let s := [Reg.memChanPending (2 * st), Reg.memChanPending (2 * st + 1), Reg.memChanFailed (2 * st), Reg.memChanFailed (2 * st + 1)].foldl
    (fun s o => s.setReg o 0) s
  { s with
    chanDead := s.chanDead.clear fun c => c / 128 == st, chanNoted := s.chanNoted.clear fun c => c / 128 == st
    chanMarks := s.chanMarks.clear fun c => c / 128 == st }

/-- The channels of stack `st` that fuses map out. -/
def State.chanGone (s : State) (st c : Nat) : Bool := s.fuses.any fun f => f.kind == 3 && f.target == 128 * st + c

/-- Stack `st` leaves the table (R28, R492). -/
def State.stackOut (s : State) (st : Nat) : State :=
  let s := (s.setFlag Reg.geomStacks st false).setReg (Reg.geomStackMib st) 0
  (s.setReg (Reg.geomChanMap (2 * st)) 0).setReg (Reg.geomChanMap (2 * st + 1)) 0

/-- The room's capacity is the sum of its stacks' (R28). -/
def State.sumStacks (s : State) : State := s.setReg Reg.geomDram ((List.range 16).map fun st => s.reg (Reg.geomStackMib st)).sum

/-- Stack `st` shows what it has in service (R28). One that is retired, or whose training has failed, is left out; a mark of R354 alone takes a
stack out only by the fuse of a maintenance reset (R29). -/
def State.loadStack (s : State) (failed : List (Fin 16)) (st : Nat) : State :=
  if s.flag (Reg.memStackStatus st) 1 || failed.any (fun x => x.val == st) then s.stackOut st
  else
    let half := fun (h : Nat) => ((List.range 64).map fun c => b2n (!s.chanGone st (64 * h + c)) * 2 ^ c).sum
    let n := ((List.range 128).filter fun c => !s.chanGone st c).length
    (((s.setFlag Reg.geomStacks st true).setReg (Reg.geomChanMap (2 * st)) (half 0)).setReg (Reg.geomChanMap (2 * st + 1)) (half 1)).setReg
      (Reg.geomStackMib st) (576 * n)

/-- STACK_TRAINING_DONE (R355, R511, R513 step 4): the fuses of a maintenance reset are blown, and every stack not retired is trained; `failed`
are the stacks whose training fails, `chans` the channels (128 × stack + channel) that fail in the others. -/
def execStackTrainingDone (failed : List (Fin 16)) (chans : List (Fin 2048)) (s : State) : Host.Outcome State Fault Refusal :=
  if s.reg Reg.secBootStatus ≠ 4 || s.boot != 1 then .next s
  else
    let s := if s.resetKind = 2 then (List.range 16).foldl State.stackFuses s else s
    let s := failed.foldl
      (fun s st =>
        let r := Reg.memStackStatus st.val
        if s.flag r 1 then s else if s.resetKind = 2 then s.retireStack st else s.markStack st) s
    let s := ((List.range 16).foldl (fun s st => s.loadStack failed st) s).sumStacks
    let s := chans.foldl (fun s c => s.declareFailed (c.val / 128) (c.val % 128)) s
    .next { s with boot := 4 }

/-! ## Start-up (R513) -/

/-- The ports that have trained; the room part of table A follows (R366). -/
def State.trainPorts (s : State) (ports : List Sys2Proof.PortUp) : State :=
  let s := (List.range 40).foldl State.syncPort s
  (ports.foldl (fun s p => s.portTrain p.port p.house p.room p.far p.slow) s).fillRooms false

/-- A core that fails the self-tests of start-up is retired without fuse (R506, R513). -/
def State.retireNoFuse (s : State) (k : Nat) : State :=
  if s.coreRetired k then s
  else ((s.setCore k { s.core k with retired := true }).setFlag (Reg.arrayStatus k) 3 true).internal 0 0 0 0x11 k 0 0 0

/-- Step 5 of R513: repairs and retirements from the fuses. -/
def State.loadCores (s : State) : State :=
  let s := (List.range 256).foldl State.loadRepair s
  (s.fusesOf 5).foldl
    (fun s f => (s.setCore f.target { s.core f.target with retired := true }).setFlag (Reg.arrayStatus f.target) 3 true) s

/-- The cores that pass the self-tests of start-up count it (R117). -/
def State.startTests (s : State) : State :=
  (List.range 256).foldl
    (fun s k =>
      if s.coreRetired k then s
      else s.setField (Reg.arrayStatus k) 47 16 (s.fieldOf (Reg.arrayStatus k) 47 16 + 1)) s

/-- R27: the cores in service are numbered densely in increasing order. -/
def State.loadMap (s : State) : State :=
  let l := (List.range 256).filter fun k => !s.coreRetired k
  let s := (List.range 256).foldl
    (fun s i => s.setReg (Reg.geomCoreMap i) (match l[i]? with | some k => 2 ^ 31 + k | none => i)) s
  (s.setField Reg.geomCores 8 0 l.length).setField Reg.geomCores 37 32 (s.fusesOf 5).length

/-- R521: the protections at step 7 of R513. -/
def State.setProtections (s : State) : State :=
  let job := Reg.hostJob
  let s := s.setProt true job (setBits (s.reg job) 63 63 0)
  let s := s.ringsUsed.foldl (fun s n => s.setProt true (Reg.ringCfg n) (setBits (s.reg (Reg.ringCfg n)) 62 62 0)) s
  let s := s.clearWindows true
  let s := s.dipCtlWrite true (setBits (s.reg Reg.dipCtl) 0 0 1)
  let s := ((List.range 84).filter s.unitOff).foldl
    (fun s u => if s.flag (Reg.unitState u) 2 then s else (s.setReg (Reg.unitState u) 0).noteProt true Reg.unitCmd (u + 2 ^ 16) u) s
  (s.setProt true Reg.memCtl (setBits (s.reg Reg.memCtl) 0 0 0)).setProt true Reg.memLarderCfg 0

/-- STARTUP_COMPLETE (R366, R509, R513 steps 5–8): `cores` are the cores that fail the self-tests, `ports` those that have trained, `bad` how many
entries of the fuse log fail their check. -/
def execStartupComplete (cores : List (Fin 256)) (ports : List PortUp) (bad : Nat) (s : State) : Host.Outcome State Fault Refusal :=
  if s.reg Reg.secBootStatus ≠ 4 || s.boot != 4 then .next s
  else
    let s := (List.range bad).foldl (fun s _ => let (f, s) := s.takeFree; s.internal 0 0 0 (f % 256) 0 0 0 0) s
    let s := ((cores.map fun k => k.val).foldl State.retireNoFuse s.loadCores).startTests
    let s := ((s.trainPorts ports).housesInvalid.setField Reg.fabEpoch 2 0 0).loadMap
    let s := (s.extend 5 s.geomData).setProtections
    let s := ((s.setReg Reg.geomEpoch 2).setFlag Reg.hostStatus 0 true).setReg Reg.secBootStatus 5
    .next { s with boot := 8 }.syncPower

/-! ## Wakes (R492) -/

/-- A stack that fails training at a wake leaves the table, and its contents are lost. -/
def State.stackDown (s : State) (st : Nat) : State :=
  if !s.flag Reg.geomStacks st then s
  else ((s.markStack st).stackOut st).loseMem fun p => decide (p < 2 ^ 41) && stackOf p == st

/-- WAKE_COMPLETE (R491, R492): the training of a wake is over; `failed` are the stacks whose training fails, `ports` the ports that have trained. A
wake from NAP trains neither. -/
def execWakeComplete (failed : List (Fin 16)) (ports : List PortUp) (s : State) : Host.Outcome State Fault Refusal :=
  if s.fieldOf Reg.powerStatus 2 0 ≠ 6 || !s.flag Reg.clkStatus 0 then .next s
  else if s.ready then .next (s.setPower 0).actHeld
  else
    let s := (s.trainPorts ports).tellFar
    let gone := (failed.map fun st => st.val).filter fun st => s.flag Reg.geomStacks st
    let s := if gone.isEmpty then s else (gone.foldl State.stackDown s).sumStacks.newEpoch
    .next ((s.setFlag Reg.hostStatus 0 true).setPower 0).actHeld

/-! ## Anti-rollback (R518) -/

/-- The counter rises by one. -/
def State.raiseCounter (s : State) : State :=
  let n := s.fieldOf Reg.secRollback 6 0 + 1
  ((s.blow 6 n n 0).setField Reg.secRollback 6 0 n).noteSecurity

/-- A write of SEC_ROLLBACK_REQ: a target above 64 is refused (R10). -/
def State.rollbackReq (s : State) (v : Nat) : State :=
  let t := bits v 6 0
  if !s.keeperRuns then s
  else if 64 < t then s.spent Reg.secRollbackReq
  else
    let n := min t (s.fieldOf Reg.secRollback 14 8) - s.fieldOf Reg.secRollback 6 0
    (List.range n).foldl (fun s _ => s.raiseCounter) s

/-- SEC_ROLLBACK_REQ (R518). -/
def execSecRollbackReq (v : Word) (s : State) : Host.Outcome State Fault Refusal := .next (s.rollbackReq v.toNat)

/-! ## Attestation (R520, R524) -/

/-- The bytes of the report before its signature. -/
def State.reportBytes (s : State) : List Byte :=
  let f := s.reg Reg.geomFuseCount
  let flags := b2n s.owned + 2 * b2n (s.flag Reg.dipCtl 0) + 4 * b2n s.production + 8 * b2n (s.flag Reg.fltLatch 0)
  leBytes 4 1 ++ leBytes 4 (50544 + 16 * f) ++ leBytes 8 (s.reg Reg.geomId) ++ deviceId ++
  (List.range 4).flatMap (fun i => leBytes 8 (s.reg (Reg.secNonce i))) ++ leBytes 8 s.now ++ leBytes 4 (s.reg Reg.geomFw) ++
  leBytes 4 (s.fieldOf Reg.secRollback 14 8) ++ leBytes 1 (s.fieldOf Reg.secRollback 6 0) ++ leBytes 1 (s.fieldOf Reg.secKeys 4 0) ++
  leBytes 1 (s.fieldOf Reg.secKeys 10 8) ++ leBytes 1 flags ++ leBytes 4 (s.fieldOf Reg.hostJob 31 0) ++ leBytes 8 (s.reg Reg.geomEpoch) ++
  identityPk ++ (List.range 8).flatMap s.meas ++ leBytes 4 f ++ leBytes 12 0 ++ s.fuseLog

/-- SEC_ATTEST takes a word: GO is ignored while BUSY is 1 and before keeper firmware runs. -/
def State.attestGo (s : State) (v : Nat) : State :=
  if !bit v 0 || s.flag Reg.secAttest 1 || !s.keeperRuns then s
  else
    { s.setReg Reg.secAttest 2 with report := some (s.fieldOf Reg.secAttestAddr 45 12 * 4096, s.reportBytes) }

/-- SEC_ATTEST_GO (R524). -/
def execSecAttestGo (v : Word) (s : State) : Host.Outcome State Fault Refusal := .next (s.attestGo v.toNat)

/-- ATTEST_DONE (R524): signing is over; the report is written to host memory. -/
def execAttestDone (s : State) : Host.Outcome State Fault Refusal :=
  match s.report with
  | none => .next s
  | some (a, bs) =>
    if !s.linkUp then .next s
    else
      let n := s.free
      let sig := (List.range 49856).map fun i => Sys2Proof.Config.identitySign n bs i
      .next (({ s with report := none, free := n + 1 }.hostStore a (bs ++ sig)).setReg Reg.secAttest 4)

/-- A write of SEC_EXTEND: measurement 6 is extended with SEC_EXT_DATA. -/
def State.secExtendWrite (s : State) (v : Nat) : State :=
  if bit v 0 then s.extend 6 ((List.range 8).flatMap fun i => leBytes 8 (s.reg (Reg.secExtData i))) else s

/-- SEC_EXTEND (R520). -/
def execSecExtend (v : Word) (s : State) : Host.Outcome State Fault Refusal := .next (s.secExtendWrite v.toNat)

/-! ## The test access port (R523) -/

/-- Whether the TAP offers an instruction. -/
def State.tapOffers (s : State) (op : TapOp) : Bool :=
  match op with
  | .bypass | .idcode => true
  | .sample | .extest => !s.flag Reg.secDebug 1
  | .other => !s.production

/-- The IDCODE. -/
def tapIdcode : Nat := 0x1254856F

/-- TAP_INSTRUCTION (R523): an instruction is shifted in; one that is not offered changes nothing. IDCODE answers the part's code. -/
def execTapInstruction (op : TapOp) (s : State) : Host.Outcome State Fault Refusal :=
  .next (if s.power && s.tapOffers op then
      { s with tapIr := op, out := s.out ++ [.tap (if op = .idcode then some tapIdcode else none)] }
    else s)

end Sys2Proof.Machine
end

