-- ==== Sys2Proof/Machine/Fabric.lean ====
section
/-! DEFINITION. The fabric (14_fabric.md, 15_house_memory_and_doors.md): cells that reach this room, their application and their answers,
combining, transit, retransmission, dead targets, and ports that train. -/

namespace Sys2Proof.Machine

/-! ## Answers -/

/-- The response to request `c`: its type, its status, its payload; `len` is the bytes it names. -/
def State.responseTo (s : State) (c : Cell) (ty aux : Nat) (payload : List Byte) : Cell :=
  cellSealed
    { dstHouse := c.srcHouse, dstRoom := c.srcRoom, dstUnit := 0, srcHouse := s.house, srcRoom := s.room,
      srcUnit := 0, hops := 0, spills := 0, ty := ty, old := false, epoch := s.activeB, retry := false,
      pass := c.pass, tag := c.tag, len := payload.length - 1, aux := aux, addr := 0, weight := 0,
      payload := payload, e2e := 0 }

/-- A response leaves, or waits for an output. -/
def State.respond (s : State) (c : Cell) (ty aux : Nat) (payload : List Byte) : State := s.sendCell (s.responseTo c ty aux payload)

/-- A response waits for an output that the slot leaves unassigned (R370). -/
def State.queueCell (s : State) (c : Cell) (ty aux : Nat) (payload : List Byte) : State :=
  { s with waiting := s.waiting ++ [s.responseTo c ty aux payload] }

/-! ## Applied requests (R375) -/

/-- Number of a requester's tag among the applied-request records. -/
def applyKey (c : Cell) : Nat := 131072 * c.srcRoom + c.tag

/-- The request has been applied: its old value, for an AMO. -/
def State.wasApplied (s : State) (c : Cell) : Option Nat :=
  match Tbl.get none s.applied (applyKey c) with
  | some (p, old) => if c.srcHouse = s.house && decide (c.ty ≠ 0) && p == c.pass then some old else none
  | none => none

/-- The record of an applied request of a room of this house. -/
def State.noteApplied (s : State) (c : Cell) (old : Nat) : State :=
  if c.srcHouse = s.house && c.ty != 0 then { s with applied := Tbl.set none s.applied (applyKey c) (some (c.pass, old)) } else s

/-! ## Memory requests (R389, R392, R395, R398) -/

/-- Element type, operation and contributions of an EATOMIC (R361). Contributions to a type of 16 bits that it does not hold
exactly travel as FP32, with bit 4 of `aux` set: R361 does not say in which type they do (log 122). -/
def eaType (c : Cell) : EType := (EType.ofCode (bits c.aux 15 8)).getD .int32
def eaOp (c : Cell) : Nat := bits c.aux 3 0
def eaWide (c : Cell) : Bool := bit c.aux 4
def eaFrom (c : Cell) : EType := if eaWide c then .fp32 else eaType c
def eaParts (c : Cell) : List Nat :=
  let n := (eaFrom c).width / 8
  (List.range ((c.len + 1) / max n 1)).map fun i => leNat (((cellValid c).drop (i * n)).take n)

/-- Bytes a memory request touches. -/
def reqLen (c : Cell) : Nat :=
  match c.ty with
  | 0 => c.len + 1
  | 2 => amoWidth (bits c.aux 3 0)
  | 1 => c.len + 1
  | _ => if eaWide c then (c.len + 1) / 4 * ((eaType c).width / 8) else c.len + 1

/-- What a window must grant. -/
def reqWant (c : Cell) : Want := if c.ty = 0 then .read else if c.ty = 1 then .write else .atomic

/-- R389: the region admits the kind. -/
def regionAdmits (ty o : Nat) : Bool :=
  match regionOf o with
  | some .dram | some (.larder _) => true
  | some (.scratch _) | some (.landing _) => decide (ty ≤ 1)
  | some (.cistern _) => ty == 0
  | _ => false

/-- R335, R389, R392: the target refuses the request. -/
def State.refuses (s : State) (c : Cell) : Bool :=
  let o := aOff c.addr
  !regionAdmits c.ty o || !s.mappedMem o (reqLen c) ||
  ((c.srcHouse != s.house || c.srcRoom != s.room) && !s.inAdmits c.srcHouse c.srcRoom o (reqLen c) (reqWant c))

/-- A request refused at the target: its count and its record, which names the source (R392, R497); `p` is the port it arrived on. -/
def State.noteRefused (s : State) (p : Nat) (c : Cell) : State :=
  (s.incReg Reg.fabInboundRefused 1).raise stDenied 0 7 p (mkAddr s.house s.room (aOff c.addr)) (c.srcHouse + c.srcRoom * 2 ^ 16)

/-- A memory request is applied at its home slice: the state, the status of its response, and its payload. -/
def State.applyMem (s : State) (c : Cell) : State × Nat × List Byte :=
  let o := aOff c.addr
  let st := fun (b : Bool) => if b then stDead else stOk
  match c.ty with
  | 0 => (s.readNotes 0 o (reqLen c), st (s.rangeBad o (reqLen c)), s.memBytes o (reqLen c))
  | 1 => (s.memWrite 0 o (cellValid c), stOk, [])
  | 2 =>
    let (s, old, b) := s.amoApply 0 o (bits c.aux 3 0) (leNat (c.payload.take 8)) (leNat ((c.payload.drop 8).take 8))
    (s.noteApplied c old, st b, leBytes 8 old)
  | _ =>
    let (s, b) := s.eatomic 0 (eaType c) (eaFrom c) (eaOp c) c.weight o (eaParts c)
    (s, st b, [])

/-- The part serves no memory request: in NAP, DEEP, protected off, or waking (R493). -/
def State.dormant (s : State) : Bool := decide (2 ≤ s.fieldOf Reg.powerStatus 2 0) && s.fieldOf Reg.powerStatus 2 0 != 5

/-- R17: the fabric die of port `p` cannot reach the home slice of a request's bytes, so that it ends as one to a dead target does. -/
def State.requestCut (s : State) (p : Nat) (c : Cell) : Bool :=
  !s.pkgDown.isEmpty && (unitsOf 64 (aOff c.addr) (reqLen c)).any fun u => s.fabCut (portDie p) u

/-- A memory request of another room is served (R375, R392, R493): in NAP it is refused as to a dead target; a duplicate is answered from
its record. -/
def State.serveReq (s : State) (p : Nat) (c : Cell) : State :=
  if s.dormant then s.respond c 0xA stDead []
  else
    match s.wasApplied c with
    | some old => (s.incReg Reg.fabDupRequests 1).respond c 9 stOk (if c.ty = 2 then leBytes 8 old else [])
    | none =>
      if s.refuses c then (s.noteRefused p c).respond c 0xA stDenied []
      else if s.requestCut p c then (s.incReg Reg.fabTimeouts 1).respond c 0xA stDead []
      else
        let (s, st, bs) := s.applyMem c
        (if c.ty = 1 || c.ty = 3 then s.noteApplied c 0 else s).respond c (if c.ty = 0 then 8 else 9) st bs

/-! ## Arrival (R361–R363) -/

/-- Types R361 lists, and receivers R362 lists. -/
def knownTy (t : Nat) : Bool := decide (t ≤ 4) || t == 8 || t == 9 || t == 0xA || t == 0xF
def knownUnit (u : Nat) : Bool := decide (u ≤ 16) || u == 63

/-- The cell is for this room. -/
def State.forHere (s : State) (c : Cell) : Bool := c.dstHouse == s.house && c.dstRoom == s.room

/-- R361, R362: a cell for this room that is discarded: its type or its unit is not listed, the address of a memory request names another
room, a type reaches a unit that takes none of it, or an element atomic has no such operation. -/
def badCell (c : Cell) : Bool :=
  !knownTy c.ty || !knownUnit c.dstUnit || (decide (c.ty ≤ 3) && (bits c.addr 45 41 != c.dstRoom || c.dstUnit != 0)) ||
  (c.ty == 4 && (c.dstUnit == 0 || c.dstUnit == 63)) || (decide (8 ≤ c.ty) && decide (c.ty ≤ 0xA) && c.dstUnit != 0) ||
  (c.ty == 0xF && c.dstUnit != 63) ||
  (c.ty == 3 && ((EType.ofCode (bits c.aux 15 8)).isNone || !elemOk (eaType c) (eaOp c)))

/-- A cell of type `ty` for this room arrives on port `p` and is given to `f`, unless its checksum is wrong or it is discarded. -/
def State.takeCell (s : State) (p ty : Nat) (c : Cell) (f : State → State) : State :=
  if !s.portTakes p || !s.forHere c then s
  else if !cellIntact c then s.incReg Reg.fabE2eErrors 1
  else if badCell c then s.incReg Reg.fabBadCells 1
  else if c.ty = ty then f s
  else s

/-- A cell for another house that R364 gives to this room's door engine (R403, R405): a LOAD or AMO is refused, other requests are packed. -/
def State.doorTake (s : State) (c : Cell) : State :=
  if c.ty = 0 || c.ty = 2 then (s.incReg Reg.doorLoadsRefused 1).queueCell c 0xA stRemote []
  else if s.doorOff c then s.queueCell c 0xA stCancelled []
  else if c.ty = 1 || c.ty = 3 || c.ty = 4 then s.packDoor c
  else s

/-- The table a cell is routed by (R382). The Bool says that its own was out of use. -/
def State.tableFor (s : State) (c : Cell) : Bool × Bool :=
  if c.epoch != s.activeB && !s.flag Reg.fabEpoch 2 then (s.activeB, true) else (c.epoch, false)

/-- A request that arrives for another house and that this room's door engine takes: one at the hop limit is discarded (R371), and one whose
table is out of use counts (R382). -/
def State.throughDoor (s : State) (p ty : Nat) (c : Cell) : State :=
  if c.dstHouse != s.house && c.ty == ty && s.portTakes p && s.way (s.tableFor c).1 c.dstHouse c.dstRoom = .door then
    if 63 ≤ c.hops then s.incReg Reg.fabDrops 1
    else ((if (s.tableFor c).2 then s.incReg Reg.fabStaleEpoch 1 else s).doorTake c).portsChanged
  else s

/-- A request arrives on port `p`: for this room, or on its way to another house. -/
def State.request1 (s : State) (ty : Nat) (a : Arrival) : State :=
  if a.cell.dstHouse = s.house then s.takeCell a.port ty a.cell fun s => s.serveReq a.port a.cell
  else s.throughDoor a.port ty a.cell

/-- Those of `more` that may join cell `c` in this room's crossbar by `f`, and the others. -/
def State.joinable (s : State) (c : Cell) (f : Cell → Cell → Bool) (more : List Arrival) : List Arrival × List Arrival :=
  more.partition fun a =>
    s.flag Reg.fabCtl 0 && s.forHere c && s.forHere a.cell && cellIntact c && cellIntact a.cell && !badCell c && !badCell a.cell &&
    s.portTakes a.port && f c a.cell

/-- LOAD (R379, R392, R395): a LOAD reaches this room on port `p`; `more` are the requests that reach the same crossbar within 64 ns of it,
and those that can be combined with it are read with it, where the fabric die has a combining to open. -/
def execLoad (p : Fin 40) (c : Cell) (more : List Arrival) (s : State) : Host.Outcome State Fault Refusal :=
  let (join, rest) := if s.combRoom (portDie p) then s.joinable c combines more else ([], more)
  let s := if join.isEmpty then s else s.incReg Reg.fabReadsCombined join.length
  let all := (Arrival.mk p c false) :: join
  let s :=
    if join.isEmpty || s.dormant then all.foldl (fun s a => s.request1 0 a) s
    else
      let (no, yes) := all.partition fun a => s.refuses a.cell
      let s := no.foldl (fun s a => s.request1 0 a) s
      match yes with
      | [] => s
      | a :: _ =>
        let (t, st, bs) := s.applyMem a.cell
        yes.foldl (fun t x => t.respond x.cell 8 st bs) t
  .next (rest.foldl (fun s a => s.request1 a.cell.ty a) s)

/-- STORE (R395, R405): a STORE reaches this room, or its door. -/
def execStore (p : Fin 40) (c : Cell) (s : State) : Host.Outcome State Fault Refusal := .next (s.request1 1 ⟨p, c, false⟩)

/-- Operations of an AMO that combine (R380): ADD, AND, OR, XOR, SMAX, SMIN, UMAX, UMIN, ADD32. -/
def amoCombines (a b : Cell) : Bool :=
  let sub := bits a.aux 3 0
  a.ty == 2 && b.ty == 2 && a.addr == b.addr && a.len == b.len && a.epoch == b.epoch && sub == bits b.aux 3 0 && decide (2 ≤ sub) && decide (sub ≤ 0xA)

/-- Operations of an EATOMIC that combine (R380). -/
def State.eaCombines (s : State) (a b : Cell) : Bool :=
  let t := eaType a
  let op := eaOp a
  a.ty == 3 && b.ty == 3 && a.addr == b.addr && a.len == b.len && a.epoch == b.epoch && bits a.aux 15 8 == bits b.aux 15 8 && op == eaOp b &&
  (((op == 0 || op == 4) && t.isInt) || op == 2 || op == 3 || (decide (op ≤ 1) && t = .fp32 && s.flag Reg.fabCtl 1))

/-- Requests of a group that are answered by themselves, and those that are combined: neither duplicates nor refused. -/
def State.mergeable (s : State) (all : List Arrival) : List Arrival × List Arrival :=
  all.partition fun a => (s.wasApplied a.cell).isSome || s.refuses a.cell

/-- Combined AMOs (R380): one atomic is applied, and requester j gets the old value with the operands before its own applied. -/
def State.amoTogether (s : State) (l : List Arrival) : State :=
  match l with
  | [] => s
  | a :: as =>
    let sub := bits a.cell.aux 3 0
    let arg := fun (c : Cell) => leNat (c.payload.take 8)
    let w := 2 ^ (8 * amoWidth sub)
    let sum := as.foldl (fun v x => amoNew sub v (arg x.cell) 0 % w) (arg a.cell)
    let (s, old, b) := s.amoApply 0 (aOff a.cell.addr) sub sum 0
    (l.foldl
      (fun (s, v) x =>
        let mine := if b then 2 ^ 64 - 1 else v
        (((s.noteApplied x.cell mine).respond x.cell 9 (if b then stDead else stOk) (leBytes 8 mine)), amoNew sub v (arg x.cell) 0 % w))
      (s.incReg Reg.fabAtomicsCombined as.length, old)).1

/-- AMO (R380, R398): an AMO reaches this room with those that can be combined with it. -/
def execAmo (p : Fin 40) (c : Cell) (more : List Arrival) (s : State) : Host.Outcome State Fault Refusal :=
  let (join, rest) := s.joinable c amoCombines more
  let all := (Arrival.mk p c false) :: join
  let s :=
    if join.isEmpty || s.dormant then all.foldl (fun s a => s.request1 2 a) s
    else
      let (alone, group) := s.mergeable all
      let s := alone.foldl (fun s a => s.request1 2 a) s
      match group with
      | [a] => s.request1 2 a
      | _ => s.amoTogether group
  .next (rest.foldl (fun s a => s.request1 a.cell.ty a) s)

/-- The combined operand of element `i` (R380): exact for integers, maxima and minima; for FP32 additions the exact weighted sum, rounded
once by RNE. -/
def eaSum (l : List Cell) (i : Nat) : Nat :=
  match l with
  | [] => 0
  | c :: cs =>
    let t := eaType c
    let part := fun (x : Cell) => (eaParts x).getD i 0
    if t = .fp32 && decide (eaOp c ≤ 1) then
      let term := fun (x : Cell) => if eaOp c = 1 then (v32 x.weight).mul (v32 (part x)) else v32 (part x)
      EType.rne .fp32 (cs.foldl (fun v x => v.add (term x)) (term c))
    else cs.foldl (fun v x => elemNew t t (eaOp c) v (part x) 0) (part c)

/-- Combined element atomics. -/
def State.eaTogether (s : State) (l : List Arrival) : State :=
  match l with
  | [] => s
  | a :: as =>
    let c := a.cell
    let t := eaType c
    let op := if eaOp c = 1 then 0 else eaOp c
    let sums := (List.range (eaParts c).length).map (eaSum (l.map Arrival.cell))
    let (s, b) := s.eatomic 0 t t op 0 (aOff c.addr) sums
    l.foldl (fun s x => (s.noteApplied x.cell 0).respond x.cell 9 (if b then stDead else stOk) []) (s.incReg Reg.fabAtomicsCombined as.length)

/-- EATOMIC (R348, R380): an element atomic reaches this room with those that can be combined with it. -/
def execEatomic (p : Fin 40) (c : Cell) (more : List Arrival) (s : State) : Host.Outcome State Fault Refusal :=
  let (join, rest) := s.joinable c s.eaCombines more
  let all := (Arrival.mk p c false) :: join
  let s :=
    if join.isEmpty || s.dormant then all.foldl (fun s a => s.request1 3 a) s
    else
      let (alone, group) := s.mergeable all
      let s := alone.foldl (fun s a => s.request1 3 a) s
      match group with
      | [a] => s.request1 3 a
      | _ => s.eaTogether group
  .next (rest.foldl (fun s a => s.request1 a.cell.ty a) s)

/-- MSG (R362, R375): a message reaches its unit and is acknowledged, once applied. What the message does at a Sluice, a collective engine or a
door engine is the event named after it; a pool operation (R327) is applied here. -/
def execMsg (p : Fin 40) (c : Cell) (op : Option PoolMsg) (s : State) : Host.Outcome State Fault Refusal :=
  .next (if c.dstHouse = s.house then
      s.takeCell p 4 c fun s =>
        if 1 ≤ c.dstUnit && c.dstUnit ≤ 4 && (List.range 4).all (fun q => s.unitOff (68 + q)) then s.respond c 0xA stDead []
        else match s.wasApplied c with
        | some _ => (s.incReg Reg.fabDupRequests 1).respond c 9 stOk []
        | none =>
          let s := match op with
            | some m => if 13 ≤ c.dstUnit && c.dstUnit ≤ 16 then s.poolMsg c.srcHouse c.srcRoom m else s
            | none => s
          (s.noteApplied c 0).respond c 9 stOk []
    else s.throughDoor p 4 c)

/-- MGMT (R361, R490): a management message reaches keeper firmware; it wakes the part from IDLE and NAP. -/
def execMgmt (p : Fin 40) (c : Cell) (s : State) : Host.Outcome State Fault Refusal :=
  .next (s.takeCell p 0xF c fun s => s.wakeSource 2 true [1, 2])

/-! ## Responses (R376, R379, R392, R396) -/

/-- The outstanding request a response answers. -/
def State.answered (s : State) (c : Cell) : Option Nat := s.reqs.findIdx? fun r => !r.held && r.cell.tag == c.tag && r.cell.pass == c.pass

/-- The effect of a response on the request it answers. -/
def answerOf (r : Req) (c : Cell) : Answer :=
  match c.ty with
  | 8 => .data c.payload (c.aux == stDead)
  | 9 => if r.cell.ty = 2 then .data c.payload (c.aux == stDead) else if c.aux = stDead then .dead else .done
  | _ => if c.aux = stDead then .dead else .refused c.aux

/-- A response completes the request at index `i`, and those that were combined with it (R379). -/
def State.complete (s : State) (i : Nat) (c : Cell) : State :=
  match s.reqs[i]? with
  | none => s
  | some r =>
    let combs := s.combs.filter fun b => b.tag == r.cell.tag
    let s := ({ s with combs := s.combs.filter fun b => b.tag != r.cell.tag }).endReq i (answerOf r c)
    (combs.flatMap Comb.members).foldl
      (fun s m =>
        if m.srcHouse = s.house && m.srcRoom = s.room then
          match s.answered m with
          | some j => s.endReq j (answerOf r c)
          | none => s
        else s.respond m c.ty c.aux c.payload)
      s

/-- A response arrives: the tracker takes one for each tag and PASS, and discards the others (R376). -/
def State.response (s : State) (p ty : Nat) (c : Cell) : State :=
  s.takeCell p ty c fun s =>
    match s.answered c with
    | some i => s.complete i c
    | none => s.incReg Reg.fabStaleResp 1

/-- DATA (R376, R379). -/
def execData (p : Fin 40) (c : Cell) (s : State) : Host.Outcome State Fault Refusal := .next (s.response p 8 c)

/-- ACK (R376, R396). -/
def execAck (p : Fin 40) (c : Cell) (s : State) : Host.Outcome State Fault Refusal := .next (s.response p 9 c)

/-- REFUSED (R376, R392, R493). -/
def execRefused (p : Fin 40) (c : Cell) (s : State) : Host.Outcome State Fault Refusal := .next (s.response p 0xA c)

/-! ## Transit (R364–R372) -/

/-- Priority order of R367. -/
def outranks (a b : Cell) : Bool :=
  let ka := a.srcHouse * 2 ^ 24 + a.srcRoom * 2 ^ 18 + a.tag
  let kb := b.srcHouse * 2 ^ 24 + b.srcRoom * 2 ^ 18 + b.tag
  if a.old != b.old then a.old
  else if a.hops != b.hops then decide (b.hops < a.hops)
  else if a.spills != b.spills then decide (b.spills < a.spills)
  else decide (ka ≤ kb)

/-- Puts an arrival in its place. -/
def rankIn (a : Arrival) : List Arrival → List Arrival
  | [] => [a]
  | b :: l => if outranks a.cell b.cell then a :: b :: l else b :: rankIn a l

/-- A port takes a cell that arrived on another port of die `die`: it is in service and free, and R17 leaves the crossbar a way to it (log
120). -/
def State.portOpen (s : State) (die : Nat) (idle used : List Nat) (p : Nat) : Bool :=
  s.portIn p && !used.contains p && !s.portShut idle p && !s.fabFabCut die (portDie p)

/-- An arriving cell spills (R368): to another port, else to its own, where a slow port may hold it (R369). Where an earlier cell of the slot has
taken even its own port, it leaves on that port all the same: every arriving cell leaves in the next slot (log 117). -/
def State.spillFrom (s : State) (idle used : List Nat) (p : Nat) (c : Cell) : State × List Nat :=
  match s.spillPort (portDie p) fun q => q != p && s.portOpen (portDie p) idle used q with
  | some q => (s.spill (portDie p) q c, q :: used)
  | none =>
    let n := min (c.spills + 1) 15
    let c' := { c with spills := n, old := c.old || decide (8 ≤ n) }
    let s' := s.incReg Reg.fabSpills 1
    let s' := if n = 8 && !c.old then s'.incReg Reg.fabOldMarked 1 else s'
    let s' := { s' with lastSpill := Tbl.set 30 s'.lastSpill (portDie p) p }
    if s.portShut idle p then ({ s' with slowOut := Tbl.modify [] s'.slowOut p (· ++ [c']) }, p :: used)
    else (s'.emit p c', p :: used)

/-- A cell of another room of this house that reaches this room unspilled, and that this room's place in the spreading of R378 does not
explain, came by a wrong port (R364). -/
def State.strayed (s : State) (c : Cell) : Bool :=
  c.dstHouse == s.house && c.spills == 0 &&
  !(s.flag Reg.memCtl 0 && decide (c.ty ≤ 3) && mix 0 1 0 (c.addr % 2 ^ 41 / 256) % 32 == s.room)

/-- A LOAD in transit is absorbed by an open combining, or goes on as this room's own request and opens one (R379): the cell that goes on. -/
def State.combTransit (s : State) (p : Nat) (c : Cell) : State × Option Cell :=
  if c.ty ≠ 0 || c.retry || !cellIntact c || c.dstHouse ≠ s.house || !s.flag Reg.fabCtl 0 then (s, some c)
  else
    match s.absorb (portDie p) c with
    | (s, true) => (s, none)
    | (s, false) =>
      if !s.combRoom (portDie p) then (s, some c)
      else
        match s.freeTag with
        | none => (s, some c)
        | some t =>
          let pass := !Tbl.get false s.passes t
          let d := cellSealed { c with srcHouse := s.house, srcRoom := s.room, srcUnit := 0, tag := t, pass := pass }
          let s := { s with nextTag := (t + 1) % 131072, passes := Tbl.set false s.passes t pass, reqs := s.reqs ++ [Req.mk d .comb false true false] }
          (s.openComb (portDie p) t c, some d)

/-- One arriving cell is assigned its output (R364, R367, R368, R371, R382). -/
def State.transit (s : State) (idle used : List Nat) (a : Arrival) : State × List Nat :=
  if s.forHere a.cell then
    if a.full then (s.incReg Reg.fabEjectRefused 1).spillFrom idle used a.port a.cell else (s, used)
  else if 63 ≤ a.cell.hops then (s.incReg Reg.fabDrops 1, used)
  else
    let (b, stale) := s.tableFor a.cell
    let s := if stale then s.incReg Reg.fabStaleEpoch 1 else s
    match s.way b a.cell.dstHouse a.cell.dstRoom with
    | .miss => (s.incReg Reg.fabRouteMiss 1, used)
    | .door => (s.doorTake a.cell, used)
    | w =>
      let s := if s.strayed a.cell then s.incReg Reg.fabRouteMiss 1 else s
      match s.combTransit a.port a.cell with
      | (s, none) => (s, used)
      | (s, some c) =>
        match w with
        | .port q =>
          if s.portOpen (portDie a.port) idle used q || (q == a.port && s.portIn q && !used.contains q && !s.portShut idle q) then (s.emit q c, q :: used)
          else s.spillFrom idle used a.port c
        | _ => s.spillFrom idle used a.port c

/-- The output registers of slow ports that are up send in the slots in which their ports do (R369). -/
def State.slowSend (s : State) (idle : List Nat) : State × List Nat :=
  (s.slowOut.filter fun e => !idle.contains e.1 && s.flag (Reg.fabPortStatus e.1) 0).foldl
    (fun (s, used) e => (({ s with slowOut := Tbl.erase s.slowOut e.1 }).emitAll e.1 e.2, e.1 :: used)) (s, [])

/-- CELL_TRANSIT (R364–R372, R378, R379, R382): the cells that arrive on house ports in one slot leave in the next; `idle` names the slow
ports that do not send in it. Cells that this room ejects are the events named after their types. -/
def execCellTransit (arrivals : List Arrival) (idle : List Nat) (s : State) : Host.Outcome State Fault Refusal :=
  let l := (arrivals.filter fun a => decide (a.port < 31) && s.portTakes a.port).foldl (fun l a => rankIn a l) []
  let (s, used) := s.slowSend idle
  let (s, used) := l.foldl (fun (s, used) a => s.transit idle used a) (s, used)
  .next (s.flushAll ⟨true, idle, used⟩)

/-! ## Retransmission and dead targets (R373, R399–R401, R542) -/

/-- REQUEST_RETRANSMIT (R373): RETRY_US has passed since the request with tag `t` was last sent, and it is sent again. -/
def execRequestRetransmit (t : Fin 131072) (s : State) : Host.Outcome State Fault Refusal :=
  match s.reqs.findIdx? fun r => !r.held && r.sent && !r.door && r.cell.tag == t.val with
  | none => .next s
  | some i =>
    match s.reqs[i]? with
    | none => .next s
    | some r =>
      let c := { r.cell with retry := true, epoch := s.activeB }
      match s.inject housePorts [] c with
      | (t, some _) => .next ((({ t with reqs := t.reqs.set i { r with cell := c } }).noteSent r.cell.tag).incReg Reg.fabRetries 1)
      | (_, none) => .next s

/-- Every outstanding request to a room of this house ends as to a dead target (R400). -/
def State.endAll : Nat → State → Nat → State
  | 0, s, _ => s
  | n + 1, s, room =>
    match s.reqs.findIdx? fun r => r.cell.dstHouse == s.house && r.cell.dstRoom == room with
    | none => s
    | some i =>
      State.endAll n ((({ s with combs := match s.reqs[i]? with
        | some r => s.combs.filter fun b => b.tag != r.cell.tag
        | none => s.combs }).incReg Reg.fabTimeouts 1).endReq i .dead) room

/-- TARGET_TIMEOUT (R399–R401): TARGET_US has passed since the request with tag `t` was given it; its room is dead. -/
def execTargetTimeout (t : Fin 131072) (s : State) : Host.Outcome State Fault Refusal :=
  match s.reqs.find? fun r => !r.held && r.cell.tag == t.val && r.cell.dstHouse == s.house with
  | none => .next s
  | some r =>
    let room := r.cell.dstRoom
    let s := if s.roomDead room then s else (s.setFlag Reg.fabRoomDead room true).deadRecord r.cell
    .next (s.endAll s.reqs.length room).roomsLost

/-- HOUSE_REQUEST_TIMEOUT (R542): DOOR_TARGET_US has passed since the request with tag `t`, for another house, was given it, and no message
contains it. -/
def execHouseRequestTimeout (t : Fin 131072) (s : State) : Host.Outcome State Fault Refusal :=
  match s.reqs.findIdx? fun r => !r.held && r.cell.tag == t.val && r.cell.dstHouse != s.house && !r.door with
  | none => .next s
  | some i =>
    match s.reqs[i]? with
    | none => .next s
    | some r => .next (((s.incReg Reg.fabTimeouts 1).deadRecord r.cell).endReq i .dead).roomsLost

/-! ## Training (R358) -/

/-- Closed messages that have not left are tried again (R409). -/
def State.doorsGo (s : State) : State := s.doorMsgs.foldl (fun s m => s.trySend m) s

/-- PORT_TRAINED (R358, R359, R490): port `p` trains, reports its far end, and may go at a lower rate; it wakes the part from NAP. -/
def execPortTrained (p : Fin 40) (house : Fin 65536) (room : Fin 32) (port : Fin 40) (slow : Bool) (s : State) :
    Host.Outcome State Fault Refusal :=
  let st := s.fieldOf Reg.powerStatus 2 0
  .next (if st = 3 || st = 4 || st = 6 || !s.ready then s
    else ((({ s with doorUsed := Tbl.set 0 s.doorUsed p 0 }).portTrain p house room port slow).doorsGo).wakeSource 8 false [2])

end Sys2Proof.Machine
end

