-- ==== Sys2Proof/Machine/Doors.lean ====
section
/-! DEFINITION. The doors (15_house_memory_and_doors.md R403–R410): bulk messages that leave, arrive, are applied in order and are
acknowledged, their resends and time-outs, and the bulk get. -/

namespace Sys2Proof.Machine

/-- A kept message by its number. -/
def State.doorMsg (s : State) (id : Nat) : Option DoorMsg := s.doorMsgs.find? fun m => m.id == id

/-! ## Messages that arrive (R406, R408) -/

/-- The message fits its header (R408). -/
def msgSound (m : BulkMsg) : Bool := m.cells.length == m.count && decide (m.count ≤ 511) && msgCrc m.cells == m.crc

/-- A response that a message of this room carries back for a contained request. -/
def backCell (s : State) (c : Cell) (ty aux : Nat) : Cell :=
  cellSealed
    { dstHouse := c.srcHouse, dstRoom := c.srcRoom, dstUnit := 0, srcHouse := s.house, srcRoom := s.room, srcUnit := 0,
      hops := 0, spills := 0, ty := ty, old := false, epoch := s.activeB, retry := false, pass := c.pass, tag := c.tag,
      len := 0, aux := aux, addr := 0, weight := 0, payload := [], e2e := 0 }

/-- An acknowledgement of message `seq` leaves; it carries a REFUSED cell for each contained request that was refused. -/
def State.ackMsg (s : State) (m : BulkMsg) (back : List Cell) : State :=
  let (s, a) := s.newMsg m.engine m.srcHouse m.srcRoom s.room 4 back
  let a := { a with arg0 := m.seq }
  (s.updMsg a).closeMsg a

/-- The contained requests of a WRITE are applied in cell order, under the windows (R392, R408): the state and what goes back. -/
def State.applyCells (s : State) (m : BulkMsg) : State × List Cell :=
  m.cells.foldl
    (fun (s, back) c =>
      if badCell c || (c.ty != 1 && c.ty != 3) then (s.incReg Reg.fabBadCells 1, back)
      else if s.refuses c then (s.noteRefused m.port c, back ++ [backCell s c 0xA stDenied])
      else
        let (s, st, _) := s.applyMem c
        (s, if st = stOk then back else back ++ [backCell s c 0xA st]))
    (s, [])

/-! ## The bulk get (R410) -/

/-- Bytes of the elements of a tensor in a stream, and of its scale planes. -/
def streamBytes (d : TDesc) : Nat × Nat :=
  (cdiv (sizeOf_ d.size * d.ty.width) 8, sizeOf_ (d.size.drop 2) * d.block.planeBytes (d.size.getD 1 1) (d.size.getD 0 1))

/-- Pieces of at most `n` bytes. -/
def pieces (n : Nat) (bs : List Byte) : List (List Byte) := (List.range (cdiv bs.length n)).map fun i => (bs.drop (i * n)).take n

/-- A GET_DATA message with bytes of the stream, the first at linear index `first`. -/
def State.sendData (s : State) (m : BulkMsg) (c : Cell) (aux first : Nat) (bs : List Byte) : State :=
  let cells := (pieces 128 bs).map fun p => cellSealed { backCell s c 8 aux with len := p.length - 1, payload := p }
  let (s, d) := s.newMsg m.engine m.srcHouse m.srcRoom s.room 2 cells
  let d := { d with arg0 := first }
  (s.updMsg d).closeMsg d

/-- A GET_REQ at the far room: its windows are checked for READ, its source is read in linear order, the scales after the elements, and the
bytes go back. -/
def State.serveGet (s : State) (m : BulkMsg) : State × List Cell :=
  let c := m.cells.headD (DoorMsg.headCell ⟨0, 0, 0, 0, 0, 0, 0, 0, false, [], 0, 0, false, false, false, none⟩ false)
  match parseTD c.payload with
  | none => (s, [backCell s c 0xA stInvalid])
  | some d =>
    let t : Tensor := ⟨d, 0, [⟨d.base, 0, d.size.headD 0, 0, d.scaleBase, 0⟩]⟩
    let bad := !d.ok false || d.owned || t.extents.any fun e =>
      !s.isLocal e.1 || !s.mappedMem (aOff e.1) e.2 || !s.inAdmits m.srcHouse m.srcRoom (aOff e.1) e.2 .read
    if bad then
      ((s.incReg Reg.fabInboundRefused 1).raise stDenied 0 7 m.port (mkAddr s.house s.room (aOff d.base)) (m.srcHouse + m.srcRoom * 2 ^ 16),
        [backCell s c 0xA stDenied])
    else
      let ixs := ((allIdx d.size).drop m.arg0).take m.arg1
      let codes := ixs.map fun ix => s.tcode Slot.none t ix
      let dead := s.elemsDead Slot.none t ixs
      let plane := if d.block.scaled then t.blocks.map fun b => BitVec.ofNat 8 (s.tscale Slot.none t (b.headD [])) else []
      let s := s.noteElems 0 t ixs
      let aux := if dead then stDead else stOk
      let per := 511 * 128
      let s := (pieces per (rowCodes d.ty codes)).zipIdx.foldl (fun s p => s.sendData m c aux (m.arg0 + p.2 * per * 8 / d.ty.width) p.1) s
      ((pieces per plane).zipIdx.foldl (fun s p => s.sendData m c aux (sizeOf_ d.size + p.2 * per) p.1) s, [])

/-- The place of the scale byte of an element in a stream. -/
def streamScale (d : TDesc) (ix : List Nat) : Nat :=
  let r := d.size.getD 1 1
  let c := d.size.getD 0 1
  (streamBytes d).1 + linAt (d.size.drop 2) (ix.drop 2) * d.block.planeBytes r c + d.block.scaleIx c (ix.getD 1 0) (ix.getD 0 0)

/-- Every byte of an element, and of its scale, has been received. -/
def Get.has (g : Get) (ix : List Nat) : Bool :=
  let d := g.src.d
  let o := linAt d.size ix * d.ty.width / 8
  ((List.range (max 1 (d.ty.width / 8))).all fun j => g.got.any fun c => c.1 == o + j) &&
  (!d.block.scaled || g.got.any fun c => c.1 == streamScale d ix)

/-- What a bulk get reads of its source at an index: from the bytes received; the error value where none came. -/
def Get.read (g : Get) (ix : List Nat) : Nat × Nat × FVal :=
  let d := g.src.d
  let n := linAt d.size ix
  let code := if d.ty = .fp4 then (cellByte g.got (n / 2)).toNat / 16 ^ (n % 2) % 16
    else leNat ((List.range (d.ty.width / 8)).map fun j => cellByte g.got (n * (d.ty.width / 8) + j))
  let sc := if d.block.scaled then (cellByte g.got (streamScale d ix)).toNat else 0
  (code, sc, if d.block.scaled then scaledVal d.ty code sc else d.ty.val code)

/-- The destination of a bulk get that has timed out (R410): what has been received is written under the permutation and the conversion; of the rest,
elements and the scales of their blocks, every byte is the error value. -/
def State.getWrite (s : State) (g : Get) : State :=
  let v := s.slot g.slot
  let has := fun (ix : List Nat) => g.has (v.mvFrom ix)
  let (codes, scales, evs) := v.mvData g.src g.dst g.read
  let gone := fun (ix : List Nat) => (g.dst.blocks.find? fun b => b.contains ix).any fun b => b.any fun x => !has x
  let s := if evs.isEmpty then s else s.countConv g.dst.d.ty ((((allIdx g.dst.d.size).zip evs).filter fun e => has e.1).map Prod.snd)
  (s.putRuns g.slot 4 (g.dst.runs (codes.map fun e => (e.1, if has e.1 then e.2 else 2 ^ g.dst.d.ty.width - 1)))).putRuns g.slot 4
    (g.dst.scaleRuns (scales.map fun e => (e.1, if gone e.1 then 0xFF else e.2)))

/-- A bulk get is over: its destination is written and its MOVE ends, unless it has ended before. -/
def State.getOver (s : State) (g : Get) (dead : Bool) : State :=
  let v := s.slot g.slot
  if v.stage = .started then
    let t := if dead then s.getWrite g else s.mvWrite g.slot v g.src g.dst g.read
    (t.setSlot g.slot { t.slot g.slot with dead := (t.slot g.slot).dead || dead }).endSlot g.slot stOk 0
  else s

/-- All bytes of a bulk get have come: some of them may be error values that the far room has read (R71). -/
def State.getDone (s : State) (g : Get) : State :=
  let t := if (s.slot g.slot).stage = .started then s.setSlot g.slot { s.slot g.slot with dead := (s.slot g.slot).dead || g.bad } else s
  t.getOver g false

/-- GET_DATA bytes reach the get they belong to; when all have come it is over. -/
def State.takeData (s : State) (m : BulkMsg) : State :=
  let tag := (m.cells.headD (backCell s (DoorMsg.headCell ⟨0, 0, 0, 0, 0, 0, 0, 0, false, [], 0, 0, false, false, false, none⟩ false) 8 0)).tag
  match s.doorMsgs.find? fun d => d.kind == 1 && d.id % 131072 == tag && d.house == m.srcHouse && d.room == m.srcRoom with
  | none => s
  | some d =>
    match d.get with
    | none => s
    | some g =>
      let n := sizeOf_ g.src.d.size
      let at_ := if m.arg0 < n then m.arg0 * g.src.d.ty.width / 8 else (streamBytes g.src.d).1 + (m.arg0 - n)
      let bs := m.cells.flatMap Cell.payload
      let g := { g with got := g.got ++ bs.zipIdx.map (fun e => (at_ + e.2, e.1)), bad := g.bad || m.cells.any fun c => c.aux == stDead }
      let total := (streamBytes g.src.d).1 + (streamBytes g.src.d).2
      if (List.range total).all fun j => g.got.any fun c => c.1 == j then (s.dropMsg d.id).getDone g
      else s.updMsg { d with get := some g }

/-! ## Order (R408) -/

/-- A message is applied, and acknowledged; what goes back with its acknowledgement is kept for its duplicates. -/
def State.applyMsg (s : State) (m : BulkMsg) : State :=
  let (s, back) := match m.kind with
    | 0 => s.applyCells m
    | 1 => s.serveGet m
    | 2 => (s.takeData m, [])
    | _ => (s, [])
  let key := doorKey m.srcHouse m.srcRoom m.engine
  let s := if back.isEmpty then s else { s with doorBacks := Tbl.set [] s.doorBacks key (Tbl.get [] s.doorBacks key ++ [(m.seq, back)]) }
  (s.incReg Reg.doorMsgsApplied 1).ackMsg m back

/-- What went back with the acknowledgement of a message that has been applied. -/
def State.backsOf (s : State) (m : BulkMsg) : List Cell :=
  (((Tbl.get [] s.doorBacks (doorKey m.srcHouse m.srcRoom m.engine)).filter fun e => e.1 == m.seq).getLast?.map Prod.snd).getD []

/-- What is held of a source engine. -/
def State.doorSide (s : State) (key : Nat) : DoorIn := Tbl.get ⟨0, []⟩ s.doorIn key
def State.setSide (s : State) (key : Nat) (d : DoorIn) : State := { s with doorIn := Tbl.set ⟨0, []⟩ s.doorIn key d }

/-- Held messages that are next in order are applied. -/
def State.drainHeld : Nat → State → Nat → State
  | 0, s, _ => s
  | n + 1, s, key =>
    let d := s.doorSide key
    match d.held.find? fun m => m.seq == d.last + 1 with
    | none => s
    | some m => State.drainHeld n ((s.setSide key ⟨d.last + 1, d.held.erase m⟩).applyMsg m) key

/-- A message for another room or house is passed on whole (R407). -/
def State.passOn (s : State) (m : BulkMsg) : State :=
  let d : DoorMsg := ⟨s.nextMsg, m.engine, m.dstHouse, m.dstRoom, m.srcHouse, m.srcRoom, m.kind, m.seq, m.reset, m.cells, m.arg0, m.arg1, true, false,
    false, none⟩
  if m.dstHouse = s.house then (d.wire s.activeB).foldl (fun s c => s.sendCell c) s
  else ({ s with doorMsgs := s.doorMsgs ++ [d], nextMsg := s.nextMsg + 1 }).trySend d

/-- The buffer that a message took at its door port is free again (R407); one that came over the house mesh took none. -/
def State.freeDoor (s : State) (m : BulkMsg) : State :=
  if m.port < 31 then s else { s with out := s.out ++ [.credits m.port (m.cells.length + 1)] }

/-- A bulk message of kind `kind` arrives at a door port, or as cells over the house mesh where a RELAY entry sends it (R407, R408): its buffer is
freed, and it is passed on, discarded, applied, held or acknowledged again. -/
def State.bulk (s : State) (kind : Nat) (m : BulkMsg) : State :=
  if m.kind ≠ kind || !s.portTakes m.port then s
  else
    let s := s.freeDoor m
    if m.dstHouse ≠ s.house || m.dstRoom ≠ s.room then s.passOn m
    else if !msgSound m then s
    else
      let key := doorKey m.srcHouse m.srcRoom m.engine
      let d := s.doorSide key
      if m.reset then ({ s.setSide key ⟨m.seq, []⟩ with doorBacks := Tbl.erase s.doorBacks key }).applyMsg m
      else if m.seq ≤ d.last then (s.incReg Reg.doorDupMsgs 1).ackMsg m (s.backsOf m)
      else if m.seq = d.last + 1 then ((s.setSide key ⟨m.seq, d.held⟩).applyMsg m).drainHeld d.held.length key
      else if decide (d.held.length < 64) && d.held.all fun x => x.seq != m.seq then s.setSide key ⟨d.last, d.held ++ [m]⟩
      else s

/-- WRITE (R405, R408): requests of another house are applied. -/
def execWrite (m : BulkMsg) (s : State) : Host.Outcome State Fault Refusal := .next (s.bulk 0 m)

/-- GET_REQ (R410): another house reads a tensor of this room. -/
def execGetReq (m : BulkMsg) (s : State) : Host.Outcome State Fault Refusal := .next (s.bulk 1 m)

/-- GET_DATA (R410): bytes of a bulk get come back. -/
def execGetData (m : BulkMsg) (s : State) : Host.Outcome State Fault Refusal := .next (s.bulk 2 m)

/-- The collective engine sends another house's GATHER a range of this room's memory, as UNIT messages, where an inbound window grants the reading
(R392, R414); otherwise it tells it so. A cell of the messages carries a line's bytes, in a form that is not given. -/
def State.serveAsk (s : State) (q : ShardAsk) : State :=
  if s.mappedMem q.off q.len && s.inAdmits q.house q.room q.off q.len .read then
    let t := s.readNotes 5 q.off q.len
    let t := { t with out := t.out ++ [.shard q.house q.room q.off (s.memBytes q.off q.len)] }
    (lineParts q.off q.len).foldl (fun t l => t.request (.unit 72) 4 q.house q.room 5 0 0 0 l.2 (s.memBytes l.1 l.2)) t
  else
    ((s.incReg Reg.fabInboundRefused 1).raise stDenied 0 7 0 (mkAddr s.house s.room q.off) (q.house + q.room * 2 ^ 16)).sendUnit (.unit 72) 5
      q.house q.room (.col ⟨s.house, s.room, 0, 0, 0, .deny q.off q.len⟩)

/-- What another house answers reaches the GATHERs that have asked for it (R414): its bytes, or a refusal (R392). -/
def State.takeShard (s : State) (q : ShardData) : State :=
  { s with slots := s.slots.map fun e =>
      if e.2.opcode = 6 && e.2.stage = .started && e.2.asks.any (fun r => decide (r.1 ≤ q.addr) && decide (q.addr < r.1 + r.2)) then
        (e.1, match q.bytes with
          | some bs => { e.2 with got := e.2.got ++ bs.zipIdx.map fun b => (q.addr + b.2, b.1) }
          | none => { e.2 with refused := true })
      else e }

/-- A bulk message for this room is sound and neither a duplicate nor held already (R408). -/
def State.bulkNew (s : State) (m : BulkMsg) : Bool :=
  let d := s.doorSide (doorKey m.srcHouse m.srcRoom m.engine)
  s.portTakes m.port && m.dstHouse == s.house && m.dstRoom == s.room && msgSound m &&
  (m.reset || (decide (d.last < m.seq) && (m.seq == d.last + 1 || (decide (d.held.length < 64) && d.held.all fun x => x.seq != m.seq))))

/-- UNIT (R406, R414): messages of another house's Sluice or collective engine reach their units; what each does is the event named after it,
but that the asking of a GATHER, `asks`, and what answers this room's, `shards`, are dealt with here, once for each message. -/
def execUnit (m : BulkMsg) (asks : List ShardAsk) (shards : List ShardData) (s : State) : Host.Outcome State Fault Refusal :=
  let t := s.bulk 3 m
  .next (if m.kind = 3 && s.bulkNew m then shards.foldl State.takeShard (asks.foldl State.serveAsk t) else t)

/-! ## Acknowledgement, resend, time-out (R409) -/

/-- A contained request ends: at this room's tracker, or by a response to the room that sent it here. -/
def State.endContained (s : State) (c : Cell) (back : Option Cell) (dead : Bool) : State :=
  if c.srcHouse = s.house && c.srcRoom = s.room then
    match s.answered c with
    | none => s
    | some i =>
      if dead then (s.incReg Reg.fabTimeouts 1).endReq i .dead
      else match back with
        | some b => s.endReq i (if b.aux = stDead then .dead else .refused b.aux)
        | none => s.endReq i .done
  else if dead then s.respond c 0xA stDead []
  else match back with
    | some b => s.respond c 0xA b.aux []
    | none => s.respond c 9 stOk []

/-- The requests that a message contains for trackers to complete: those of a WRITE and a UNIT message (R409). -/
def DoorMsg.asked (d : DoorMsg) : List Cell := if d.kind = 0 || d.kind = 3 then d.cells else []

/-- BULK_ACK (R407, R409): an ACK message reaches the source door engine, and the message's requests complete. -/
def execBulkAck (m : BulkMsg) (s : State) : Host.Outcome State Fault Refusal :=
  if m.kind ≠ 4 || !s.portTakes m.port then .next s
  else
    let s := s.freeDoor m
    if m.dstHouse ≠ s.house || m.dstRoom ≠ s.room then .next (s.passOn m)
    else if !msgSound m then .next s
    else
      match s.doorMsgs.find? fun d =>
          d.sent && d.engine == m.engine && d.house == m.srcHouse && d.room == m.srcRoom && d.seq == m.arg0 && d.kind != 4 && d.srcHouse == s.house with
      | none => .next s
      | some d =>
        match d.get with
        | some g =>
          .next (if m.cells.isEmpty then s.updMsg { d with acked := true }
            else
              let s := s.dropMsg d.id
              if (s.slot g.slot).stage = .started then
                (s.setSlot g.slot { s.slot g.slot with refused := true }).endSlot g.slot stOk 0
              else s)
        | none =>
          .next (d.asked.foldl
            (fun s c => s.endContained c (m.cells.find? fun b => b.tag == c.tag && b.dstRoom == c.srcRoom && b.pass == c.pass) false) (s.dropMsg d.id))

/-- DOOR_RETRY (R409): DOOR_RETRY_US has passed since message `m` was sent without an ACK; it is sent again whole. -/
def execDoorRetry (m : Nat) (s : State) : Host.Outcome State Fault Refusal :=
  match s.doorMsg m with
  | none => .next s
  | some d =>
    if d.closed && d.sent && !d.acked then
      match s.putMsg d with
      | (t, true) => .next (t.incReg Reg.doorRetransmits 1)
      | (_, false) => .next s
    else .next s

/-- DOOR_TARGET_TIMEOUT (R409, R410): DOOR_TARGET_US has passed since message `m` closed; what it contains ends as to a dead target. -/
def execDoorTargetTimeout (m : Nat) (s : State) : Host.Outcome State Fault Refusal :=
  match s.doorMsg m with
  | none => .next s
  | some d =>
    if !d.closed || d.kind = 4 || d.srcHouse ≠ s.house then .next s
    else
      let key := doorKey d.house d.room d.engine
      let c := d.cells.headD (d.headCell false)
      let s := (({ s.dropMsg d.id with doorReset := if s.doorReset.contains key then s.doorReset else s.doorReset ++ [key] }).incReg
        Reg.doorTimeouts 1).raise stDead 0 6 d.engine (mkAddr d.house d.room (c.addr % 2 ^ 41)) (c.tag % 2 ^ 17)
      match d.get with
      | some g => .next (s.getOver g true)
      | none => .next (d.asked.foldl (fun s c => s.endContained c none true) s).roomsLost

/-- BULK_MESSAGE_CLOSE (R405, R407): message `m` closes 1 µs after its first request, and is sent when credits allow. -/
def execBulkMessageClose (m : Nat) (s : State) : Host.Outcome State Fault Refusal :=
  match s.doorMsg m with
  | none => .next s
  | some d => .next (s.closeMsg d)

/-- DOOR_PATH_UP (R409): a door port or a relay path has come up; held messages are sent. -/
def execDoorPathUp (s : State) : Host.Outcome State Fault Refusal := .next s.doorsGo

/-- DOOR_CREDIT_RETURN (R407): the far end of door port `p` returns `n` credits. -/
def execDoorCreditReturn (p : Fin 40) (n : Nat) (s : State) : Host.Outcome State Fault Refusal :=
  .next ({ s with doorUsed := Tbl.set 0 s.doorUsed p.val (Tbl.get 0 s.doorUsed p.val - n) }).doorsGo

/-! ## BULK_GET -/

/-- R410: where the source of a bulk get must lie: wholly in one room of another house, not owned. -/
def State.getSrcBad (s : State) (a : TDesc) : Bool :=
  let h := aHouse a.base
  a.owned || h == s.house || h == 0xFFFF || (a.block.scaled && (aHouse a.scaleBase != h || aRoom a.scaleBase != aRoom a.base))

/-- R410: where the source and the destination of a bulk get must lie. -/
def State.getBad (s : State) (a b : Tensor) : Bool :=
  let h := aHouse a.d.base
  s.getSrcBad a.d || a.extents.any (fun e => aHouse e.1 != h || aRoom e.1 != aRoom a.d.base || aRoom (e.1 + e.2 - 1) != aRoom e.1) ||
  b.extents.any fun e => aHouse e.1 != s.house

/-- The checks of a bulk get (R198, R391, R410, R454), on what could be read of its tensors. -/
def State.getChecks (s : State) (v : Slot) (a b : Except Nat Tensor) : Option Nat :=
  firstBad
    [tensorErr a, tensorErr b, if v.mvFieldBad then some stInvalid else none,
     match a with | .ok a => (if a.extents.all fun e => s.outAdmits e.1 e.2 .read then none else some stDenied) | .error _ => none,
     match b with | .ok b => s.tensorWriteBad false b | .error _ => none,
     match v.fieldsOf (v.word 2) with | some a => if s.getSrcBad a then some stInvalid else none | none => none,
     match v.fieldsOf (v.word 2), v.fieldsOf (v.word 3) with
     | some a, some b => if v.mvBad a b then some stInvalid else none
     | _, _ => none,
     match a, b with | .ok a, .ok b => (if s.getBad a b then some stInvalid else none) | _, _ => none,
     if v.mvSwap && v.mvCount != 0 && s.coresBad v.mvBase v.mvCount = some stInvalid then some stInvalid else none]

/-- A bulk get starts (R410 step 1): its GET_REQ carries the source's tensor descriptor. -/
def State.getStart (s : State) (i : Nat) (a b : Tensor) : State :=
  let h := aHouse a.d.base
  let r := aRoom a.d.base
  let g : Get := ⟨i, a, b, [], false⟩
  let t := s.setStage i .started
  let e := doorEngineOf (bits (t.houseRoute t.activeB h) 8 0)
  let c := cellSealed { (DoorMsg.headCell ⟨0, e, h, r, t.house, t.room, 1, 0, false, [], 0, 0, false, false, false, none⟩ t.activeB) with
    tag := t.nextMsg % 131072, len := 127, payload := a.d.raw }
  if t.way t.activeB h r = .miss then ((t.incReg Reg.fabRouteMiss 1).deadRecord { c with addr := a.d.base }).getOver g true
  else if t.doorOff c then t.endSlot i stCancelled 0
  else
    let (t, m) := t.newMsg e h r t.room 1 [c]
    let m := { m with arg1 := sizeOf_ a.d.size, get := some g }
    (t.updMsg m).closeMsg m

/-- BULK_GET (R410): the MOVE with `door_get` in slot `i` goes on: its descriptors are read, its checks made, its GET_REQ sent; it ends when the last
bytes have come, or is refused, or times out. -/
def execBulkGet (i : Nat) (s : State) : Host.Outcome State Fault Refusal :=
  if !s.moverReady i 2 || !(s.slot i).mvGet then .next s
  else if s.moverOff i then .next (s.endSlot i stCancelled 0)
  else
    match s.fetchTensors i [(s.slot i).word 2, (s.slot i).word 3] with
    | (s, false) => .next s
    | (s, true) =>
      let v := s.slot i
      let a := s.readTensor v false (v.word 2)
      let b := s.readTensor v true (v.word 3)
      if v.refused then .next (s.endSlot i stDenied 0)
      else
        match s.getChecks v a b, a, b with
        | none, .ok a, .ok b => .next (if a.d.size.contains 0 then s.endSlot i stOk 0 else s.getStart i a b)
        | st, _, _ => .next (s.moverFail i (st.getD stInvalid))

end Sys2Proof.Machine
end

