-- ==== Sys2Proof/Machine/Units.lean ====
section
/-! DEFINITION. Disabling and enabling units (19_faults_and_wear.md R505, R510). Units are numbered as UNIT_STATE numbers them: queue engines
from 0, tensor movers from 64, Sluices from 68, collective engines from 72, door engines from 76, Pantries from 80. -/

namespace Sys2Proof.Machine

/-- The descriptor is one that a tensor mover, Sluice or collective engine `u` executes. -/
def Slot.onUnit (v : Slot) (u : Nat) : Bool :=
  if u < 64 then false
  else if u < 68 then decide (2 ≤ v.opcode) && decide (v.opcode ≤ 4) && v.mover == u - 64
  else if u < 72 then v.opcode == 5 && v.sluice == u - 67
  else if u < 76 then v.opcode == 6 && v.cEngine == u - 72
  else false

/-- The descriptor is in execution: it has started, or enters the queues of its cores, or has ended and waits for its requests or its record. -/
def Slot.inFlight (v : Slot) : Bool :=
  match v.stage with
  | .started | .ended _ _ => true
  | .ready => v.step != 0
  | _ => false

/-- Rings bound to queue engine `u`. -/
def State.ringsOf (s : State) (u : Nat) : List Nat := s.ringsUsed.filter fun n => s.fieldOf (Reg.ringCfg n) 21 16 == u

/-- The word of UNIT_CMD that puts unit `u` where it is: what a change of the protection is recorded with (R520, R521). -/
def State.unitWord (s : State) (u : Nat) : Nat := u + b2n (s.unitOff u) * 2 ^ 16

/-- Work in flight of unit `u` that is cancelled at its disabling. -/
def State.cancelUnit (s : State) (u : Nat) : State :=
  if u < 64 then (s.ringsOf u).foldl State.cancelRing s
  else ((s.slots.filter fun e => e.2.onUnit u && e.2.inFlight).map Prod.fst).foldl State.cancelSlot s

/-- Unit `u` is disabled; `failed` says that keeper firmware does so on a fault. -/
def State.disableUnit (s : State) (u : Nat) (failed : Bool) : State :=
  if 83 < u then s
  else
    let s := if failed then s.setFlag (Reg.unitState u) 2 true else s
    if s.unitOff u then s
    else (((s.setField (Reg.unitState u) 1 0 1).noteProt failed Reg.unitCmd (s.unitWord u) (u + 2 ^ 16))).cancelUnit u

/-- Unit `u` is enabled; ignored unless it is DISABLED with FAILED 0. -/
def State.enableUnit (s : State) (u : Nat) : State :=
  if decide (83 < u) || s.fieldOf (Reg.unitState u) 2 0 != 2 then s
  else (s.setField (Reg.unitState u) 1 0 0).noteProt false Reg.unitCmd (s.unitWord u) u

/-- Keeper firmware enables unit `u` again (R2). -/
def State.keeperEnable (s : State) (u : Nat) : State :=
  if decide (83 < u) || s.fieldOf (Reg.unitState u) 2 0 != 2 then s
  else (s.setField (Reg.unitState u) 1 0 0).noteProt true Reg.unitCmd (s.unitWord u) u

/-- UNIT_CMD takes a word (R510). -/
def State.unitCmdWrite (s : State) (v : Nat) : State :=
  if bit v 16 then s.disableUnit (bits v 6 0) false else s.enableUnit (bits v 6 0)

/-- Nothing of unit `u` is in flight, and every completion record is written. -/
def State.unitIdle (s : State) (u : Nat) : Bool :=
  if u < 64 then (s.ringsOf u).all fun n => !s.ringBusy n
  else if u < 76 then
    s.comps.isEmpty && s.slots.all fun e => !e.2.onUnit u || !e.2.inFlight
  else if u < 80 then s.doorMsgs.all fun m => m.engine != u - 76 || m.acked
  else true

/-- UNIT_DISABLE (R505): the operator's write of UNIT_CMD with DISABLE 1, or keeper firmware's disabling of a unit that has failed. -/
def execUnitDisable (u : Fin 128) (failed : Bool) (s : State) : Host.Outcome State Fault Refusal := .next (s.disableUnit u failed)

/-- UNIT_ENABLE (R505): a write of UNIT_CMD with DISABLE 0. -/
def execUnitEnable (u : Fin 128) (s : State) : Host.Outcome State Fault Refusal := .next (s.enableUnit u)

/-- UNIT_DRAINED (R505): the work in flight of a draining unit is over; it reads DISABLED. -/
def execUnitDrained (u : Fin 84) (s : State) : Host.Outcome State Fault Refusal :=
  .next (if s.fieldOf (Reg.unitState u) 1 0 == 1 && s.unitIdle u then s.setField (Reg.unitState u) 1 0 2 else s)

end Sys2Proof.Machine
end

