-- ==== Sys2Proof/Machine/RegFile.lean ====
section
/-! DEFINITION. Writes of set-up registers (17_host_interface.md R441, R469, and the register tables of the chapters): the size and alignment of
the access, the fields a write may change and the values it may give them, and what the write of a register does besides. -/

namespace Sys2Proof.Machine

/-- A register takes the bits of `v` that `mask` admits; reserved bits stay 0 (R3). -/
def State.rw (s : State) (o mask v : Nat) : State := s.setReg o (Nat.land v mask)

/-- Field [hi:lo] of a register takes its bits of `v`, unless they lie outside `a` to `b`. -/
def State.ranged (s : State) (o hi lo a b v : Nat) : State :=
  let x := bits v hi lo
  if decide (a ≤ x) && decide (x ≤ b) then s.setField o hi lo x else s

/-- A protection register takes the bits of `v` that `mask` admits. -/
def State.rwProt (s : State) (o mask v : Nat) : State := s.setProt false o (Nat.land v mask)

/-! ## Blocks -/

/-- Registers of the HOST block. `w` is the value with what a 4-byte write leaves, `z` with zeros there, `low` says that bits [31:0] are
written. -/
def State.hostWrite (s : State) (o w z : Nat) (low : Bool) : State :=
  let i := fun (base : Nat) => (o - base) / 8
  let page := 0x3FFFFFFFF000
  if o = Reg.hostJob then (if bit w 63 then s.jobAssign w else s.jobRelease)
  else if o = Reg.hostCancel then (if low then s.cancelWrite w else s)
  else if o = Reg.irqPending then s.irqClear z
  else if o = Reg.irqMask then s.maskWrite w
  else if o = Reg.linkCtl then s.ranged o 15 0 10 60000 w
  else if inArray (Reg.ringBase 0) 4096 o then (if s.flag (Reg.ringCfg (i (Reg.ringBase 0))) 63 then s else s.rw o page w)
  else if inArray (Reg.ringCfg 0) 4096 o then s.ringCfgWrite (i (Reg.ringCfg 0)) w
  else if inArray (Reg.cqBase 0) 256 o || o = Reg.fltBase then s.rw o page w
  else if inArray (Reg.cqCfg 0) 256 o then s.cqWrite o (Reg.cqBase (i (Reg.cqCfg 0))) 16 w
  else if o = Reg.fltCfg then s.cqWrite o Reg.fltBase 32 w
  else if inArray (Reg.cqHead 0) 256 o || o = Reg.fltHead then (s.rw o 0xFFFF w).flushRecords
  else if inArray (Reg.cqShadow 0) 256 o || o = Reg.fltShadow then s.rw o 0x3FFFFFFFFFF8 w
  else if inArray (Reg.hwinLo 0) 8 o then s.rwProt o 0xE0003FFFFFFFF000 w
  else if inArray (Reg.hwinHi 0) 8 o then s.rwProt o page w
  else s

/-- POWER_CAP takes a word (R483, R494). -/
def State.capWrite (s : State) (v : Nat) : State := (s.ranged Reg.powerCap 23 16 1 100 v).ranged Reg.powerCap 12 0 1000 5400 v

/-- POWER_CTL takes a word (R494). -/
def State.powerCtlWrite (s : State) (v : Nat) : State :=
  let s := if bits v 63 48 = 0 then s.setField Reg.powerCtl 63 48 0 else s.ranged Reg.powerCtl 63 48 100 60000 v
  ((s.setField Reg.powerCtl 47 32 (bits v 47 32)).setField Reg.powerCtl 16 16 (bits v 16 16)).setField Reg.powerCtl 9 0 (bits v 9 0)

/-- Registers of the POWER block (R494). -/
def State.powerBlockWrite (s : State) (o w : Nat) (low : Bool) : State :=
  if o = Reg.powerReq then
    (if low && (bits w 2 0 == 0 || bits w 2 0 == 2 || bits w 2 0 == 3) then s.powerWrite (bits w 2 0) else s)
  else if o = Reg.powerCtl then s.powerCtlWrite w
  else if o = Reg.powerCap then s.capWrite w
  else if o = Reg.clkCtl then s.clkWrite w
  else if o = Reg.powerRetain then s.rw o 0xFFFFF w
  else if o = Reg.powerTimer then s.rw o 0x80000000FFFFFFFF w
  else if inArray (Reg.powerRetainCores 0) 4 o then s.rw o 0xFFFFFFFFFFFFFFFF w
  else if o = Reg.telemBase then s.rw o 0x3FFFFFFFF000 w
  else if o = Reg.telemCfg then
    s.setReg o (b2n (bit w 63 && decide (6 ≤ bits w 4 0) && decide (bits w 4 0 ≤ 16)) * 2 ^ 63 + bits w 4 0)
  else if o = Reg.telemHead then s.rw o 0xFFFF w
  else s

/-- THERM_CFG takes a word unless its thresholds would be out of order (R502, R510). -/
def State.thermWrite (s : State) (v : Nat) : State :=
  if decide (bits v 7 0 < bits v 15 8) && decide (bits v 15 8 < bits v 23 16) && decide (bits v 23 16 ≤ 115) then s.rw Reg.thermCfg 0xFFFFFF v
  else s

/-- Registers of the FAULT block (R96, R510). -/
def State.faultWrite (s : State) (o w z : Nat) (low : Bool) : State :=
  if o = Reg.unitCmd then (if low then s.unitCmdWrite w else s)
  else if o = Reg.fltAlert then s.alertClear z
  else if o = Reg.thermCfg then s.thermWrite w
  else if o = Reg.dipCtl then s.dipCtlWrite false w
  else if o = Reg.dipSeed then s.rw o 0xFFFFFFFFFFFFFFFF w
  else if inArray (Reg.dipTStatic 0) 8 o || inArray (Reg.dipTFloor 0) 8 o then s.rw o 0xFFFFFFFF w
  else if inArray (Reg.dipWorst 0) 128 o then s.setReg o (Nat.land (s.reg o) (2 ^ 64 - 1 - bits z 31 0))
  else s

/-- An entry of a routing table takes a word; ignored while DRAINING for the table that was active (R383, R387). -/
def State.routeWrite (s : State) (b : Bool) (o mask w : Nat) : State :=
  if s.flag Reg.fabEpoch 2 && (b != s.activeB) then s else (s.rw o mask w).portsChanged

/-- Registers of the FAB block (R387, R411). -/
def State.fabWrite (s : State) (o w z : Nat) : State :=
  if o = Reg.fabCtl then s.rw o 3 w
  else if o = Reg.fabEpoch then s.swapWrite w
  else if o = Reg.fabPortMask then s.portMask w
  else if o = Reg.fabRetry then s.ranged o 15 0 10 1000 w
  else if o = Reg.fabCoord then s.coordWrite w
  else if inArray (Reg.roomRouteA 0) 32 o then s.routeWrite false o 0x11F w
  else if inArray (Reg.houseRouteA 0) 65536 o then s.routeWrite false o 0x31F01FF w
  else if inArray (Reg.roomRouteB 0) 32 o then s.routeWrite true o 0x11F w
  else if inArray (Reg.houseRouteB 0) 65536 o then s.routeWrite true o 0x31F01FF w
  else if inArray (Reg.owinScope 0) 32 o || inArray (Reg.iwinScope 0) 32 o then s.rwProt o 0xFFFFFFFFFFFFFFFF w
  else if inArray (Reg.owinRange 0) 32 o || inArray (Reg.iwinRange 0) 32 o then s.rwProt o 0xF3FFFFFFFFFFFFFF w
  else if o = Reg.fabTarget then s.ranged o 15 0 20 10000 w
  else if o = Reg.fabRoomDead then s.deadClear z
  else if o = Reg.doorCtl then (s.ranged o 47 32 200 60000 w).ranged o 15 0 50 10000 w
  else s

/-- Registers of the MEM block (R257, R342, R356). -/
def State.memBlockWrite (s : State) (o w : Nat) (low : Bool) : State :=
  let h := (o - Reg.sclSeed 0) / 8
  if o = Reg.memCtl then s.memCtlWrite false w
  else if o = Reg.memShare then
    (if bits w 21 16 + bits w 13 8 + bits w 5 0 ≤ 48 then s.rw o 0x3F3F3F w else s)
  else if o = Reg.memClassMap then s.rw o 0xFFFF w
  else if o = Reg.memLarderCfg then s.larderCfgWrite false w
  else if o = Reg.memScrub then s.rw o 0xFFFF w
  else if o = Reg.memErrCfg then s.rw o 0xFF w
  else if o = Reg.memMapoutReq then (if low then s.mapoutReq w else s)
  else if inArray (Reg.sclCfg 0) 1024 o then s.rw o 0x73F w
  else if inArray (Reg.sclSeed 0) 1024 o then (if bit w 63 || low then s.seedWrite h w else s)
  else s

/-- Registers of the PANTRY block (R329, R331). -/
def State.panWrite (s : State) (o w : Nat) : State :=
  let i := fun (base : Nat) => (o - base) / 8
  if inArray (Reg.panCfg 0) 64 o then (if bit w 63 then s.poolEnable (i (Reg.panCfg 0)) w else s.poolDisable (i (Reg.panCfg 0)) w)
  else if inArray (Reg.panBase 0) 64 o then (if s.poolOn (i (Reg.panBase 0)) then s else s.rw o 0x1FFFFFFF000 w)
  else if inArray (Reg.panRingBase 0) 64 o then (if s.poolOn (i (Reg.panRingBase 0)) then s else s.rw o 0x1FFFFFFFFC0 w)
  else if inArray (Reg.panLowWater 0) 64 o then s.rw o 0x3FF000FFFFF w
  else s

/-- Registers of the SLUICE block (R299, R330). -/
def State.sluWrite (s : State) (o w : Nat) : State :=
  if o = Reg.sluRrBase || o = Reg.sluLayerBase then s.rw o 0x1FFFFFFFFC0 w
  else if o = Reg.sluRrCount then s.rw o 0xFFFFFF w
  else if o = Reg.sluGenHold || o = Reg.sluCountTimeout then s.ranged o 13 0 20 10000 w
  else if o = Reg.sluRrWater then s.rw o 0x3FF00FFFFFF w
  else if inArray (Reg.sluPools 0) 256 o then s.rw o 0x3F3F w
  else if o = Reg.sluLayerCount then s.rw o 0x1FF w
  else s

/-- Registers of core `k`'s CORE block, at offset `o` within it (R121, R159). -/
def State.coreWrite (s : State) (k o w : Nat) : State :=
  if o = 0 then s.coreCtlWrite k w else if o = 0x3010 then s.testNow k w else s

/-- Registers of the SEC block (R525). -/
def State.secWrite (s : State) (o w : Nat) (low : Bool) : State :=
  if o = Reg.secFwAddr || o = Reg.secAttestAddr then s.rw o 0x3FFFFFFFF000 w
  else if o = Reg.secFwLen then s.rw o 0xFFFFFF w
  else if inArray (Reg.secNonce 0) 4 o || inArray (Reg.secExtData 0) 8 o then s.rw o 0xFFFFFFFFFFFFFFFF w
  else if !low then s
  else if o = Reg.secFwGo then s.fwGo w
  else if o = Reg.secReset then (if bits w 1 0 = 1 then s.resetTo 1 else if bits w 1 0 = 2 then s.resetTo 2 else s)
  else if o = Reg.secRollbackReq then s.rollbackReq w
  else if o = Reg.secAttest then s.attestGo w
  else if o = Reg.secExtend then s.secExtendWrite w
  else s

/-! ## The access -/

/-- A write that reaches the register at offset `o`, a multiple of 8. -/
def State.regWrite (s : State) (o w z : Nat) (low : Bool) : State :=
  if !regMapped o then s
  else if o < 0x100000 then (if o = Reg.geomCtl then s.advance w else s)
  else if o < 0x200000 then s.hostWrite o w z low
  else if o < 0x300000 then s.powerBlockWrite o w low
  else if o < 0x400000 then s.faultWrite o w z low
  else if o < 0x800000 then s.fabWrite o w z
  else if o < 0xC00000 then s.memBlockWrite o w low
  else if o < 0xD00000 then s.panWrite o w
  else if o < 0x1000000 then s.sluWrite o w
  else if o < 0x2000000 then s.coreWrite ((o - 0x1000000) / 0x4000) ((o - 0x1000000) % 0x4000) w
  else s.secWrite o w low

/-- A host write of `size` bytes at offset `off` of the set-up register space (R441): 4 or 8 bytes, aligned; 4 bytes change one half. -/
def State.hostRegWrite (s : State) (off size v : Nat) : State :=
  if size = 8 && off % 8 == 0 then s.regWrite off v v true
  else if size = 4 && off % 8 == 0 then
    s.regWrite off (setBits (s.readReg off) 31 0 (bits v 31 0)) (bits v 31 0) true
  else if size = 4 && off % 8 == 4 then
    s.regWrite (off - 4) (setBits (s.readReg (off - 4)) 63 32 (bits v 31 0)) (bits v 31 0 * 2 ^ 32) false
  else s

/-- Keeper firmware changes a protection (R2, R521): the job bit of a ring, a house or host window, ownership, the dip sampler's enable, a unit, the
placement, the pinned sizes. It may do so at any time; no other register takes a word from it in this way. -/
def State.keeperWrite (s : State) (o w : Nat) : State :=
  let i := fun (base : Nat) => (o - base) / 8
  if o = Reg.hostJob then (s.setProt true o (setBits (s.reg o) 63 63 (bits w 63 63))).setFlag Reg.hostStatus 2 (bit w 63)
  else if inArray (Reg.ringCfg 0) 4096 o then s.keeperRing (i (Reg.ringCfg 0)) (bit w 62)
  else if inArray (Reg.hwinLo 0) 8 o then s.setProt true o (Nat.land w 0xE0003FFFFFFFF000)
  else if inArray (Reg.hwinHi 0) 8 o then s.setProt true o (Nat.land w 0x3FFFFFFFF000)
  else if inArray (Reg.owinScope 0) 32 o || inArray (Reg.iwinScope 0) 32 o then s.setProt true o w
  else if inArray (Reg.owinRange 0) 32 o || inArray (Reg.iwinRange 0) 32 o then s.setProt true o (Nat.land w 0xF3FFFFFFFFFFFFFF)
  else if o = Reg.dipCtl then s.dipCtlWrite true (setBits (s.reg o) 0 0 (bits w 0 0))
  else if o = Reg.unitCmd then (if bit w 16 then s.disableUnit (bits w 6 0) true else s.keeperEnable (bits w 6 0))
  else if o = Reg.memCtl then s.memCtlWrite true w
  else if o = Reg.memLarderCfg then s.larderCfgWrite true w
  else s

/-- REGISTER_WRITE (R2, R441): the host writes `size` bytes at offset `off`; with `keeper`, keeper firmware sets the protection there. -/
def execRegisterWrite (keeper : Bool) (off : Fin 67108864) (size : Nat) (v : Word) (s : State) : Host.Outcome State Fault Refusal :=
  .next (if keeper then (if s.keeperRuns && off % 8 == 0 then s.keeperWrite off v.toNat else s) else s.hostRegWrite off size v.toNat)

end Sys2Proof.Machine
end

