-- ==== Sys2Proof/Machine/Scalar.lean ====
section
/-! DEFINITION. Scalar and branch instructions (R135–R137). -/

namespace Sys2Proof.Machine

/-! ## Scalar class (R135) -/

/-- The scalar operations of two sources. -/
def scalarFn (op a b : Nat) : Nat :=
  match op with
  | 0 => a + b
  | 1 => a + (2 ^ 64 - b)
  | 2 => a * b
  | 3 => a * b / 2 ^ 64
  | 4 => Nat.land a b
  | 5 => Nat.lor a b
  | 6 => Nat.xor a b
  | 7 => a * 2 ^ (b % 64)
  | 8 => a / 2 ^ (b % 64)
  | 9 => wrapI 64 (sext 64 a / 2 ^ (b % 64))
  | 10 => b2n (decide (sext 64 a < sext 64 b))
  | 11 => b2n (decide (a < b))
  | 12 => smin 64 a b
  | _ => smax 64 a b

/-- The register fields a scalar instruction reads, and `rd`: `ra`, and `rb` when `I` is 0. -/
def scalarRegs (w : Nat) (useA useB : Bool) : List Nat :=
  [bits w 53 48] ++ (if useA then [bits w 47 42] else []) ++ (if useB && !bit w 35 then [bits w 41 36] else [])

/-- The fields of a scalar word hold no reserved value (R123, R134, R135). -/
def scalarOk (w : Nat) : Bool :=
  regOk (bits w 53 48) && regOk (bits w 47 42) && (bit w 35 || regOk (bits w 41 36)) && bits w 34 32 == 0

/-- The second source (R135). -/
def Core.scalarB (c : Core) (w : Nat) : Nat := if bit w 35 then imm64 w else c.get (bits w 41 36)

/-- A scalar instruction with operation `op` whose result is `f a b w` of its sources and its word. -/
def State.scalar (s : State) (k op : Nat) (useA useB : Bool) (f : Nat → Nat → Nat → Nat) : State :=
  s.issue k 0 op fun w s =>
    let c := s.core k
    if !scalarOk w then s.progFault k 1 w
    else if c.anyPend (scalarRegs w useA useB) then s.hold k
    else
      let v := f (c.get (bits w 47 42)) (c.scalarB w) w
      (s.setCore k (c.put (bits w 53 48) v)).retire k

/-- A scalar instruction of two sources. -/
def State.scalar2 (s : State) (k op : Nat) : State := s.scalar k op true true fun a b _ => scalarFn op a b

/-- ADD (R135). -/
def execAdd (k : Fin 256) (s : State) : Host.Outcome State Fault Refusal := .next (s.scalar2 k 0)

/-- SUB (R135). -/
def execSub (k : Fin 256) (s : State) : Host.Outcome State Fault Refusal := .next (s.scalar2 k 1)

/-- MUL (R135). -/
def execMul (k : Fin 256) (s : State) : Host.Outcome State Fault Refusal := .next (s.scalar2 k 2)

/-- MULHU (R135). -/
def execMulhu (k : Fin 256) (s : State) : Host.Outcome State Fault Refusal := .next (s.scalar2 k 3)

/-- AND (R135). -/
def execAnd (k : Fin 256) (s : State) : Host.Outcome State Fault Refusal := .next (s.scalar2 k 4)

/-- OR (R135). -/
def execOr (k : Fin 256) (s : State) : Host.Outcome State Fault Refusal := .next (s.scalar2 k 5)

/-- XOR (R135). -/
def execXor (k : Fin 256) (s : State) : Host.Outcome State Fault Refusal := .next (s.scalar2 k 6)

/-- SHL (R135). -/
def execShl (k : Fin 256) (s : State) : Host.Outcome State Fault Refusal := .next (s.scalar2 k 7)

/-- SHR (R135). -/
def execShr (k : Fin 256) (s : State) : Host.Outcome State Fault Refusal := .next (s.scalar2 k 8)

/-- SAR (R135). -/
def execSar (k : Fin 256) (s : State) : Host.Outcome State Fault Refusal := .next (s.scalar2 k 9)

/-- SLT (R135). -/
def execSlt (k : Fin 256) (s : State) : Host.Outcome State Fault Refusal := .next (s.scalar2 k 10)

/-- SLTU (R135). -/
def execSltu (k : Fin 256) (s : State) : Host.Outcome State Fault Refusal := .next (s.scalar2 k 11)

/-- MIN (R135). -/
def execMin (k : Fin 256) (s : State) : Host.Outcome State Fault Refusal := .next (s.scalar2 k 12)

/-- MAX (R135). -/
def execMax (k : Fin 256) (s : State) : Host.Outcome State Fault Refusal := .next (s.scalar2 k 13)

/-- MOVHI (R135): `imm32` over the low half of a. -/
def execMovhi (k : Fin 256) (s : State) : Host.Outcome State Fault Refusal :=
  .next (s.scalar k 14 true false fun a _ w => bits w 31 0 * 2 ^ 32 + a % 2 ^ 32)

/-- The special values of GETS (R135); none for another number. -/
def State.special (s : State) (k : Nat) (r : Run) (n : Nat) : Option Nat :=
  let v := s.slot r.launch
  match n with
  | 0 => some (s.cycles k)
  | 1 => some k
  | 2 => some r.epoch
  | 3 => some (v.ctx / 8 * 256 + v.ctx % 8)
  | 4 => some v.tag
  | _ => none

/-- GETS (R135): any other number makes it illegal. -/
def execGets (k : Fin 256) (s : State) : Host.Outcome State Fault Refusal :=
  .next (s.issue k 0 15 fun w s =>
    let c := s.core k
    match c.run.bind fun r => s.special k r (bits w 31 0) with
    | none => s.progFault k 1 w
    | some v =>
      if !scalarOk w then s.progFault k 1 w
      else if c.anyPend [bits w 53 48] then s.hold k
      else (s.setCore k (c.put (bits w 53 48) v)).retire k)

/-! ## Branch class (R136) -/

/-- The fields of a branch word hold no reserved value. -/
def branchOk (w : Nat) : Bool := regOk (bits w 53 48) && regOk (bits w 47 42) && bits w 41 32 == 0

/-- Control goes to instruction `t` (an integer); a target outside the program is a program fault (R136). -/
def State.goto (s : State) (k : Nat) (w : Nat) (t : Int) : State :=
  match (s.core k).run with
  | none => s
  | some r => if 0 ≤ t ∧ t < r.len then (s.issued k t.toNat).instrDone k else s.progFault k 6 w

/-- The comparisons of the branch class. -/
def branchTaken (op a b : Nat) : Bool :=
  match op with
  | 0 => a == b
  | 1 => a != b
  | 2 => decide (sext 64 a < sext 64 b)
  | 3 => decide (sext 64 b ≤ sext 64 a)
  | 4 => decide (a < b)
  | _ => decide (b ≤ a)

/-- A conditional branch (R136). -/
def State.branch (s : State) (k op : Nat) : State :=
  s.issue k 1 op fun w s =>
    let c := s.core k
    if !branchOk w then s.progFault k 1 w
    else if c.anyPend [bits w 53 48, bits w 47 42] then s.hold k
    else if branchTaken op (c.get (bits w 53 48)) (c.get (bits w 47 42)) then
      s.goto k w (c.pc + sext 32 (bits w 31 0))
    else s.retire k

/-- BEQ (R136). -/
def execBeq (k : Fin 256) (s : State) : Host.Outcome State Fault Refusal := .next (s.branch k 0)

/-- BNE (R136). -/
def execBne (k : Fin 256) (s : State) : Host.Outcome State Fault Refusal := .next (s.branch k 1)

/-- BLT (R136). -/
def execBlt (k : Fin 256) (s : State) : Host.Outcome State Fault Refusal := .next (s.branch k 2)

/-- BGE (R136). -/
def execBge (k : Fin 256) (s : State) : Host.Outcome State Fault Refusal := .next (s.branch k 3)

/-- BLTU (R136). -/
def execBltu (k : Fin 256) (s : State) : Host.Outcome State Fault Refusal := .next (s.branch k 4)

/-- BGEU (R136). -/
def execBgeu (k : Fin 256) (s : State) : Host.Outcome State Fault Refusal := .next (s.branch k 5)

/-- JAL (R136): rd takes pc + 1 when the jump is made. -/
def execJal (k : Fin 256) (s : State) : Host.Outcome State Fault Refusal :=
  .next (s.issue k 1 8 fun w s =>
    let c := s.core k
    let t : Int := c.pc + sext 32 (bits w 31 0)
    if !branchOk w then s.progFault k 1 w
    else if c.anyPend [bits w 53 48] then s.hold k
    else if 0 ≤ t ∧ t < ((c.run.map Run.len).getD 0 : Nat) then
      (s.setCore k (c.put (bits w 53 48) (c.pc + 1))).goto k w t
    else s.progFault k 6 w)

/-- JR (R136): to ra + off, modulo 2^64. -/
def execJr (k : Fin 256) (s : State) : Host.Outcome State Fault Refusal :=
  .next (s.issue k 1 9 fun w s =>
    let c := s.core k
    if !branchOk w then s.progFault k 1 w
    else if c.anyPend [bits w 53 48] then s.hold k
    else s.goto k w ((c.get (bits w 53 48) + imm64 w) % 2 ^ 64 : Nat))

/-- TRAP (R136): a program fault with cause 0x07. -/
def execTrap (k : Fin 256) (s : State) : Host.Outcome State Fault Refusal :=
  .next (s.issue k 1 14 fun w s => if branchOk w then s.progFault k 7 w else s.progFault k 1 w)

/-- END (R137): once everything the core issued has completed, its sync operations have taken effect and its own dips are
resolved, the program ends on this core and its handles become FREE. -/
def execEndProg (k : Fin 256) (s : State) : Host.Outcome State Fault Refusal :=
  .next (s.issue k 1 15 fun w s =>
    let c := s.core k
    if !branchOk w then s.progFault k 1 w
    else if c.drained && s.dips.all fun d => d.core != k.val then ((s.endWait k).instrDone k).coreOver k
    else s)

end Sys2Proof.Machine
end

