-- ==== Sys2Proof/Machine/Sideband.lean ====
section
/-! DEFINITION. The sideband of the board management controller (21_physical.md R534–R538, R504). -/

namespace Sys2Proof.Machine

/-- Messages the Criaro holds for the controller: it raises an in-band interrupt (R534). -/
def State.reply (s : State) (o : Out) : State := { s with out := s.out ++ [.ibi, o] }

/-- A vendor-defined response (R536): the enterprise number, the command, a completion code and data. -/
def State.respondVendor (s : State) (cmd code : Nat) (data : List Byte) : State :=
  s.reply (.sideband (leBytes 4 0x0001806C ++ leBytes 1 cmd ++ leBytes 1 code ++ data))

/-- ENTDAA (R534): the Criaro sends its provisional ID and takes a dynamic address. -/
def execEntdaa (addr : Fin 128) (s : State) : Host.Outcome State Fault Refusal :=
  let pid := 0x0D35 * 2 ^ 33 + 0x2548 * 2 ^ 16 + leNat deviceId % 2 ^ 12
  .next (if s.power then { s with dynAddr := some addr.val, out := s.out ++ [.pid pid] } else s)

/-- SET_ENDPOINT_ID (R535). -/
def execSetEndpointId (eid : Fin 256) (s : State) : Host.Outcome State Fault Refusal :=
  .next (if s.power then { s with endpoint := some eid.val }.reply (.control true) else s)

/-- A register READ_REG may read (R536). -/
def sidebandReads (o : Nat) : Bool :=
  regMapped o && (decide (o < 0x100000) || (decide (0x200000 ≤ o) && decide (o < 0x400000)) || (decide (0x2000000 ≤ o)) ||
    o == Reg.hostStatus || o == Reg.linkStatus)

/-- The alert line is released (R504, R536). -/
def State.endAlert (s : State) : State := if s.alert then { s with alert := false, out := s.out ++ [.alert false] } else s

/-- READ_REG (R504, R536): before keeper firmware runs, only two registers are served. -/
def execReadReg (off : Fin 4294967296) (s : State) : Host.Outcome State Fault Refusal :=
  let o := off.val
  if !s.power then .next s
  else if !s.keeperRuns && !(o == Reg.secBootStatus || o == Reg.hostStatus) then .next (s.respondVendor 1 3 [])
  else if o % 8 ≠ 0 then .next (s.respondVendor 1 2 [])
  else if !sidebandReads o then .next (s.respondVendor 1 1 [])
  else
    let t := s.respondVendor 1 0 (leBytes 8 (s.readReg o))
    .next (if o = Reg.fltAlert then t.endAlert else t)

/-- WRITE_REG (R536). -/
def execWriteReg (off : Fin 4294967296) (v : Word) (s : State) : Host.Outcome State Fault Refusal :=
  if !s.power then .next s
  else if !s.keeperRuns then .next (s.respondVendor 2 3 [])
  else if off.val = Reg.fltAlert then .next ((s.alertClear v.toNat).respondVendor 2 0 [])
  else if off.val = Reg.powerCap then .next ((s.capWrite v.toNat).respondVendor 2 0 [])
  else .next (s.respondVendor 2 1 [])

/-- Held records from `first` upward, at most `n` (R537). -/
def State.faultsFrom (s : State) (first n : Nat) : List FaultRec := (s.heldFaults.filter fun r => decide (first ≤ r.fseq)).take n

/-- READ_FAULTS (R536, R537). -/
def execReadFaults (first : Fin 4294967296) (count : Fin 256) (s : State) : Host.Outcome State Fault Refusal :=
  if !s.power then .next s
  else if !s.keeperRuns then .next (s.respondVendor 3 3 [])
  else if decide (count.val < 1) || decide (4 < count.val) then .next (s.respondVendor 3 2 [])
  else
    let l := s.faultsFrom first count
    .next (s.respondVendor 3 0 (leBytes 1 l.length ++ l.flatMap fun r => r.bytes false))

/-- RESET (R511, R536): the response is sent before the reset. -/
def execReset (kind : Fin 256) (s : State) : Host.Outcome State Fault Refusal :=
  if !s.power then .next s
  else if !s.keeperRuns then .next (s.respondVendor 4 3 [])
  else if kind.val = 1 || kind.val = 2 then .next ((s.respondVendor 4 0 []).resetTo kind.val)
  else .next (s.respondVendor 4 2 [])

/-- UNSUPPORTED_MCTP_TYPE (R535). -/
def execUnsupportedMctpType (ty : Fin 128) (s : State) : Host.Outcome State Fault Refusal :=
  .next (if ty.val = 0 || ty.val = 0x7F || !s.power then s else s.reply (.control false))

end Sys2Proof.Machine
end

