-- ==== Sys2Proof/Machine/StepClose.lean ====
section
/-! DEFINITION. STEP_CLOSE (09_range_and_scales.md R244, R256, 11_expert_routing.md R296, 01_architecture.md R32). -/

namespace Sys2Proof.Machine

/-- The larger of two magnitudes held as FP32 codes. -/
def maxCode (a b : Nat) : Nat := if (v32 a).lt (v32 b) then b else a

/-- A history at the close of a step (R244, R256): the configuration written takes effect, its accumulator enters the ring, its counts restart. -/
def Hist.close (h : Hist) (len margin : Nat) : Hist :=
  let h := { h with len := len, margin := margin, ring := h.ring.take (len + 1), sat := 0, flush := 0, nonfin := 0 }
  if !h.seen then h
  else
    let ring := (h.acc :: h.ring).take (len + 1)
    { h with ring := ring, amax := ring.foldl maxCode 0, cold := false, acc := 0, seen := false }

/-- Histories that a close may change: those with a state or a configuration of their own. -/
def State.histsUsed (s : State) : List Nat :=
  (s.hists.map Prod.fst ++ (s.regs.filter fun e => decide (Reg.sclCfg 0 ≤ e.1) && decide (e.1 < Reg.sclCfg 1024)).map fun e =>
    (e.1 - Reg.sclCfg 0) / 8).eraseDups

/-- Every history is updated, its counts of the step copied (R244, R256). -/
def State.closeHists (s : State) : State :=
  let l := s.histsUsed
  let s := s.resetRegs fun o => decide (Reg.sclSat 0 ≤ o) && decide (o < Reg.sclNonfinite 1024)
  l.foldl
    (fun s n =>
      let h := s.hist n
      let s := ((s.setReg (Reg.sclSat n) (min h.sat 0xFFFFFFFF)).setReg (Reg.sclFlush n) (min h.flush 0xFFFFFFFF)).setReg (Reg.sclNonfinite n)
        (min h.nonfin 0xFFFFFFFF)
      s.setHist n (h.close (s.fieldOf (Reg.sclCfg n) 5 0) (s.fieldOf (Reg.sclCfg n) 10 8))) s

/-- The RNG counters of each type with their step registers (R257). -/
def rngPairs : List (Nat × Nat) :=
  (List.range 16).flatMap fun t =>
    [(Reg.rngConv t, Reg.rngConvStep t), (Reg.rngSat t, Reg.rngSatStep t), (Reg.rngFlush t, Reg.rngFlushStep t)]

/-- What the RNG counters have risen by since the last close is copied (R256). -/
def State.closeCounts (s : State) : State :=
  (rngPairs.foldl
    (fun (s : State) p =>
      let n := s.reg p.1
      { (s.setReg p.2 (n + 2 ^ 64 - Tbl.get 0 s.rngMark p.1)) with rngMark := Tbl.set 0 s.rngMark p.1 n }) s).incReg Reg.rngStep 1

/-- An EXCHANGE of a layer executes in the room, or a route record of it is live (R296). -/
def State.layerBusy (s : State) (n : Nat) : Bool :=
  (s.exchs.any fun x => x.layer == n && (s.slot x.slot).stage = .started) || s.rounds.any fun e => e.2.layer == n && !e.2.routes.isEmpty

/-- The placement swap of one layer entry (R296). -/
def State.swapLayer (s : State) (n : Nat) : State :=
  let l := s.layerAt n
  let o := s.layerOff n
  if l.next = 0 then s
  else if s.layerBusy n then (s.memWrite 6 (o + 0x20) (leBytes 8 (setBits l.ver 32 32 1))).incReg Reg.sluPlaceDeferred 1
  else
    let ver := nextSeq l.version
    (((s.memWrite 6 (o + 0x10) (leBytes 8 l.next)).memWrite 6 (o + 0x18) (leBytes 8 0)).memWrite 6 (o + 0x20)
      (leBytes 8 (setBits (setBits l.ver 32 32 0) 31 0 ver))).incReg Reg.sluPlaceSwaps 1

/-- STEP_CLOSE (R32, R244, R256, R296): the STEP_CLOSE in slot `i` closes the step and ends. DESIGN CHOICE (log 123): R32's quiet point begins here, at
its end, and does not wait for its record, which may be held. -/
def execStepClose (i : Nat) (s : State) : Host.Outcome State Fault Refusal :=
  if !s.opReady i 10 then .next s
  else
    let s := (List.range (s.fieldOf Reg.sluLayerCount 8 0)).foldl State.swapLayer s.closeHists.closeCounts
    .next (({ s with geomGo := s.geomGo || s.flag Reg.geomCtl 1 }).endSlot i stOk 0)

end Sys2Proof.Machine
end

