-- ==== Sys2Proof/Machine/Update.lean ====
section
/-! DEFINITION. The parameter update (10_parameter_update.md R258–R274) and STEP_CLOSE (R32, R244, R256, R461). -/

namespace Sys2Proof.Machine

/-! ## Tables (R263–R265, R457) -/

/-- Fields of an UPDATE. -/
def Slot.upCores (v : Slot) : Nat × Nat := (bits (v.word 5) 31 24, bits (v.word 5) 40 32)
def Slot.upEntries (v : Slot) : Nat := bits (v.word 5) 16 0
def Slot.upMul (v : Slot) : FVal := v32 (bits (v.word 6) 31 0)

/-- A row of the coefficient table (R263): its control flags and its FP32 fields as values. -/
structure Coef where
  ctl : Nat
  gScale : FVal
  beta1 : FVal
  alpha1 : FVal
  beta2 : FVal
  alpha2 : FVal
  aM : FVal
  aG : FVal
  cV : FVal
  eps : FVal
  eta : FVal
  rho : FVal
  seed : Nat
  clip : FVal
  deriving DecidableEq, Repr

/-- A row from its bytes; none where R264 finds it invalid. -/
def parseCoef (bs : List Byte) : Option Coef :=
  let f := fun (o : Nat) => v32 (field bs o 4)
  let ctl := field bs 0 4
  let clip := f 0x38
  if Nat.land ctl 0xFFFFC0E0 ≠ 0 || field bs 0x3C 4 ≠ 0 || bits ctl 9 8 = 3 || bits ctl 11 10 = 3 || bits ctl 13 12 = 3 ||
      (bit ctl 2 && bit ctl 1) || clip.isNan || (clip.sign && !clip.isZero) then none
  else some ⟨ctl, f 4, f 8, f 0xC, f 0x10, f 0x14, f 0x18, f 0x1C, f 0x20, f 0x24, f 0x28, f 0x2C, field bs 0x30 8, clip⟩

def Coef.mOn (c : Coef) : Bool := bit c.ctl 0
def Coef.vOn (c : Coef) : Bool := bit c.ctl 1
def Coef.rnd (c : Coef) (hi lo : Nat) : Rnd := (Rnd.ofCode (bits c.ctl hi lo)).getD .rne

/-- An entry of the update table (R265). -/
structure Entry where
  w : Nat
  m : Nat
  mScale : Nat
  v : Nat
  vScale : Nat
  g : Nat
  mask : Nat
  wk : Nat
  wkScale : Nat
  owner : Nat
  rows : Nat
  cols : Nat
  pair : Bool
  wkBlock : Nat
  wkType : Nat
  gType : Nat
  group : Nat
  pos : Nat
  deriving DecidableEq, Repr

/-- An entry from its bytes; none where a reserved field is not zero. -/
def parseEntry (bs : List Byte) : Option Entry :=
  let f := fun (o : Nat) => field bs o 8
  let k := f 0x58
  if bits k 63 28 ≠ 0 || bits (f 0x60) 63 48 ≠ 0 || field bs 0x68 24 ≠ 0 then none
  else
    some { w := f 0, m := f 8, mScale := f 0x10, v := f 0x18, vScale := f 0x20, g := f 0x28, mask := f 0x30, wk := f 0x38, wkScale := f 0x40,
           owner := f 0x48, rows := bits (f 0x50) 31 0, cols := bits (f 0x50) 63 32, pair := bit k 27, wkBlock := bits k 26 24,
           wkType := bits k 23 16, gType := bits k 15 8, group := bits k 7 0, pos := f 0x60 }

/-! ## The tensors of an entry (R258, R259) -/

/-- A dense matrix of this room as a tensor. -/
def denseMatrix (ty : EType) (b : Block) (base scale rows cols : Nat) : Tensor :=
  ⟨{ raw := [], ty := ty, block := b, rank := 2, owned := false, e5inf := false, hf19Rne := false, base := base, scaleBase := scale,
     ownerTable := 0, version := 0, size := [cols, rows, 1, 1, 1, 1, 1, 1], stride := [1, cols, 0, 0, 0, 0, 0, 0] },
   0, [⟨base, 0, cols, 0, scale, 0⟩]⟩

def Entry.tw (e : Entry) : Tensor := denseMatrix .split .none e.w 0 e.rows e.cols
def Entry.tm (e : Entry) : Tensor := denseMatrix .e4m3 .mx e.m e.mScale e.rows e.cols
def Entry.tv (e : Entry) : Tensor := denseMatrix .u8v .mx e.v e.vScale e.rows e.cols
def Entry.twk (e : Entry) : Tensor :=
  denseMatrix ((EType.ofCode e.wkType).getD .e4m3) ((Block.ofCode e.wkBlock).getD .none) e.wk e.wkScale e.rows e.cols

/-- Bytes of a gradient element, and its extent. -/
def Entry.gWidth (e : Entry) : Nat := if e.pair then 8 else if e.gType = 4 then 2 else 4
def Entry.gExtent (e : Entry) : Nat × Nat := (e.g, e.rows * e.cols * e.gWidth)

/-- The entry has no elements. -/
def Entry.empty (e : Entry) : Bool := e.rows == 0 || e.cols == 0

/-- Ranges an entry may read, and ranges it writes. -/
def Entry.reads (e : Entry) (c : Coef) : List (Nat × Nat) :=
  if e.empty then []
  else e.tw.extents ++ (if c.mOn then e.tm.extents else []) ++ (if c.vOn then e.tv.extents else []) ++ [e.gExtent] ++
    (if e.mask = 0 then [] else [(e.mask, cdiv (cdiv e.rows 16) 8)])
def Entry.writes (e : Entry) (c : Coef) : List (Nat × Nat) :=
  (if e.empty then []
   else e.tw.extents ++ (if c.mOn then e.tm.extents else []) ++ (if c.vOn then e.tv.extents else []) ++
     (if e.wkType = 0 then [] else e.twk.extents)) ++ (if e.owner = 0 then [] else [(e.owner + 0x10, 8)])

/-- R259: working types and their block shapes. -/
def wkOk (ty b : Nat) : Bool :=
  (ty == 0 && b == 0) || ((ty == 2 || ty == 3) && decide (b ≤ 1)) || (ty == 1 && b == 1) || (ty == 4 && b == 0)

/-- R266: an entry that makes the UPDATE invalid. -/
def State.entryBad (s : State) (e : Entry) (c : Coef) : Bool :=
  !wkOk e.wkType e.wkBlock || !(if e.pair then e.gType == 7 else e.gType == 7 || e.gType == 4) ||
  e.w % 4 != 0 || e.g % e.gWidth != 0 ||
  (decide (1 < e.rows) && (((c.mOn || c.vOn) && e.cols % 32 != 0) || (e.wkBlock == 1 && e.cols % 16 != 0))) ||
  (e.reads c ++ e.writes c).any fun r => !s.isLocal r.1

/-! ## The recurrence (R261, R262) -/

/-- fma: one rounding of x × y + z. -/
def fma (x y z : FVal) : FVal := flv ((x.mul y).add z)

/-- What one element becomes: its moments, its weight code, whether it kept its state (R262), whether u was clipped, and the wide value of the
weight step. -/
structure Stepped where
  m : FVal
  v : FVal
  w : Nat
  kept : Bool
  clipped : Bool
  w1 : FVal
  wide : FVal
  deriving DecidableEq, Repr

/-- u of R261. -/
def Coef.stepU (c : Coef) (d v1 : FVal) : FVal :=
  if bit c.ctl 2 then (if d.isNan then d else if d.isZero then .zero false else .fin d.sign 1 0)
  else if !c.vOn then d
  else if bit c.ctl 3 then flv (d.div (flv ((flv (flv (c.cV.mul v1)).sqrt).add c.eps)))
  else flv (d.mul (v32 (special32 0x12 (fl (fma c.cV v1 c.eps)))))

/-- The recurrence for one element with weight code `w`, moments `m`, `v`, gradient `g`. -/
def Coef.element (c : Coef) (mul : FVal) (w : Nat) (m v g : FVal) : Stepped :=
  let gt := flv (g.mul (flv (c.gScale.mul mul)))
  let m1 := if c.mOn then fma c.beta1 m (flv (c.alpha1.mul gt)) else .zero false
  let v1 := if c.vOn then fma c.beta2 v (flv (c.alpha2.mul (flv (gt.mul gt)))) else .zero false
  let ag := flv (c.aG.mul gt)
  let d := if c.mOn then fma c.aM m1 ag else ag
  let u0 := c.stepU d v1
  let u := c.clip.neg.maxnum false (u0.maxnum true c.clip)
  let x := EType.val .split w
  let step := flv (c.eta.neg.mul u)
  let wide := (x.mul c.rho).add step
  let w1 := flv wide
  let bad := [gt, m1, v1, u, w1].any fun y => !y.isFin
  if bad then ⟨m, v, w, true, fl u != fl u0, w1, wide⟩
  else ⟨m1, v1, (EType.conv .split .rne false 0 w1).1, false, fl u != fl u0, w1, wide⟩

/-- The decay of an absent element's moments (R270): gt is +0. -/
def Coef.decay (c : Coef) (w : Nat) (m v : FVal) : Stepped :=
  let m1 := if c.mOn then fma c.beta1 m (flv (c.alpha1.mul (.zero false))) else .zero false
  let v1 := if c.vOn then fma c.beta2 v (flv (c.alpha2.mul (flv ((FVal.zero false).mul (.zero false))))) else .zero false
  let bad := !m1.isFin || !v1.isFin
  ⟨if bad then m else m1, if bad then v else v1, w, bad, false, .zero false, .zero false⟩

/-! ## One piece (R267–R271) -/

/-- The pieces of an entry: bands of 16 rows by runs of 2,048 columns. An entry of no elements counts as one piece of none. -/
def Entry.colRuns (e : Entry) : Nat := cdiv e.cols 2048
def Entry.pieces (e : Entry) : Nat := max 1 (cdiv e.rows 16 * e.colRuns)

/-- The indices of piece `j`, in row order. -/
def Entry.pieceIdx (e : Entry) (j : Nat) : List (List Nat) :=
  let r := j / e.colRuns * 16
  let c := j % e.colRuns * 2048
  if e.empty then []
  else (List.range (min 16 (e.rows - r))).flatMap fun a => (List.range (min 2048 (e.cols - c))).map fun b => [c + b, r + a, 0, 0, 0, 0, 0, 0]

/-- The conversions of an UPDATE's element results into type `t`, kept until it completes (R255, R274). -/
def State.noteConvs (s : State) (i : Nat) (t : EType) (l : List (Nat × Ev)) : State :=
  s.setSlot i { s.slot i with convs := (s.slot i).convs ++ [(t.code, l.length, evCount .sat l, evCount .flush l)] }

/-- The elements of a piece, or the blocks they make up, written from the values `val` with random values `r` (R66, R268). -/
def State.putPiece (s : State) (i : Nat) (t : Tensor) (mode : Rnd) (ixs : List (List Nat)) (val : List Nat → FVal) (r : List Nat → Nat) : State :=
  if !t.d.block.scaled then
    let l := ixs.map fun ix => (ix, t.d.ty.conv mode false (r ix) (val ix))
    (s.noteConvs i t.d.ty (l.map Prod.snd)).putRuns i 1 (t.runs (l.map fun x => (x.1, x.2.1)))
  else
    let l := (t.blocks.filter fun b => b.any ixs.contains).map fun b => (b, writeBlock t.d.ty mode false none (b.map fun ix => (val ix, r ix)))
    let es := l.flatMap fun x => x.1.zip x.2.codes
    let at_ := fun (ix : List Nat) => ((es.find? fun e => e.1 == ix).map fun e => e.2.1).getD 0
    ((s.noteConvs i t.d.ty (es.map Prod.snd)).putRuns i 1 (t.runs (ixs.map fun ix => (ix, at_ ix)))).putRuns i 1
      (t.scaleRuns (l.map fun x => (x.1.headD [], x.2.scale)))

/-- The address of an element's gradient, and its value (R228, R265). -/
def Entry.gAt (e : Entry) (ix : List Nat) : Nat := e.g + (ix.getD 1 0 * e.cols + ix.headD 0) * e.gWidth
def State.gradient (s : State) (v : Slot) (e : Entry) (ix : List Nat) : FVal :=
  let a := e.gAt ix
  if e.pair then flv (pairVal (s.descNat v a 4, s.descNat v (a + 4) 4))
  else if e.gType = 4 then EType.val .bf16 (s.descNat v a 2)
  else v32 (s.descNat v a 4)

/-- The band of row `r` has its gradient (R270). -/
def State.bandPresent (s : State) (v : Slot) (e : Entry) (r : Nat) : Bool :=
  e.mask == 0 || bit (s.descByte v (e.mask + r / 128)).toNat (r / 16 % 8)

/-- What a piece reads: its bit of the mask; of a present band all of its state and its gradient, of an absent one its moments where they decay
(R269, R270). -/
def Entry.pieceReads (e : Entry) (c : Coef) (here : Bool) (ixs : List (List Nat)) : List (Nat × Nat) :=
  (if e.mask = 0 then [] else [(e.mask + (ixs.headD []).getD 1 0 / 128, 1)]) ++
  (if here then e.tw.readRuns ixs ++ (joinRuns (ixs.map fun ix => (e.gAt ix, leBytes e.gWidth 0))).map fun r => (r.1, r.2.length) else []) ++
  (if here || bit c.ctl 4 then (if c.mOn then e.tm.readRuns ixs else []) ++ (if c.vOn then e.tv.readRuns ixs else []) else [])

/-- An element of a piece: its weight code and its moments as they are read. -/
def State.oldState (s : State) (v : Slot) (e : Entry) (c : Coef) (ix : List Nat) : Nat × FVal × FVal :=
  (s.tcode v e.tw ix, if c.mOn then s.tval v e.tm ix else .zero false,
   if c.vOn then (let y := s.tval v e.tv ix; if s.tcode v e.tv ix = 0 && !y.isNan then .zero false else y) else .zero false)

/-- What each element of a piece becomes: under SKIP nothing, in an absent band. -/
def State.pieceSteps (s : State) (v : Slot) (e : Entry) (c : Coef) (here : Bool) (ixs : List (List Nat)) : List (List Nat × Stepped) :=
  if here then ixs.map fun ix => (ix, let (w, m, x) := s.oldState v e c ix; c.element v.upMul w m x (s.gradient v e ix))
  else if bit c.ctl 4 then ixs.map fun ix => (ix, let (w, m, x) := s.oldState v e c ix; c.decay w m x)
  else []

/-- The random value of an element's stochastic rounding for state `st` (R264). -/
def Entry.srAt (e : Entry) (c : Coef) (step st : Nat) (mode : Rnd) (ix : List Nat) : Nat :=
  if mode = .sr then rand16 c.seed (bits step 31 0) (e.group + 256 * st) (e.pos + ix.getD 1 0 * e.cols + ix.headD 0) else 0

/-- The dip of a VX instruction of a piece: one of its weight steps (R86, R87). How the elements lie in that instruction is not stated. -/
def pieceCell (l : List (List Nat × Stepped)) (r : Nat) : Option DipCell :=
  (l[r % l.length]?).map fun x => ⟨r % l.length / 2048, r % l.length % 2048, fl x.2.w1, fl64 x.2.wide, .zero false, none⟩

/-- Core `k` carries out piece `j` of an entry; after the entry's last piece its stamp is written (R267–R271). -/
def State.updPiece (s : State) (i k : Nat) (e : Entry) (c : Coef) (j : Nat) : State :=
  let v := s.slot i
  let ixs := e.pieceIdx j
  let here := !ixs.isEmpty && s.bandPresent v e ((ixs.headD []).getD 1 0)
  let all := s.pieceSteps v e c here ixs
  let of := fun (ix : List Nat) => ((all.find? fun x => x.1 == ix).map Prod.snd).getD ⟨.zero false, .zero false, 0, false, false, .zero false, .zero false⟩
  let ixs' := all.map Prod.fst
  let kept := (all.filter fun x => x.2.kept).length
  let t := (if ixs.isEmpty then [] else e.pieceReads c here ixs).foldl (fun t r => t.descNotes 2 r.1 r.2) s
  let t := (t.incReg (if here then Reg.updElements else if bit c.ctl 4 then Reg.updDecayed else Reg.updSkipped) ixs.length).incReg Reg.updNonfinite kept
  let t := if here then
      let t := t.incReg Reg.updUclips (all.filter fun x => x.2.clipped).length
      (t.noteConvs i .split ((all.filter fun x => !x.2.kept).map fun x => EType.conv .split .rne false 0 x.2.w1)).putRuns i 1
        (e.tw.runs (all.map fun x => (x.1, x.2.w)))
    else t
  let sr := e.srAt c (v.word 4)
  let t := if c.mOn && !ixs'.isEmpty then t.putPiece i e.tm (c.rnd 9 8) ixs' (fun ix => (of ix).m) (sr 0 (c.rnd 9 8)) else t
  let t := if c.vOn && !ixs'.isEmpty then t.putPiece i e.tv (c.rnd 11 10) ixs' (fun ix => (of ix).v) (sr 1 (c.rnd 11 10)) else t
  let t := if here && e.wkType != 0 then
      t.putPiece i e.twk (c.rnd 13 12) ixs' (fun ix => EType.val .split (of ix).w) (sr 2 (c.rnd 13 12)) else t
  let t := t.setSlot i { t.slot i with count := (t.slot i).count + kept }
  let (f, t) := if all.isEmpty then (0, t) else t.takeFree
  let t := if all.isEmpty then t else t.builtinVx k i f fun r _ => if here then pieceCell all r else none
  if j + 1 = e.pieces && e.owner != 0 then t.descWrite i 3 (e.owner + 0x10) (leBytes 8 (v.word 4)) else t

/-! ## The descriptor -/

/-- The entries of the table that the queue engine has read, each where it is valid (R265, R266). -/
def Slot.upTable (v : Slot) : List (Option Entry) :=
  match v.tab (v.word 2) (128 * v.upEntries) with
  | .none => []
  | some bs => (List.range v.upEntries).map fun k => parseEntry ((bs.drop (128 * k)).take 128)

/-- The parameter groups that the entries name. -/
def Slot.upGroups (v : Slot) : List Nat := (v.upTable.filterMap fun e => e.map Entry.group).eraseDups

/-- The row of a group, once it has been read. -/
def Slot.upRow (v : Slot) (g : Nat) : Option Coef := (v.tab (v.word 3 + 64 * g) 64).bind parseCoef

/-- The entries with their rows. -/
def Slot.upPairs (v : Slot) : List (Entry × Coef) := v.upTable.filterMap fun e => e.bind fun e => (v.upRow e.group).map fun c => (e, c)

/-- What keeps the queue engine from reading the table, and a group's row (R266). -/
def State.upTableBad (s : State) (v : Slot) : Option Nat :=
  if v.upEntries = 0 || decide (65536 < v.upEntries) then some stInvalid else s.qeBad (v.word 2) (128 * v.upEntries)
def State.upRowBad (s : State) (v : Slot) (g : Nat) : Option Nat :=
  if v.word 3 % 64 ≠ 0 || badAddr (v.word 3) then some stInvalid else s.readBad true (v.word 3 + 64 * g) 64

/-- The queue engine reads the table, and the rows it names, once (R263, R265); the Bool says that it has. -/
def State.fetchUpdate (s : State) (i : Nat) : State × Bool :=
  if (s.upTableBad (s.slot i)).isSome then (s, true)
  else
    match s.fetchTabs i [((s.slot i).word 2, 128 * (s.slot i).upEntries)] with
    | (s, false) => (s, false)
    | (s, true) =>
      let v := s.slot i
      s.fetchTabs i ((v.upGroups.filter fun g => (s.upRowBad v g).isNone).map fun g => (v.word 3 + 64 * g, 64))

/-- The checks of an UPDATE (R150, R264, R266), on what could be read of its tables. -/
def State.updChecks (s : State) (v : Slot) : Option Nat :=
  let bad := s.upTableBad v
  firstBad
    ([s.coresBad v.upCores.1 v.upCores.2, if v.word 4 = 0 || v.upTable.contains none then some stInvalid else none, bad,
      if bad.isNone && v.upTable.isEmpty then some stDead else none] ++
     (v.upGroups.map fun g =>
       match s.upRowBad v g, v.tab (v.word 3 + 64 * g) 64 with
       | some st, _ => some st
       | none, some bs => if (parseCoef bs).isNone then some stInvalid else none
       | none, none => some stDead) ++
     v.upPairs.flatMap fun e =>
       (if s.entryBad e.1 e.2 then some stInvalid else none) ::
       ((e.1.reads e.2).map fun r => s.readBad false r.1 r.2) ++ (e.1.writes e.2).map fun r => s.writeBad false r.1 r.2)

/-- Piece `n` of the shared counter: its entry with its row, and its number there; entries in table order. -/
def pieceAt : List (Entry × Coef) → Nat → Option (Entry × Coef × Nat)
  | [], _ => none
  | (e, c) :: r, n => if n < e.pieces then some (e, c, n) else pieceAt r (n - e.pieces)

/-- A started UPDATE goes on: a core takes the next piece; after the last one the program ends on its cores, and then the UPDATE (R267, R272). -/
def State.updGo (s : State) (i : Nat) : State :=
  let v := s.slot i
  let n := (s.lrun i).tile
  let ended := fun (s : State) => if 0 < v.count then s.builtinOver i stPartial (v.count % 65536) else s.builtinOver i stOk 0
  match pieceAt v.upPairs n with
  | none => ended s
  | some (e, c, j) =>
    match s.builtinTaker i with
    | (s, none) => if s.launchOver i then ended s else s
    | (s, some k) => (s.markRun i fun l => { l with tile := n + 1 }).updPiece i k e c j

/-- UPDATE (R258–R274): the UPDATE in slot `i` goes on: its tables are read and checked, its program enters its cores' queues, and once they run it
they take piece after piece; it ends when its dips are resolved. -/
def execUpdate (i : Nat) (s : State) : Host.Outcome State Fault Refusal :=
  if (s.slot i).opcode == 7 && (s.slot i).stage = .started && s.running then .next (s.updGo i)
  else if !s.opReady i 7 then .next s
  else if (s.slot i).step ≠ 0 then .next (s.enterOn i)
  else
    match s.fetchUpdate i with
    | (s, false) => .next s
    | (s, true) =>
      let v := s.slot i
      if v.refused then .next (s.endSlot i stDenied 0)
      else
        match s.updChecks v with
        | some st => .next (s.endSlot i st 0)
        | none => .next (s.enterBuiltin i ((List.range v.upCores.2).map fun l => s.phys (v.upCores.1 + l)))

end Sys2Proof.Machine
end

