-- ==== Sys2Proof/Machine/Dispatch.lean ====
section
/-! DEFINITION. The dispatch of a command to its meaning: one arm for each constructor of Instr. -/

namespace Sys2Proof.Machine

def exec (i : Instr) (s : State) : Host.Outcome State Fault Refusal :=
  match i with
  | .add k => Sys2Proof.Machine.execAdd k s
  | .sub k => Sys2Proof.Machine.execSub k s
  | .mul k => Sys2Proof.Machine.execMul k s
  | .mulhu k => Sys2Proof.Machine.execMulhu k s
  | .and k => Sys2Proof.Machine.execAnd k s
  | .or k => Sys2Proof.Machine.execOr k s
  | .xor k => Sys2Proof.Machine.execXor k s
  | .shl k => Sys2Proof.Machine.execShl k s
  | .shr k => Sys2Proof.Machine.execShr k s
  | .sar k => Sys2Proof.Machine.execSar k s
  | .slt k => Sys2Proof.Machine.execSlt k s
  | .sltu k => Sys2Proof.Machine.execSltu k s
  | .min k => Sys2Proof.Machine.execMin k s
  | .max k => Sys2Proof.Machine.execMax k s
  | .movhi k => Sys2Proof.Machine.execMovhi k s
  | .gets k => Sys2Proof.Machine.execGets k s
  | .beq k => Sys2Proof.Machine.execBeq k s
  | .bne k => Sys2Proof.Machine.execBne k s
  | .blt k => Sys2Proof.Machine.execBlt k s
  | .bge k => Sys2Proof.Machine.execBge k s
  | .bltu k => Sys2Proof.Machine.execBltu k s
  | .bgeu k => Sys2Proof.Machine.execBgeu k s
  | .jal k => Sys2Proof.Machine.execJal k s
  | .jr k => Sys2Proof.Machine.execJr k s
  | .trap k => Sys2Proof.Machine.execTrap k s
  | .endProg k => Sys2Proof.Machine.execEndProg k s
  | .sld k => Sys2Proof.Machine.execSld k s
  | .sst k => Sys2Proof.Machine.execSst k s
  | .amoSwap k => Sys2Proof.Machine.execAmoSwap k s
  | .amoCas k => Sys2Proof.Machine.execAmoCas k s
  | .amoAdd k => Sys2Proof.Machine.execAmoAdd k s
  | .amoAnd k => Sys2Proof.Machine.execAmoAnd k s
  | .amoOr k => Sys2Proof.Machine.execAmoOr k s
  | .amoXor k => Sys2Proof.Machine.execAmoXor k s
  | .amoSmax k => Sys2Proof.Machine.execAmoSmax k s
  | .amoSmin k => Sys2Proof.Machine.execAmoSmin k s
  | .amoUmax k => Sys2Proof.Machine.execAmoUmax k s
  | .amoUmin k => Sys2Proof.Machine.execAmoUmin k s
  | .amoAdd32 k => Sys2Proof.Machine.execAmoAdd32 k s
  | .amoCas32 k => Sys2Proof.Machine.execAmoCas32 k s
  | .amoFadd32 k => Sys2Proof.Machine.execAmoFadd32 k s
  | .amoFadd32x2 k => Sys2Proof.Machine.execAmoFadd32x2 k s
  | .amoFmax32 k => Sys2Proof.Machine.execAmoFmax32 k s
  | .amoFadd16x4 k => Sys2Proof.Machine.execAmoFadd16x4 k s
  | .tdef k => Sys2Proof.Machine.execTdef k s
  | .trel k => Sys2Proof.Machine.execTrel k s
  | .tload k => Sys2Proof.Machine.execTload k s
  | .tloadComplete k h => Sys2Proof.Machine.execTloadComplete k h s
  | .tstore k => Sys2Proof.Machine.execTstore k s
  | .tzero k => Sys2Proof.Machine.execTzero k s
  | .mma k => Sys2Proof.Machine.execMma k s
  | .mxComplete k => Sys2Proof.Machine.execMxComplete k s
  | .vxAdd k => Sys2Proof.Machine.execVxAdd k s
  | .vxSub k => Sys2Proof.Machine.execVxSub k s
  | .vxMul k => Sys2Proof.Machine.execVxMul k s
  | .fma k => Sys2Proof.Machine.execFma k s
  | .vxMax k => Sys2Proof.Machine.execVxMax k s
  | .vxMin k => Sys2Proof.Machine.execVxMin k s
  | .maxnum k => Sys2Proof.Machine.execMaxnum k s
  | .minnum k => Sys2Proof.Machine.execMinnum k s
  | .abs k => Sys2Proof.Machine.execAbs k s
  | .neg k => Sys2Proof.Machine.execNeg k s
  | .cvt k => Sys2Proof.Machine.execCvt k s
  | .cmp k => Sys2Proof.Machine.execCmp k s
  | .sel k => Sys2Proof.Machine.execSel k s
  | .padd k => Sys2Proof.Machine.execPadd k s
  | .exp k => Sys2Proof.Machine.execExp k s
  | .log k => Sys2Proof.Machine.execLog k s
  | .rsqrt k => Sys2Proof.Machine.execRsqrt k s
  | .sigm k => Sys2Proof.Machine.execSigm k s
  | .logit k => Sys2Proof.Machine.execLogit k s
  | .tanh k => Sys2Proof.Machine.execTanh k s
  | .silu k => Sys2Proof.Machine.execSilu k s
  | .div k => Sys2Proof.Machine.execDiv k s
  | .sqrt k => Sys2Proof.Machine.execSqrt k s
  | .rsum k => Sys2Proof.Machine.execRsum k s
  | .rssq k => Sys2Proof.Machine.execRssq k s
  | .rdot k => Sys2Proof.Machine.execRdot k s
  | .rmax k => Sys2Proof.Machine.execRmax k s
  | .rmsn k => Sys2Proof.Machine.execRmsn k s
  | .drmsn k => Sys2Proof.Machine.execDrmsn k s
  | .smax k => Sys2Proof.Machine.execSmax k s
  | .dsmax k => Sys2Proof.Machine.execDsmax k s
  | .xent k => Sys2Proof.Machine.execXent k s
  | .dsigm k => Sys2Proof.Machine.execDsigm k s
  | .dtanh k => Sys2Proof.Machine.execDtanh k s
  | .drelu k => Sys2Proof.Machine.execDrelu k s
  | .dexp k => Sys2Proof.Machine.execDexp k s
  | .dsilu k => Sys2Proof.Machine.execDsilu k s
  | .dsiluu k => Sys2Proof.Machine.execDsiluu k s
  | .topk k => Sys2Proof.Machine.execTopk k s
  | .sort k => Sys2Proof.Machine.execSort k s
  | .segkey k => Sys2Proof.Machine.execSegkey k s
  | .segsum k => Sys2Proof.Machine.execSegsum k s
  | .vxComplete k => Sys2Proof.Machine.execVxComplete k s
  | .squant k => Sys2Proof.Machine.execSquant k s
  | .samax k => Sys2Proof.Machine.execSamax k s
  | .shist k => Sys2Proof.Machine.execShist k s
  | .sconv k => Sys2Proof.Machine.execSconv k s
  | .semwait k => Sys2Proof.Machine.execSemwait k s
  | .semsig k => Sys2Proof.Machine.execSemsig k s
  | .semtry k => Sys2Proof.Machine.execSemtry k s
  | .evwait k => Sys2Proof.Machine.execEvwait k s
  | .evset k => Sys2Proof.Machine.execEvset k s
  | .evclr k => Sys2Proof.Machine.execEvclr k s
  | .fence k => Sys2Proof.Machine.execFence k s
  | .twait k => Sys2Proof.Machine.execTwait k s
  | .tqpop k => Sys2Proof.Machine.execTqpop k s
  | .syncOpApply k => Sys2Proof.Machine.execSyncOpApply k s
  | .dipResolved k => Sys2Proof.Machine.execDipResolved k s
  | .forcedMxDip k => Sys2Proof.Machine.execForcedMxDip k s
  | .dipSelfCheck d ok => Sys2Proof.Machine.execDipSelfCheck d ok s
  | .rotatingSelfTest => Sys2Proof.Machine.execRotatingSelfTest s
  | .selfTestStart k => Sys2Proof.Machine.execSelfTestStart k s
  | .selfTestDone k found vectorFails => Sys2Proof.Machine.execSelfTestDone k found vectorFails s
  | .geomEpochApply => Sys2Proof.Machine.execGeomEpochApply s
  | .advance v => Sys2Proof.Machine.execAdvance v s
  | .fabCoordWrite v => Sys2Proof.Machine.execFabCoordWrite v s
  | .launch sl => Sys2Proof.Machine.execLaunch sl s
  | .launchStart k => Sys2Proof.Machine.execLaunchStart k s
  | .launchComplete sl => Sys2Proof.Machine.execLaunchComplete sl s
  | .watchdogExpiry sl => Sys2Proof.Machine.execWatchdogExpiry sl s
  | .move sl => Sys2Proof.Machine.execMove sl s
  | .bulkGet sl => Sys2Proof.Machine.execBulkGet sl s
  | .gather sl => Sys2Proof.Machine.execGather sl s
  | .scatter sl => Sys2Proof.Machine.execScatter sl s
  | .fwdDispatch sl => Sys2Proof.Machine.execFwdDispatch sl s
  | .fwdCombine sl => Sys2Proof.Machine.execFwdCombine sl s
  | .bwdDispatch sl => Sys2Proof.Machine.execBwdDispatch sl s
  | .bwdCombine sl => Sys2Proof.Machine.execBwdCombine sl s
  | .cancel sl => Sys2Proof.Machine.execCancel sl s
  | .collectiveGather sl => Sys2Proof.Machine.execCollectiveGather sl s
  | .collectiveReduce sl => Sys2Proof.Machine.execCollectiveReduce sl s
  | .collectiveRelease sl => Sys2Proof.Machine.execCollectiveRelease sl s
  | .update sl => Sys2Proof.Machine.execUpdate sl s
  | .fenceDescriptor sl => Sys2Proof.Machine.execFenceDescriptor sl s
  | .signal sl => Sys2Proof.Machine.execSignal sl s
  | .stepClose sl => Sys2Proof.Machine.execStepClose sl s
  | .alloc sl => Sys2Proof.Machine.execAlloc sl s
  | .ref sl => Sys2Proof.Machine.execRef sl s
  | .unref sl => Sys2Proof.Machine.execUnref sl s
  | .pantryCacheRefill p => Sys2Proof.Machine.execPantryCacheRefill p s
  | .doorbell page size v host => Sys2Proof.Machine.execDoorbell page size v host s
  | .descriptorFetch ring n => Sys2Proof.Machine.execDescriptorFetch ring n s
  | .descriptorStart ctx => Sys2Proof.Machine.execDescriptorStart ctx s
  | .parkRestart p => Sys2Proof.Machine.execParkRestart p s
  | .descriptorEnd sl => Sys2Proof.Machine.execDescriptorEnd sl s
  | .reservation m => Sys2Proof.Machine.execReservation m s
  | .reservationReply m => Sys2Proof.Machine.execReservationReply m s
  | .countMessage m => Sys2Proof.Machine.execCountMessage m s
  | .offsetsReply m => Sys2Proof.Machine.execOffsetsReply m s
  | .countTimeout layer gen slot step => Sys2Proof.Machine.execCountTimeout layer gen slot step s
  | .messageRetry n empty => Sys2Proof.Machine.execMessageRetry n empty s
  | .tokenRow m => Sys2Proof.Machine.execTokenRow m s
  | .backwardRow m => Sys2Proof.Machine.execBackwardRow m s
  | .doneMarker m => Sys2Proof.Machine.execDoneMarker m s
  | .answer m => Sys2Proof.Machine.execAnswer m s
  | .answerAck m => Sys2Proof.Machine.execAnswerAck m s
  | .genHoldExpiry layer gen => Sys2Proof.Machine.execGenHoldExpiry layer gen s
  | .contribution m => Sys2Proof.Machine.execContribution m s
  | .contributionReply m => Sys2Proof.Machine.execContributionReply m s
  | .deadlineClose sl => Sys2Proof.Machine.execDeadlineClose sl s
  | .doorDeadlineClose sl => Sys2Proof.Machine.execDoorDeadlineClose sl s
  | .probeTimeout sl house room => Sys2Proof.Machine.execProbeTimeout sl house room s
  | .stageRetry n => Sys2Proof.Machine.execStageRetry n s
  | .load p c more => Sys2Proof.Machine.execLoad p c more s
  | .store p c => Sys2Proof.Machine.execStore p c s
  | .amo p c more => Sys2Proof.Machine.execAmo p c more s
  | .eatomic p c more => Sys2Proof.Machine.execEatomic p c more s
  | .msg p c op => Sys2Proof.Machine.execMsg p c op s
  | .data p c => Sys2Proof.Machine.execData p c s
  | .ack p c => Sys2Proof.Machine.execAck p c s
  | .refused p c => Sys2Proof.Machine.execRefused p c s
  | .mgmt p c => Sys2Proof.Machine.execMgmt p c s
  | .cellTransit arrivals idle => Sys2Proof.Machine.execCellTransit arrivals idle s
  | .requestRetransmit t => Sys2Proof.Machine.execRequestRetransmit t s
  | .targetTimeout t => Sys2Proof.Machine.execTargetTimeout t s
  | .houseRequestTimeout t => Sys2Proof.Machine.execHouseRequestTimeout t s
  | .linkReplay p n => Sys2Proof.Machine.execLinkReplay p n s
  | .portDown p n => Sys2Proof.Machine.execPortDown p n s
  | .portTrained p house room port slow => Sys2Proof.Machine.execPortTrained p house room port slow s
  | .swap v => Sys2Proof.Machine.execSwap v s
  | .drainEnd => Sys2Proof.Machine.execDrainEnd s
  | .portMaskWrite v => Sys2Proof.Machine.execPortMaskWrite v s
  | .roomDeadClear v => Sys2Proof.Machine.execRoomDeadClear v s
  | .onpkgLinkRetry a b again => Sys2Proof.Machine.execOnpkgLinkRetry a b again s
  | .onpkgLinkDown a b => Sys2Proof.Machine.execOnpkgLinkDown a b s
  | .bulkMessageClose m => Sys2Proof.Machine.execBulkMessageClose m s
  | .write m => Sys2Proof.Machine.execWrite m s
  | .getReq m => Sys2Proof.Machine.execGetReq m s
  | .getData m => Sys2Proof.Machine.execGetData m s
  | .unit m asks shards => Sys2Proof.Machine.execUnit m asks shards s
  | .bulkAck m => Sys2Proof.Machine.execBulkAck m s
  | .doorRetry m => Sys2Proof.Machine.execDoorRetry m s
  | .doorTargetTimeout m => Sys2Proof.Machine.execDoorTargetTimeout m s
  | .doorPathUp => Sys2Proof.Machine.execDoorPathUp s
  | .patrolScrub stack chan byte err => Sys2Proof.Machine.execPatrolScrub stack chan byte err s
  | .stackThrottle stack t => Sys2Proof.Machine.execStackThrottle stack t s
  | .channelFailed stack chan => Sys2Proof.Machine.execChannelFailed stack chan s
  | .memMapoutReq v => Sys2Proof.Machine.execMemMapoutReq v s
  | .placementWrite keeper v => Sys2Proof.Machine.execPlacementWrite keeper v s
  | .larderCfgWrite keeper v => Sys2Proof.Machine.execLarderCfgWrite keeper v s
  | .testNow k v => Sys2Proof.Machine.execTestNow k v s
  | .progFlush k halt => Sys2Proof.Machine.execProgFlush k halt s
  | .halt k v => Sys2Proof.Machine.execHalt k v s
  | .dipCtlWrite keeper v => Sys2Proof.Machine.execDipCtlWrite keeper v s
  | .sclSeedValue h v => Sys2Proof.Machine.execSclSeedValue h v s
  | .sclSeedClear h => Sys2Proof.Machine.execSclSeedClear h s
  | .poolEnable p v => Sys2Proof.Machine.execPoolEnable p v s
  | .poolDisable p v => Sys2Proof.Machine.execPoolDisable p v s
  | .jobAssign v => Sys2Proof.Machine.execJobAssign v s
  | .assignmentComplete => Sys2Proof.Machine.execAssignmentComplete s
  | .jobRelease => Sys2Proof.Machine.execJobRelease s
  | .ownershipRevoke => Sys2Proof.Machine.execOwnershipRevoke s
  | .cancelRing n => Sys2Proof.Machine.execCancelRing n s
  | .cancelAll => Sys2Proof.Machine.execCancelAll s
  | .ringCfgWrite keeper n v => Sys2Proof.Machine.execRingCfgWrite keeper n v s
  | .cqCfgWrite m v => Sys2Proof.Machine.execCqCfgWrite m v s
  | .cqHeadWrite m v => Sys2Proof.Machine.execCqHeadWrite m v s
  | .telemHeadWrite v => Sys2Proof.Machine.execTelemHeadWrite v s
  | .irqPendingClear v => Sys2Proof.Machine.execIrqPendingClear v s
  | .irqMaskWrite v => Sys2Proof.Machine.execIrqMaskWrite v s
  | .irqDelayExpiry m => Sys2Proof.Machine.execIrqDelayExpiry m s
  | .hostLinkDown => Sys2Proof.Machine.execHostLinkDown s
  | .hostLinkUp lanes rate => Sys2Proof.Machine.execHostLinkUp lanes rate s
  | .linkHoldExpiry => Sys2Proof.Machine.execLinkHoldExpiry s
  | .hostReadError slot a n => Sys2Proof.Machine.execHostReadError slot a n s
  | .registerWrite keeper off size v => Sys2Proof.Machine.execRegisterWrite keeper off size v s
  | .powerUp => Sys2Proof.Machine.execPowerUp s
  | .hotSwapOpen => Sys2Proof.Machine.execHotSwapOpen s
  | .inputSample v a p => Sys2Proof.Machine.execInputSample v a p s
  | .telemetryRecord => Sys2Proof.Machine.execTelemetryRecord s
  | .shedTrip t => Sys2Proof.Machine.execShedTrip t s
  | .shedClear t => Sys2Proof.Machine.execShedClear t s
  | .capCheck => Sys2Proof.Machine.execCapCheck s
  | .thermalSample l => Sys2Proof.Machine.execThermalSample l s
  | .thermalStep => Sys2Proof.Machine.execThermalStep s
  | .refclkLoss => Sys2Proof.Machine.execRefclkLoss s
  | .rootLockLoss => Sys2Proof.Machine.execRootLockLoss s
  | .heartbeatMiss last => Sys2Proof.Machine.execHeartbeatMiss last s
  | .lockstepMismatch cycle => Sys2Proof.Machine.execLockstepMismatch cycle s
  | .coreStepWrite v => Sys2Proof.Machine.execCoreStepWrite v s
  | .coreSrc v => Sys2Proof.Machine.execCoreSrc v s
  | .rootPllLock => Sys2Proof.Machine.execRootPllLock s
  | .idleEntry => Sys2Proof.Machine.execIdleEntry s
  | .powerReqNap => Sys2Proof.Machine.execPowerReqNap s
  | .powerReqDeep => Sys2Proof.Machine.execPowerReqDeep s
  | .powerReqActive => Sys2Proof.Machine.execPowerReqActive s
  | .stateEntryQuiet => Sys2Proof.Machine.execStateEntryQuiet s
  | .cellarTimer => Sys2Proof.Machine.execCellarTimer s
  | .i3cPrivateWrite => Sys2Proof.Machine.execI3cPrivateWrite s
  | .wakeComplete failed ports => Sys2Proof.Machine.execWakeComplete failed ports s
  | .unitDisable u failed => Sys2Proof.Machine.execUnitDisable u failed s
  | .unitEnable u => Sys2Proof.Machine.execUnitEnable u s
  | .unitDrained u => Sys2Proof.Machine.execUnitDrained u s
  | .deviceReset => Sys2Proof.Machine.execDeviceReset s
  | .maintenanceReset => Sys2Proof.Machine.execMaintenanceReset s
  | .resetN => Sys2Proof.Machine.execResetN s
  | .secFwGo v host => Sys2Proof.Machine.execSecFwGo v host s
  | .firmwareVerify => Sys2Proof.Machine.execFirmwareVerify s
  | .stackTrainingDone failed chans => Sys2Proof.Machine.execStackTrainingDone failed chans s
  | .startupComplete cores ports bad => Sys2Proof.Machine.execStartupComplete cores ports bad s
  | .secRollbackReq v => Sys2Proof.Machine.execSecRollbackReq v s
  | .secAttestGo v => Sys2Proof.Machine.execSecAttestGo v s
  | .attestDone => Sys2Proof.Machine.execAttestDone s
  | .secExtend v => Sys2Proof.Machine.execSecExtend v s
  | .tapInstruction op => Sys2Proof.Machine.execTapInstruction op s
  | .entdaa addr => Sys2Proof.Machine.execEntdaa addr s
  | .setEndpointId eid => Sys2Proof.Machine.execSetEndpointId eid s
  | .readReg off => Sys2Proof.Machine.execReadReg off s
  | .writeReg off v => Sys2Proof.Machine.execWriteReg off v s
  | .readFaults first count => Sys2Proof.Machine.execReadFaults first count s
  | .reset kind => Sys2Proof.Machine.execReset kind s
  | .unsupportedMctpType ty => Sys2Proof.Machine.execUnsupportedMctpType ty s
  | .fltAlertClear v => Sys2Proof.Machine.execFltAlertClear v s
  | .pendingValueArrives k sl => Sys2Proof.Machine.execPendingValueArrives k sl s
  | .doorCreditReturn p n => Sys2Proof.Machine.execDoorCreditReturn p n s
  | .farEndCoordinates p house room => Sys2Proof.Machine.execFarEndCoordinates p house room s
  | .resetNRelease => Sys2Proof.Machine.execResetNRelease s
  | .refclkReturn => Sys2Proof.Machine.execRefclkReturn s

end Sys2Proof.Machine
end

