-- ==== Sys2Proof/Machine/Tick.lean ====
section
/-! DEFINITION. Time (R465, R480, R481): what a nanosecond in which no command comes does to the counts of time. -/

namespace Sys2Proof.Machine

/-- Hundredths of core cycles in a nanosecond: 350 MHz on the fast oscillator, else 12.6 GHz over the effective step's divider; none where the
compute dies have no clock (R480, R481, R484, R491). -/
def State.rate (s : State) : Nat :=
  let st := s.fieldOf Reg.powerStatus 2 0
  if st = 2 || st = 3 || st = 4 then 0
  else if s.flag Reg.powerStatus 20 then [140, 126, 105, 90, 70].getD s.effStep 70
  else 35

/-- A nanosecond passes; the cellar counts from the moment the hot-swap stage closes (R465, R471). -/
def State.tick (s : State) : State := if s.power then { s with now := s.now + 1, centi := s.centi + s.rate } else s

end Sys2Proof.Machine
end

