-- ==== Sys2Proof/Safety.lean ====
section
/-! DEFINITION. What claims say of runs: states a step leads to, states that steps reach, and runs that meet no stop. -/

namespace Sys2Proof.Machine

/-- A step from `s` leads to `t`. -/
def StepsTo (s t : State) : Prop := step s = .next t

/-- Steps lead from `s` to a state. -/
inductive Reaches (s : State) : State → Prop where
  | refl : Reaches s s
  | step {t u : State} : Reaches s t → StepsTo t u → Reaches s u

/-- The next step neither faults nor is refused. -/
def Goes (s : State) : Prop := ∃ t, StepsTo s t

/-- A property that every step keeps. -/
def KeptByStep (P : State → Prop) : Prop := ∀ s t, P s → StepsTo s t → P t

/-- What no command takes back: the queue is as it was; blown fuses stay in their order (R509), and the production fuse with them; what has left
the Criaro is a matter of record; free values are used once; memory, here and at the host, keeps its canonical form; no more than 64 fault
records wait and no more than 256 are held (R466, R537). -/
structure Follows (s t : State) : Prop where
  queue : t.pending = s.pending
  fuses : s.fuses <+: t.fuses
  production : t.production = s.production
  out : s.out <+: t.out
  free : s.free ≤ t.free
  mem : Tbl.wf 0 s.mem = true → Tbl.wf 0 t.mem = true
  host : Tbl.wf 0 s.hostMem = true → Tbl.wf 0 t.hostMem = true
  waiting : s.faults.length ≤ 64 → t.faults.length ≤ 64
  held : s.heldFaults.length ≤ 256 → t.heldFaults.length ≤ 256

end Sys2Proof.Machine
end

