-- ==== Sys2Proof/Certificates/Slice0/Obligations.lean ====
section
/-! DEFINITION. The statements for the provers, and the vocabulary they are written in. -/

namespace Sys2Proof.Claims

open Sys2Proof.Machine

/-! ## Instructions of a core -/

/-- The control unit of core `k` takes instruction word `w` at its program counter (R122, R155, R158, R159, R499, R503): the core runs a
program that is no built-in one, is not stopping, waits in no SEMWAIT or EVWAIT, is not halted or held, and the word lies in the program and has no error. -/
def Issues (s : State) (k w : Nat) : Prop :=
  (∃ r, (s.core k).run = some r ∧ r.stopping = false ∧ r.builtin = false ∧ (s.core k).pc < r.len) ∧ (s.core k).inSync = false ∧
  s.flag (Reg.coreCtl k) 0 = false ∧ s.coresHeld = false ∧ Tbl.get false s.ue (progPlace k (s.core k).pc) = false ∧
  (Tbl.get 0 (s.core k).prog (s.core k).pc).toNat = w

/-- The word has class `cls` and operation `op` (R134). -/
def Opcode (w cls op : Nat) : Prop := bits w 63 60 = cls ∧ bits w 59 54 = op

/-- A field value that names a register: 48–63 are reserved (R123). -/
def RegField (f : Nat) : Prop := f < 48

/-- No register of the list is pending (R125). -/
def NotPending (c : Core) (fs : List Nat) : Prop := ∀ f ∈ fs, f ∉ c.pend

/-- A register as a 64-bit word. -/
def word (c : Core) (f : Nat) : Word := BitVec.ofNat 64 (c.get f)

/-- `imm32` of an instruction, sign-extended to 64 bits (R135). -/
def immWord (w : Nat) : Word := (BitVec.ofNat 32 w).signExtend 64

/-- Cycles that the core has waited, of the kind named (R159). -/
def waited (s : State) (k : Nat) (w : WaitFor) : Nat :=
  match (s.core k).waitAt with
  | some (v, t) => if v = w then s.cycles k - t else 0
  | none => 0

/-- Of the set-up registers, only the core's own counters change: `done` instructions completed, and the wait that ended (R159). -/
def CoreCounters (s t : State) (k done : Nat) : Prop :=
  ∀ o, t.reg o =
    if o = Reg.coreInstrDone k then (s.reg o + done) % 2 ^ 64
    else if o = Reg.coreIssueWait k then (s.reg o + waited s k .operands) % 2 ^ 64
    else if o = Reg.coreSyncWait k then (s.reg o + waited s k .sync) % 2 ^ 64
    else s.reg o

/-- The counters that follow accesses to memory: bytes of the priority classes, hits, misses, atomics and combined reads of the Larder, and the
blocks touched of a Cistern (R231, R341, R356). -/
def MemoryCounter (o : Nat) : Prop :=
  (0x800400 ≤ o ∧ o < 0x800600) ∨ (0x800800 ≤ o ∧ o < 0x800880) ∨ ∃ k < 256, o = Reg.cisStatus k ∨ ∃ i < 4, o = Reg.cisTouched k i

/-- Nothing changes but core `k`, memory, the Larder's cache and the counters of memory, and the registers of the list. -/
def OnlyCoreAndMemory (s t : State) (k : Nat) (os : List Nat) : Prop :=
  t = { s with cores := t.cores, regs := t.regs, free := t.free, mem := t.mem, lines := t.lines, lineRead := t.lineRead } ∧
  (∀ j, j ≠ k → t.core j = s.core j) ∧ ∀ o, o ∉ os → ¬MemoryCounter o → t.reg o = s.reg o

/-- Every byte of DRAM lies on a stack (R338, R339). -/
def OnStacks (s : State) : Prop := ∀ x p, s.place x = some p → x < 0x12000000000 → p < 2 ^ 41

/-- Nothing changes but core `k` and the registers: no other core, no memory, nothing else of the state. -/
def OnlyCore (s t : State) (k : Nat) : Prop :=
  t = { s with cores := t.cores, regs := t.regs } ∧ (∀ j, j ≠ k → t.core j = s.core j) ∧ ∀ a, t.memByte a = s.memByte a

/-- The registers of core `k` (s0 reads zero, whatever is written to it): register `rd` takes `v`, the others stay as they are (R123). -/
def Writes (s t : State) (k rd v : Nat) : Prop :=
  ∀ x, (t.core k).get x = if x = rd ∧ x ≠ 0 then v else (s.core k).get x

/-- An instruction has issued and completed: control is at `pc`, nothing but the core's registers and counters changes. -/
def Retires (s t : State) (k pc : Nat) : Prop :=
  t.core k = { s.core k with regs := (t.core k).regs, pc := pc, waitAt := none } ∧ OnlyCore s t k ∧ CoreCounters s t k 1

/-- The fields of a scalar word hold no reserved value: `rb` is not read when `I` is set (R134, R135). -/
def ScalarFields (w : Nat) : Prop :=
  RegField (bits w 53 48) ∧ RegField (bits w 47 42) ∧ (bit w 35 = false → RegField (bits w 41 36)) ∧ bits w 34 32 = 0

/-- The second source of a scalar instruction (R135). -/
def scalarB (c : Core) (w : Nat) : Word := if bit w 35 then immWord w else word c (bits w 41 36)

/-- The scalar operations of two sources (R135): code, command, result. -/
def scalarOps : List (Nat × (Fin 256 → Instr) × (Word → Word → Word)) :=
  [(0x00, .add, fun a b => a + b), (0x01, .sub, fun a b => a - b), (0x02, .mul, fun a b => a * b),
   (0x03, .mulhu, fun a b => ((a.setWidth 128 * b.setWidth 128) >>> 64).setWidth 64), (0x04, .and, fun a b => a &&& b),
   (0x05, .or, fun a b => a ||| b), (0x06, .xor, fun a b => a ^^^ b), (0x07, .shl, fun a b => a <<< (b.toNat % 64)),
   (0x08, .shr, fun a b => a >>> (b.toNat % 64)), (0x09, .sar, fun a b => a.sshiftRight (b.toNat % 64)),
   (0x0A, .slt, fun a b => if a.slt b then 1 else 0), (0x0B, .sltu, fun a b => if a.ult b then 1 else 0),
   (0x0C, .min, fun a b => if a.slt b then a else b), (0x0D, .max, fun a b => if a.slt b then b else a)]

/-- The special values of GETS (R135). -/
def getsValue (s : State) (k : Nat) (r : Run) (n : Nat) : Option Nat :=
  match n with
  | 0 => some (s.cycles k)
  | 1 => some k
  | 2 => some r.epoch
  | 3 => some ((s.slot r.launch).ctx / 8 * 256 + (s.slot r.launch).ctx % 8)
  | 4 => some (s.slot r.launch).tag
  | _ => none

/-- Control goes to instruction number `n` of the program and no register changes. -/
def GoesTo (s t : State) (k pc : Nat) : Prop := Retires s t k pc ∧ (t.core k).regs = (s.core k).regs

/-- The fields of a branch word hold no reserved value (R134, R136). -/
def BranchFields (w : Nat) : Prop := RegField (bits w 53 48) ∧ RegField (bits w 47 42) ∧ bits w 41 32 = 0

/-- The offset of a branch: `off`, signed, counted from the branch (R136). -/
def branchTarget (s : State) (k w : Nat) : Int := (s.core k).pc + (BitVec.ofNat 32 w).toInt

/-- The conditional branches (R136): code, command, condition. -/
def branchOps : List (Nat × (Fin 256 → Instr) × (Word → Word → Bool)) :=
  [(0x00, .beq, fun a b => a == b), (0x01, .bne, fun a b => a != b), (0x02, .blt, fun a b => a.slt b), (0x03, .bge, fun a b => !a.slt b),
   (0x04, .bltu, fun a b => a.ult b), (0x05, .bgeu, fun a b => !a.ult b)]

/-- An access has gone out and the program goes on behind it (R122, R125): register `rd`, where there is one, is pending. -/
def Issued (s t : State) (k : Nat) (a : Access) (rd : Option Nat) : Prop :=
  t.core k = { s.core k with
    pc := (s.core k).pc + 1, waitAt := none, nextId := (s.core k).nextId + 1, outs := (s.core k).outs ++ [a],
    pend := (s.core k).pend ++ (match rd with | some f => if f = 0 then [] else [f] | none => []) } ∧
  OnlyCore s t k ∧ CoreCounters s t k 0

/-- Address of a scalar access: ra + `imm32`, modulo 2^64 (R138). -/
def accessAddr (c : Core) (w : Nat) : Nat := (word c (bits w 47 42) + immWord w).toNat

/-- A scalar access as it goes out. -/
def scalarAcc (s : State) (k : Nat) (kind : AKind) (a size num sub data cmp : Nat) : Access :=
  { id := (s.core k).nextId, kind := kind, addr := a, size := size, num := num, sub := sub, data := data, cmp := cmp, h := Handle.none,
    pitch := 0, plane := 0, remote := !s.isLocal a, left := 1, got := [], bad := false, refused := false, pc := (s.core k).pc,
    word := (Tbl.get 0 (s.core k).prog (s.core k).pc).toNat }

/-- The atomics (R347): `sub` code, command, width in bytes. -/
def amoOps : List (Nat × (Fin 256 → Instr) × Nat) :=
  [(0x0, .amoSwap, 8), (0x1, .amoCas, 8), (0x2, .amoAdd, 8), (0x3, .amoAnd, 8), (0x4, .amoOr, 8), (0x5, .amoXor, 8), (0x6, .amoSmax, 8),
   (0x7, .amoSmin, 8), (0x8, .amoUmax, 8), (0x9, .amoUmin, 8), (0xA, .amoAdd32, 4), (0xB, .amoCas32, 4), (0xC, .amoFadd32, 4),
   (0xD, .amoFadd32x2, 8), (0xE, .amoFmax32, 4), (0xF, .amoFadd16x4, 8)]

/-- Every byte from the start of the first unit of check bits to the end of the range is mapped memory without error (R335, R352, R499). -/
def Sound (s : State) (o n : Nat) : Prop :=
  ∀ x, o / grain o * grain o ≤ x → x < o + n → ∃ p, s.place x = some p ∧ s.failed p = false ∧ s.bad p = false

/-- No two mapped offsets share a byte. -/
def OneToOne (s : State) : Prop := ∀ a b p, s.place a = some p → s.place b = some p → a = b

/-- The bytes of a list stand at `o`, and every other offset reads as before. -/
def Stores (s t : State) (o : Nat) (bs : List Byte) : Prop :=
  ∀ a, t.memByte a = if h : o ≤ a ∧ a - o < bs.length then bs[a - o]'h.2 else s.memByte a

/-- The new value of an integer atomic, by its `sub` code (R347). -/
def amoInt (sub : Nat) (old b cmp : Word) : Word :=
  match sub with
  | 0x0 => b
  | 0x1 => if old = cmp then b else old
  | 0x2 => old + b
  | 0x3 => old &&& b
  | 0x4 => old ||| b
  | 0x5 => old ^^^ b
  | 0x6 => if old.slt b then b else old
  | 0x7 => if b.slt old then b else old
  | 0x8 => if old.ult b then b else old
  | 0x9 => if b.ult old then b else old
  | 0xA => ((old.setWidth 32) + (b.setWidth 32)).setWidth 64
  | _ => if old.setWidth 32 = cmp.setWidth 32 then (b.setWidth 32).setWidth 64 else old

/-- An instruction has entered the array or the vector engine, or gone to the Larder: the program goes on behind it. -/
def GoesOn (s t : State) (k : Nat) : Prop :=
  (t.core k).pc = (s.core k).pc + 1 ∧ (t.core k).waitAt = none ∧ (t.core k).regs = (s.core k).regs ∧ (t.core k).handles = (s.core k).handles ∧
  (t.core k).outs = (s.core k).outs ∧ (t.core k).run = (s.core k).run ∧ OnlyCore s t k

/-- The VX operations (R166–R180): code and command. -/
def vxOps : List (Nat × (Fin 256 → Instr)) :=
  [(0x00, .vxAdd), (0x01, .vxSub), (0x02, .vxMul), (0x03, .fma), (0x04, .vxMax), (0x05, .vxMin), (0x06, .maxnum), (0x07, .minnum), (0x08, .abs),
   (0x09, .neg), (0x0A, .cvt), (0x0B, .cmp), (0x0C, .sel), (0x0D, .padd), (0x10, .exp), (0x11, .log), (0x12, .rsqrt), (0x13, .sigm), (0x14, .logit),
   (0x15, .tanh), (0x16, .silu), (0x17, .div), (0x18, .sqrt), (0x20, .rsum), (0x21, .rssq), (0x22, .rdot), (0x23, .rmax), (0x28, .rmsn),
   (0x29, .drmsn), (0x2A, .smax), (0x2B, .dsmax), (0x2C, .xent), (0x30, .dsigm), (0x31, .dtanh), (0x32, .drelu), (0x33, .dexp), (0x34, .dsilu),
   (0x35, .dsiluu), (0x38, .topk), (0x39, .sort), (0x3A, .segkey), (0x3B, .segsum)]

/-- A VX instruction as it enters the vector engine (R77, R85, R163, R166): its word, the handles it writes and reads with their properties, the scalar
it broadcasts, the inputs of its random values, the dip taken of it, and the cycle of its entry. -/
def vxFlight (s : State) (k w launch : Nat) : Flight :=
  let c := s.core k
  let at_ := fun f => (f, c.handle f)
  { word := w, td := some (at_ (bits w 53 48)), ta := some (at_ (bits w 47 42)), tb := if vxUsesB (vxOp w) then some (at_ (bits w 41 36)) else none,
    tc := if vxUsesC (vxOp w) (vxMod w) && !vxScalarC w then some (at_ (bits w 35 30)) else none, scalar := c.get (bits w 34 30),
    seed := c.get (bits w 15 11), salt := c.get (bits w 10 6) % 2 ^ 32, pos := c.get (32 + bits w 5 2), rd := none, cold := false, amax := 0,
    sample := if s.dipOn k && s.sampled k (s.fieldOf Reg.dipCtl 15 12) c.vxn then some (0, c.vxn) else none, launch := launch, since := s.cycles k,
    loadWait := 0 }

/-- A SCALE instruction as it enters the vector engine (R144, R163, R245): operations 0 and 3 write their tile, 1 and 3 their register; it takes its
history's margin, COLD and maximum in force with it. -/
def scaleFlight (s : State) (k w op launch : Nat) : Flight :=
  let c := s.core k
  let h := s.hist (bits w 35 26)
  { word := w, td := if op = 0 ∨ op = 3 then some (bits w 53 48, c.handle (bits w 53 48)) else none,
    ta := some (bits w 47 42, c.handle (bits w 47 42)), tb := none, tc := none, scalar := h.margin, seed := c.get (bits w 15 11),
    salt := c.get (bits w 10 6) % 2 ^ 32, pos := c.get (32 + bits w 5 2), rd := if op = 1 ∨ op = 3 then some (bits w 41 36) else none,
    cold := h.cold, amax := h.amax, sample := none, launch := launch, since := s.cycles k, loadWait := 0 }

/-- An FP32 tile of one element outside the Cistern, in plain storage. -/
def OneFp32 (k : Nat) (h : Handle) : Prop :=
  h.rows = 1 ∧ h.cols = 1 ∧ h.ty = .fp32 ∧ h.block = .none ∧ h.pair = false ∧ inCistern k h.base = false

/-- The element-wise operations on FP32 values (R50, R166): code and function of x, y and z. -/
def vxElem : List (Nat × (FVal → FVal → FVal → FVal)) :=
  [(0x00, fun x y _ => x.add y), (0x01, fun x y _ => x.sub y), (0x02, fun x y _ => x.mul y), (0x03, fun x y z => (x.mul y).add z),
   (0x04, fun x y _ => x.max false y), (0x05, fun x y _ => x.max true y), (0x06, fun x y _ => x.maxnum false y), (0x07, fun x y _ => x.maxnum true y),
   (0x08, fun x _ _ => x.abs), (0x09, fun x _ _ => x.neg), (0x0C, fun x y z => if z.isZero then y else x), (0x17, fun x y _ => x.div y),
   (0x18, fun x _ _ => x.sqrt)]

/-- The semaphore and event instructions (R145): code, command, kind, how many objects, whether they write `rd`, whether the core waits. -/
def syncOps : List (Nat × (Fin 256 → Instr) × SKind × Nat × Bool × Bool) :=
  [(0x0, .semwait, .semwait, 4096, false, true), (0x1, .semsig, .semsig, 4096, false, false), (0x2, .semtry, .semtry, 4096, true, false),
   (0x4, .evwait, .evwait, 1024, false, true), (0x5, .evset, .evset, 1024, false, false), (0x6, .evclr, .evclr, 1024, false, false)]

end Sys2Proof.Claims

open Sys2Proof Sys2Proof.Machine

/-- R135, R123: a scalar instruction of two sources writes its result into `rd` (a write to s0 is discarded), goes on to the next instruction
and counts as completed; MOVHI and GETS likewise; a GETS with a number above 4 is illegal. -/
def Obligations.ScalarClassWritesResult : Prop :=
  (∀ e ∈ Claims.scalarOps, ∀ (k : Fin 256) (s : State) (w : Nat),
    Claims.Issues s k w → Claims.Opcode w 0 e.1 → Claims.ScalarFields w →
    Claims.NotPending (s.core k) ([bits w 53 48, bits w 47 42] ++ if bit w 35 then [] else [bits w 41 36]) →
    ∃ t, exec (e.2.1 k) s = .next t ∧ Claims.Retires s t k ((s.core k).pc + 1) ∧
      Claims.Writes s t k (bits w 53 48) (e.2.2 (Claims.word (s.core k) (bits w 47 42)) (Claims.scalarB (s.core k) w)).toNat) ∧
  (∀ (k : Fin 256) (s : State) (w : Nat),
    Claims.Issues s k w → Claims.Opcode w 0 0x0E → Claims.ScalarFields w →
    Claims.NotPending (s.core k) [bits w 53 48, bits w 47 42] →
    ∃ t, exec (.movhi k) s = .next t ∧ Claims.Retires s t k ((s.core k).pc + 1) ∧
      Claims.Writes s t k (bits w 53 48) ((s.core k).get (bits w 47 42) % 2 ^ 32 + bits w 31 0 * 2 ^ 32)) ∧
  (∀ (k : Fin 256) (s : State) (w v : Nat) (r : Run),
    Claims.Issues s k w → Claims.Opcode w 0 0x0F → Claims.ScalarFields w → (s.core k).run = some r →
    Claims.NotPending (s.core k) [bits w 53 48] → Claims.getsValue s k r (bits w 31 0) = some v →
    ∃ t, exec (.gets k) s = .next t ∧ Claims.Retires s t k ((s.core k).pc + 1) ∧ Claims.Writes s t k (bits w 53 48) (v % 2 ^ 64)) ∧
  (∀ (k : Fin 256) (s : State) (w : Nat), Claims.Issues s k w → Claims.Opcode w 0 0x0F → 5 ≤ bits w 31 0 →
    exec (.gets k) s = .next (s.progFault k 1 w))

/-- R136: a conditional branch goes to pc + `off` when its registers compare as named and to the next instruction when they do not; JAL writes
pc + 1 into `rd` and jumps; JR goes to ra + `off`; a target outside the program is a program fault with cause 0x06; TRAP is one with cause 0x07; END
ends the program on the core. -/
def Obligations.BranchClassGoesWhereNamed : Prop :=
  (∀ e ∈ Claims.branchOps, ∀ (k : Fin 256) (s : State) (w : Nat) (r : Run),
    Claims.Issues s k w → Claims.Opcode w 1 e.1 → Claims.BranchFields w → Claims.NotPending (s.core k) [bits w 53 48, bits w 47 42] →
    (s.core k).run = some r →
    let go := e.2.2 (Claims.word (s.core k) (bits w 53 48)) (Claims.word (s.core k) (bits w 47 42))
    let x := Claims.branchTarget s k w
    (go = false → ∃ t, exec (e.2.1 k) s = .next t ∧ Claims.GoesTo s t k ((s.core k).pc + 1)) ∧
    (go = true → 0 ≤ x → x < r.len → ∃ t, exec (e.2.1 k) s = .next t ∧ Claims.GoesTo s t k x.toNat) ∧
    (go = true → ¬(0 ≤ x ∧ x < r.len) → exec (e.2.1 k) s = .next (s.progFault k 6 w))) ∧
  (∀ (k : Fin 256) (s : State) (w : Nat) (r : Run),
    Claims.Issues s k w → Claims.BranchFields w → Claims.NotPending (s.core k) [bits w 53 48] → (s.core k).run = some r →
    (Claims.Opcode w 1 0x08 →
      let x := Claims.branchTarget s k w
      (0 ≤ x → x < r.len → ∃ t, exec (.jal k) s = .next t ∧ Claims.Retires s t k x.toNat ∧ Claims.Writes s t k (bits w 53 48) (((s.core k).pc + 1) % 2 ^ 64)) ∧
      (¬(0 ≤ x ∧ x < r.len) → exec (.jal k) s = .next (s.progFault k 6 w))) ∧
    (Claims.Opcode w 1 0x09 →
      let x := (Claims.word (s.core k) (bits w 53 48) + Claims.immWord w).toNat
      (x < r.len → ∃ t, exec (.jr k) s = .next t ∧ Claims.GoesTo s t k x) ∧
      (r.len ≤ x → exec (.jr k) s = .next (s.progFault k 6 w))) ∧
    (Claims.Opcode w 1 0x0E → exec (.trap k) s = .next (s.progFault k 7 w)) ∧
    (Claims.Opcode w 1 0x0F → (s.core k).outs = [] → (s.core k).mxq = [] → (s.core k).vxq = [] → (s.core k).syncs = [] → (∀ d ∈ s.dips, d.core ≠ k) →
      ∃ t, exec (.endProg k) s = .next t ∧ (t.core k).run = none ∧ (t.lrun r.launch).done = (s.lrun r.launch).done ++ [r.idx]))

/-- R136, R155, R158: TRAP is a program fault with cause 0x07. CORE_FAULT names the program counter, the cause and the instruction's first byte;
a fault record names the core, the program counter and the LAUNCH's tag; the LAUNCH remembers its first fault; the core stops. -/
def Obligations.TrapIsProgramFault : Prop :=
  ∀ (k : Fin 256) (s : State) (w : Nat) (r : Run),
    Claims.Issues s k w → Claims.Opcode w 1 0x0E → Claims.BranchFields w → (s.core k).run = some r → (s.core k).pc < 2 ^ 32 →
    ∃ t, exec (.trap k) s = .next t ∧
      t.reg (Reg.coreFault k) = (s.core k).pc * 2 ^ 32 + 7 * 2 ^ 8 + bits w 63 56 ∧
      (∃ f ∈ t.heldFaults, f.status = 0x14 ∧ f.info = 0x700 ∧ f.kind = 1 ∧ f.index = k ∧ f.detail = (s.core k).pc ∧
        f.detail2 = (s.slot r.launch).tag) ∧
      (t.lrun r.launch).fault = (match (s.lrun r.launch).fault with | some f => some f | none => some (7, r.idx % 256))

/-- R134, R155: an instruction of a reserved class or operation is a program fault with cause 0x01, and one fetched outside the program a program
fault with cause 0x06, whichever command takes it; a GETS with another number than 0 to 4 and a scalar word with a reserved bit are illegal.
Choices of the model it rests on: log entries 52, 112. -/
def Obligations.IllegalInstructionFaults : Prop :=
  ∀ (k : Fin 256) (s : State),
    let takers := [Instr.movhi k, .gets k, .jal k, .jr k, .trap k, .endProg k, .sld k, .sst k, .tdef k, .trel k, .tload k, .tstore k, .tzero k, .mma k,
      .twait k, .fence k, .tqpop k, .squant k, .samax k, .shist k, .sconv k] ++ Claims.scalarOps.map (fun e => e.2.1 k) ++
      Claims.branchOps.map (fun e => e.2.1 k) ++ Claims.vxOps.map (fun e => e.2 k) ++ Claims.syncOps.map fun e => e.2.1 k
    (∀ w, Claims.Issues s k w → opKnown (bits w 63 60) (bits w 59 54) = false → ∀ c ∈ takers, exec c s = .next (s.progFault k 1 w)) ∧
    (∀ w, Claims.Issues s k w → Claims.Opcode w 0 0x0F → 5 ≤ bits w 31 0 → exec (.gets k) s = .next (s.progFault k 1 w)) ∧
    (∀ e ∈ Claims.scalarOps, ∀ w, Claims.Issues s k w → Claims.Opcode w 0 e.1 → bits w 34 32 ≠ 0 → exec (e.2.1 k) s = .next (s.progFault k 1 w)) ∧
    (∀ r, (s.core k).run = some r → r.stopping = false → r.builtin = false → (s.core k).inSync = false → s.flag (Reg.coreCtl k) 0 = false →
      s.coresHeld = false → r.len ≤ (s.core k).pc → ∀ c ∈ takers, exec c s = .next (s.progFault k 6 0))

/-- R122, R125: an instruction that reads or writes a pending register waits at issue: the program counter stays, and the wait is timed from its
first cycle; another wait that the core was in ends then, counted.
Choices of the model it rests on: log entry 53. -/
def Obligations.PendingRegisterHoldsIssue : Prop :=
  ∀ e ∈ Claims.scalarOps, ∀ (k : Fin 256) (s : State) (w : Nat),
    Claims.Issues s k w → Claims.Opcode w 0 e.1 → Claims.ScalarFields w →
    (bits w 53 48 ∈ (s.core k).pend ∨ bits w 47 42 ∈ (s.core k).pend ∨ (bit w 35 = false ∧ bits w 41 36 ∈ (s.core k).pend)) →
    (∀ n, (s.core k).waitAt = some (.operands, n) → exec (e.2.1 k) s = .next s) ∧
    ((∀ n, (s.core k).waitAt ≠ some (.operands, n)) → ∃ t, exec (e.2.1 k) s = .next t ∧ Claims.OnlyCore s t k ∧ Claims.CoreCounters s t k 0 ∧
      t.core k = { s.core k with waitAt := some (.operands, s.cycles k) })

/-- R137: END, once everything the core issued has completed, its sync operations have taken effect and its own dips are resolved, ends the program
on the core: its handles are FREE, no register pends, the LAUNCH counts the core, and nothing else changes but the core's counters.
Choices of the model it rests on: log entries 5, 53. -/
def Obligations.EndEndsProgram : Prop :=
  ∀ (k : Fin 256) (s : State) (w : Nat) (r : Run),
    Claims.Issues s k w → Claims.Opcode w 1 0x0F → Claims.BranchFields w → (s.core k).run = some r →
    (s.core k).outs = [] → (s.core k).mxq = [] → (s.core k).vxq = [] → (s.core k).syncs = [] → (∀ d ∈ s.dips, d.core ≠ k) →
    ∃ t, exec (.endProg k) s = .next t ∧
      t.core k = { s.core k with run := none, pend := [], handles := [], inSync := false, waitAt := none } ∧
      t.lrun r.launch = { s.lrun r.launch with done := (s.lrun r.launch).done ++ [r.idx] } ∧
      (∀ n, n ≠ r.launch → t.lrun n = s.lrun n) ∧ (∀ j, j ≠ k → t.core j = s.core j) ∧ Claims.CoreCounters s t k 1 ∧
      t = { s with cores := t.cores, regs := t.regs, runs := t.runs }

/-- R138, R125, R347: SLD, SST and AMO go out as accesses when their fields hold no reserved value, their registers are not pending, their address is
aligned to their size and admitted; `rd` of an SLD or AMO is pending from then on; an access to another room is sent as requests of the core. A
misaligned one is a program fault with cause 0x04, one that may not reach its address one with cause 0x05.
Choices of the model it rests on: log entries 6, 50, 52. -/
def Obligations.ScalarAccessesIssue : Prop :=
  ∀ (k : Fin 256) (s : State) (w : Nat), Claims.Issues s k w →
    let c := s.core k
    let a := Claims.accessAddr c w
    let size := 2 ^ bits w 33 32
    let rd := bits w 53 48
    (Claims.Opcode w 2 0x00 → Claims.RegField rd → Claims.RegField (bits w 47 42) → bits w 41 36 = 0 → bit w 35 = false →
      Claims.NotPending c [rd, bits w 47 42] →
      (a % size ≠ 0 → exec (.sld k) s = .next (s.progFault k 4 w)) ∧
      (a % size = 0 → s.coreMay .load true a size = false → exec (.sld k) s = .next (s.progFault k 5 w)) ∧
      (a % size = 0 → s.coreMay .load true a size = true →
        ∃ t, Claims.Issued s t k (Claims.scalarAcc s k .sld a size rd (bits w 35 32) 0 0) (some rd) ∧
          exec (.sld k) s = .next (if s.isLocal a then t else t.loadRange (.core k c.nextId) a size))) ∧
    (Claims.Opcode w 2 0x01 → rd = 0 → Claims.RegField (bits w 47 42) → Claims.RegField (bits w 41 36) → bits w 35 34 = 0 →
      Claims.NotPending c [bits w 47 42, bits w 41 36] →
      (a % size ≠ 0 → exec (.sst k) s = .next (s.progFault k 4 w)) ∧
      (a % size = 0 → s.coreMay .store true a size = false → exec (.sst k) s = .next (s.progFault k 5 w)) ∧
      (a % size = 0 → s.coreMay .store true a size = true →
        ∃ t, Claims.Issued s t k (Claims.scalarAcc s k .sst a size 0 0 (c.get (bits w 41 36)) 0) none ∧
          exec (.sst k) s = .next (if s.isLocal a then t else t.storeRange (.core k c.nextId) a (leBytes size (c.get (bits w 41 36)))))) ∧
    (∀ e ∈ Claims.amoOps, Claims.Opcode w 2 0x02 → bits w 35 32 = e.1 → Claims.RegField rd → Claims.RegField (bits w 47 42) →
      Claims.RegField (bits w 41 36) → Claims.NotPending c [rd, bits w 47 42, bits w 41 36] →
      (a % e.2.2 ≠ 0 → exec (e.2.1 k) s = .next (s.progFault k 4 w)) ∧
      (a % e.2.2 = 0 → s.coreMay .amo true a e.2.2 = false → exec (e.2.1 k) s = .next (s.progFault k 5 w)) ∧
      (a % e.2.2 = 0 → s.coreMay .amo true a e.2.2 = true →
        ∃ t, Claims.Issued s t k (Claims.scalarAcc s k .amo a e.2.2 rd e.1 (c.get (bits w 41 36)) (c.get rd)) (some rd) ∧
          exec (e.2.1 k) s = .next (if s.isLocal a then t
            else t.request (.core k c.nextId) 2 (aHouse a) (aRoom a) 0 e.1 a 0 16 (leBytes 8 (c.get (bits w 41 36)) ++ leBytes 8 (c.get rd)))))

/-- R125, R138: the value of a local SLD arrives: its register takes the bytes at the address, zero-extended, or sign-extended when `sub`[2] is
set, and pends no more; the access is over and counts as completed; memory is as it was.
R138, R333: a local SST is accepted at its home: the low bytes of its operand stand at its address in little-endian order, every other byte of
memory is as it was, and the access is over.
Of the rest, only the counters of memory and the Larder's cache change.
Choices of the model it rests on: log entries 10, 50. -/
def Obligations.LoadsAndStoresArrive : Prop :=
  ∀ (k : Fin 256) (s : State) (n : Nat) (a : Access) (r : Run),
    (s.core k).outs[n]? = some a → a.remote = false → a.refused = false → (s.core k).mustWait a = false → (s.core k).run = some r →
    r.stopping = false → Claims.OnStacks s → Claims.Sound s (aOff a.addr) a.size → s.coreCut k (aOff a.addr) = false →
    (a.kind = .sld → a.size ∈ [1, 2, 4, 8] →
      let v := s.memNat (aOff a.addr) a.size
      ∃ t, exec (.pendingValueArrives k n) s = .next t ∧
        Claims.Writes s t k a.num (if bit a.sub 2 then ((BitVec.ofNat (8 * a.size) v).signExtend 64).toNat else v) ∧
        t.core k = { s.core k with
          regs := (t.core k).regs, pend := (s.core k).pend.filter (· ≠ a.num), outs := (s.core k).outs.filter (fun b => b.id ≠ a.id) } ∧
        t.reg (Reg.coreInstrDone k) = (s.reg (Reg.coreInstrDone k) + 1) % 2 ^ 64 ∧ Claims.OnlyCoreAndMemory s t k [Reg.coreInstrDone k] ∧
        ∀ x, t.memByte x = s.memByte x) ∧
    (a.kind = .sst → a.bad = false → Claims.OneToOne s →
      ∃ t, exec (.pendingValueArrives k n) s = .next t ∧ Claims.Stores s t (aOff a.addr) (leBytes a.size a.data) ∧
        t.core k = { s.core k with outs := (s.core k).outs.filter (fun b => b.id ≠ a.id) } ∧
        t.reg (Reg.coreInstrDone k) = (s.reg (Reg.coreInstrDone k) + 1) % 2 ^ 64 ∧ Claims.OnlyCoreAndMemory s t k [Reg.coreInstrDone k])

/-- R347: a local AMO is applied at its home slice: the old value comes back into `rd`, zero-extended when it is 4 bytes wide, and the new value of
the table stands at the address; a floating-point sum is rounded once (R349). No other byte of memory changes, and of the rest only the counters of
memory and the Larder's cache.
Choices of the model it rests on: log entries 10, 50. -/
def Obligations.AtomicReturnsOldWritesNew : Prop :=
  ∀ (k : Fin 256) (s : State) (n : Nat) (a : Access) (r : Run),
    (s.core k).outs[n]? = some a → a.kind = .amo → a.remote = false → a.refused = false → (s.core k).mustWait a = false →
    (s.core k).run = some r → r.stopping = false → a.sub < 16 → a.data < 2 ^ 64 → a.cmp < 2 ^ 64 → Claims.OneToOne s → Claims.OnStacks s →
    Claims.Sound s (aOff a.addr) (amoWidth a.sub) → s.coreCut k (aOff a.addr) = false →
    let old := s.memNat (aOff a.addr) (amoWidth a.sub)
    let f32 := fun x y => EType.fp32.rne ((EType.fp32.val x).add (EType.fp32.val y))
    let bf := fun x y => EType.bf16.rne ((EType.bf16.val x).add (EType.bf16.val y))
    let part := fun x w i => x / 2 ^ (w * i) % 2 ^ w
    let new := if a.sub < 0xC then (Claims.amoInt a.sub (BitVec.ofNat 64 old) (BitVec.ofNat 64 a.data) (BitVec.ofNat 64 a.cmp)).toNat
      else if a.sub = 0xC then f32 old (part a.data 32 0)
      else if a.sub = 0xD then f32 (part old 32 0) (part a.data 32 0) + f32 (part old 32 1) (part a.data 32 1) * 2 ^ 32
      else if a.sub = 0xE then EType.fp32.rne ((EType.fp32.val old).maxnum false (EType.fp32.val (part a.data 32 0)))
      else bf (part old 16 0) (part a.data 16 0) + bf (part old 16 1) (part a.data 16 1) * 2 ^ 16 + bf (part old 16 2) (part a.data 16 2) * 2 ^ 32 +
        bf (part old 16 3) (part a.data 16 3) * 2 ^ 48
    ∃ t, exec (.pendingValueArrives k n) s = .next t ∧ Claims.Writes s t k a.num old ∧
      Claims.Stores s t (aOff a.addr) (leBytes (amoWidth a.sub) new) ∧
      t.core k = { s.core k with regs := (t.core k).regs, pend := (s.core k).pend.filter (· ≠ a.num), outs := (s.core k).outs.filter (fun b => b.id ≠ a.id) } ∧
      t.reg (Reg.coreInstrDone k) = (s.reg (Reg.coreInstrDone k) + 1) % 2 ^ 64 ∧ Claims.OnlyCoreAndMemory s t k [Reg.coreInstrDone k]

/-- R338, R339, R334: no two mapped local offsets share a byte of memory, under NATIVE placement, and under HASH where the dense range fits the
channels in service. -/
def Obligations.PlacementIsOneToOne : Prop :=
  ∀ s : State, (s.flag Reg.memCtl 0 = true → s.reg Reg.geomDram * 2 ^ 20 ≤ s.allChans.length * 0x24000000) → Claims.OneToOne s

/-! ## Handles -/

/-- R129, R131, R139: TDEF binds a FREE handle to its region: base, rows, columns and pitch from its registers, type and block shape from its type
word; a handle that is not FREE is a handle error, cause 0x02. TREL frees a handle that is not busy and waits for one that is.
Choices of the model it rests on: log entry 52. -/
def Obligations.HandlesAreBoundAndReleased : Prop :=
  ∀ (k : Fin 256) (s : State) (w : Nat) (r : Run), Claims.Issues s k w → (s.core k).run = some r →
    let c := s.core k
    let td := bits w 53 48
    let im := bits w 31 0
    let shape := c.get (bits w 41 36)
    (∀ (ty : EType) (b : Block) (h : Handle),
      Claims.Opcode w 2 0x08 → 32 ≤ bits w 47 42 → Claims.RegField (bits w 47 42) → Claims.RegField (bits w 41 36) → bits w 35 32 = 0 → bits im 31 14 = 0 →
      Claims.RegField (bits im 13 8) → EType.ofCode (bits im 3 0) = some ty → Block.ofCode (bits im 6 4) = some b →
      Claims.NotPending c ([bits w 47 42, bits w 41 36] ++ if b = .none then [] else [bits im 13 8]) →
      ((c.handle td).st ≠ .free → exec (.tdef k) s = .next (s.progFault k 2 w)) ∧
      ((c.handle td).st = .free →
        tdefHandle k r.banks (s.flag (Reg.cisStatus k) 1) (s.isLocal (c.get (bits w 47 42))) (s.isLocal (c.get (bits im 13 8)))
          (aOff (c.get (bits w 47 42))) shape (aOff (c.get (bits im 13 8))) (bits im 7 7) ty b = some h →
        h.base = aOff (c.get (bits w 47 42)) ∧ h.rows = shape % 2 ^ 14 + 1 ∧ h.cols = shape / 2 ^ 16 % 2 ^ 14 + 1 ∧ h.pitch = shape / 2 ^ 32 % 2 ^ 32 ∧
        h.ty = ty ∧ h.block = b ∧ h.st = (if bits im 7 7 = 1 then .resident else .allocated) ∧
        ∃ t, exec (.tdef k) s = .next t ∧ Claims.OnlyCore s t k ∧ Claims.CoreCounters s t k 1 ∧
          t.core k = { c with pc := c.pc + 1, waitAt := none, handles := (t.core k).handles } ∧
          ∀ x, (t.core k).handle x = if x = td then h else c.handle x)) ∧
    (Claims.Opcode w 2 0x09 → bits w 47 0 = 0 →
      (c.busy td = true → ∃ t, exec (.trel k) s = .next t ∧ (t.core k).pc = c.pc ∧ (t.core k).handles = c.handles) ∧
      (c.busy td = false → ∃ t, exec (.trel k) s = .next t ∧ Claims.OnlyCore s t k ∧ Claims.CoreCounters s t k 1 ∧
        t.core k = { c with pc := c.pc + 1, waitAt := none, handles := (t.core k).handles } ∧
        ∀ x, (t.core k).handle x = if x = td then Handle.none else c.handle x))

/-- R138, R140, R131: a TLOAD into a handle that may be written goes out, and the handle is LOADING until it completes; a TSTORE of a handle that
may be read goes out; each carries the handle as it is, the far address, pitch and scale plane. One whose far addresses are not all admitted is a
program fault with cause 0x05. Out of another room a TLOAD asks for each row of its tile.
Choices of the model it rests on: log entries 50, 52. -/
def Obligations.TileMovesIssue : Prop :=
  ∀ (k : Fin 256) (s : State) (w : Nat), Claims.Issues s k w → tmoveOk w = true →
    let c := s.core k
    let td := bits w 53 48
    let h := c.handle td
    let far := c.get (bits w 47 42)
    let out := fun a : Access => { a with id := c.nextId, remote := !s.isLocal far, pc := c.pc, word := w }
    Claims.NotPending c (tmoveRegs w h) →
    (Claims.Opcode w 2 0x0A → c.writable td = .ok → (inCistern k h.base = true → s.cisOpen k = true) →
      let a := c.tmove .tload w h
      ((∃ p ∈ a.parts, s.coreMay .load false p.1 p.2 = false) → exec (.tload k) s = .next (s.progFault k 5 w)) ∧
      ((∀ p ∈ a.parts, s.coreMay .load false p.1 p.2 = true) → ∃ t,
        exec (.tload k) s = .next (if s.isLocal far then t else a.parts.foldl (fun u p => u.loadRange (.core k c.nextId) p.1 p.2) t) ∧
        Claims.OnlyCore s t k ∧ Claims.CoreCounters s t k 0 ∧ (t.core k).outs = c.outs ++ [out a] ∧ (t.core k).pc = c.pc + 1 ∧
        (t.core k).regs = c.regs ∧ ∀ x, (t.core k).handle x = if x = td then { h with st := .loading } else c.handle x)) ∧
    (Claims.Opcode w 2 0x0B → c.readable td = .ok → s.isLocal far = true →
      let a := c.tmove .tstore w h
      ((∃ p ∈ a.parts, s.coreMay .store false p.1 p.2 = false) → exec (.tstore k) s = .next (s.progFault k 5 w)) ∧
      ((∀ p ∈ a.parts, s.coreMay .store false p.1 p.2 = true) → ∃ t, exec (.tstore k) s = .next t ∧ Claims.OnlyCore s t k ∧ Claims.CoreCounters s t k 0 ∧
        (t.core k).outs = c.outs ++ [out a] ∧ (t.core k).pc = c.pc + 1 ∧ (t.core k).regs = c.regs ∧ (t.core k).handles = c.handles))

/-- R130, R140, R141: when a local TLOAD completes its handle is RESIDENT and the access is over; of one row, the row stands in the handle's region
and every other byte of memory is as it was. TZERO makes its handle RESIDENT, and +0 stands in each element of a one-row handle.
Choices of the model it rests on: log entries 10, 50. -/
def Obligations.TileRowsLand : Prop :=
  (∀ (k : Fin 256) (s : State) (a : Access) (r : Run) (n : Fin 64),
    (s.core k).outs.find? (fun b => b.kind = .tload && b.num == n.val) = some a → (s.core k).mustWait a = false → a.remote = false →
    a.refused = false → (s.core k).run = some r → r.stopping = false → ((s.core k).handle n).st = .loading →
    ∃ t, exec (.tloadComplete k n) s = .next t ∧
      (∀ x, (t.core k).handle x = if x = n.val then { (s.core k).handle n with st := .resident } else (s.core k).handle x) ∧
      (t.core k).outs = (s.core k).outs.filter (fun b => b.id ≠ a.id) ∧ (t.core k).regs = (s.core k).regs ∧ (∀ j, j ≠ k → t.core j = s.core j) ∧
      t.reg (Reg.coreInstrDone k) = (s.reg (Reg.coreInstrDone k) + 1) % 2 ^ 64 ∧
      (a.h.rows = 1 → a.h.block = .none → inCistern k a.h.base = false → a.h.pair = false → Claims.OneToOne s → Claims.OnStacks s →
        Claims.Sound s (aOff a.addr) a.h.rowBytes → Claims.Sound s a.h.base a.h.rowBytes →
        (∀ i < a.h.rowBytes, s.coreCut k (aOff a.addr + i) = false) → aOff a.addr + a.h.rowBytes ≤ 2 ^ 41 →
        Claims.Stores s t a.h.base (s.memBytes (aOff a.addr) a.h.rowBytes) ∧ Claims.OnlyCoreAndMemory s t k [Reg.coreInstrDone k])) ∧
  (∀ (k : Fin 256) (s : State) (w : Nat), Claims.Issues s k w → Claims.Opcode w 2 0x0C → bits w 47 0 = 0 →
    let h := (s.core k).handle (bits w 53 48)
    (s.core k).writable (bits w 53 48) = .ok → (inCistern k h.base = true → s.cisOpen k = true) →
    ∃ t, exec (.tzero k) s = .next t ∧ (t.core k).pc = (s.core k).pc + 1 ∧ (t.core k).regs = (s.core k).regs ∧
      (∀ x, (t.core k).handle x = if x = bits w 53 48 then { h with st := .resident } else (s.core k).handle x) ∧
      (∀ j, j ≠ k → t.core j = s.core j) ∧ t.reg (Reg.coreInstrDone k) = (s.reg (Reg.coreInstrDone k) + 1) % 2 ^ 64 ∧
      (h.rows = 1 → h.block = .none → inCistern k h.base = false → Claims.OneToOne s → Claims.OnStacks s → Claims.Sound s h.base h.rowBytes →
        Claims.Stores s t h.base (List.replicate h.rowBytes 0) ∧
        Claims.OnlyCoreAndMemory s t k [Reg.coreInstrDone k, Reg.coreIssueWait k, Reg.coreSyncWait k]))

/-- R145, R153: TWAIT goes on when its handle is RESIDENT and not busy, and waits else, its wait timed; FENCE goes on when no SLD, SST, AMO, TLOAD or
TSTORE of the core is outstanding, and waits else; TQPOP goes out and its register is pending; when the index arrives it is the LAUNCH's next tile
while tiles are left, else all ones, and nothing else changes but the count of indices and of instructions.
Choices of the model it rests on: log entries 50, 53. -/
def Obligations.WaitsAndTileQueue : Prop :=
  (∀ (k : Fin 256) (s : State) (w : Nat), Claims.Issues s k w → syncOk w = true →
    let c := s.core k
    (Claims.Opcode w 6 0x9 →
      ((c.handle (bits w 53 48)).st = .resident → c.busy (bits w 53 48) = false → ∃ t, exec (.twait k) s = .next t ∧ Claims.GoesTo s t k (c.pc + 1)) ∧
      (¬((c.handle (bits w 53 48)).st = .resident ∧ c.busy (bits w 53 48) = false) →
        (∀ n, c.waitAt = some (.sync, n) → exec (.twait k) s = .next s) ∧
        ((∀ n, c.waitAt ≠ some (.sync, n)) → ∃ t, exec (.twait k) s = .next t ∧ Claims.OnlyCore s t k ∧ Claims.CoreCounters s t k 0 ∧
          t.core k = { c with waitAt := some (.sync, s.cycles k) }))) ∧
    (Claims.Opcode w 6 0x8 →
      ((∀ a ∈ c.outs, a.kind = .tqpop) → ∃ t, exec (.fence k) s = .next t ∧ Claims.GoesTo s t k (c.pc + 1)) ∧
      ((∃ a ∈ c.outs, a.kind ≠ .tqpop) → exec (.fence k) s = .next s)) ∧
    (Claims.Opcode w 6 0xC → Claims.RegField (bits w 53 48) → bits w 53 48 ∉ c.pend →
      ∃ t, exec (.tqpop k) s = .next t ∧
        Claims.Issued s t k { Claims.scalarAcc s k .tqpop 0 0 (bits w 53 48) 0 0 0 with remote := false } (some (bits w 53 48)))) ∧
  (∀ (k : Fin 256) (s : State) (n : Nat) (a : Access) (r : Run),
    (s.core k).outs[n]? = some a → a.kind = .tqpop → a.remote = false → a.refused = false → a.bad = false → (s.core k).mustWait a = false →
    (s.core k).run = some r → r.stopping = false →
    let l := s.lrun r.launch
    let v := s.slot r.launch
    let more := bit (v.word 4) 15 = true ∧ l.tile < bits (v.word 4) 63 39
    ∃ t, exec (.pendingValueArrives k n) s = .next t ∧ t = { s with cores := t.cores, regs := t.regs, runs := t.runs } ∧
      (more → Claims.Writes s t k a.num (l.tile % 2 ^ 64) ∧ t.lrun r.launch = { l with tile := l.tile + 1 } ∧ ∀ i, i ≠ r.launch → t.lrun i = s.lrun i) ∧
      (¬more → Claims.Writes s t k a.num (2 ^ 64 - 1) ∧ t.runs = s.runs) ∧
      t.core k = { s.core k with
        regs := (t.core k).regs, pend := (s.core k).pend.filter (· ≠ a.num), outs := (s.core k).outs.filter (fun b => b.id ≠ a.id) } ∧
      (∀ j, j ≠ k → t.core j = s.core j) ∧ ∀ o, t.reg o =
        if o = Reg.coreTqPops k ∨ o = Reg.coreInstrDone k then (s.reg o + 1) % 2 ^ 64 else s.reg o)

/-! ## Matrix array and vector engine -/

/-- R102, R106, R108, R142: an MMA whose operands are legal and ready enters the array when fewer than two are there and the partial pool has room
for it: it carries its word and its handles as they are. A hold keeps it waiting (R107).
Choices of the model it rests on: log entries 51, 52. -/
def Obligations.MmaEntersArray : Prop :=
  ∀ (k : Fin 256) (s : State) (w : Nat) (r : Run), Claims.Issues s k w → Claims.Opcode w 3 0 → (s.core k).run = some r →
    let c := s.core k
    let a := c.handle (bits w 47 42)
    let b := c.handle (bits w 41 36)
    let d := c.handle (bits w 53 48)
    bit w 0 = false → bits w 24 23 ≠ 3 → a.st ≠ .free → b.st ≠ .free → d.st ≠ .free → s.mmaCause k w a b d = none →
    c.readable (bits w 47 42) = .ok → c.readable (bits w 41 36) = .ok → c.writable (bits w 53 48) = .ok →
    (bit w 33 = true → c.readable (bits w 53 48) = .ok) → Claims.NotPending c (mmaRegs w (inCistern k d.base)) → c.mxq.length < 2 →
    c.poolUsed + mxPool w a b ≤ r.banks * 0x40000 →
    (s.mxHeld k = true → ∃ t, exec (.mma k) s = .next t ∧ (t.core k).pc = c.pc ∧ (t.core k).mxq = c.mxq) ∧
    (s.mxHeld k = false → ∃ t f, exec (.mma k) s = .next t ∧ Claims.GoesOn s t k ∧ (t.core k).mxq = c.mxq ++ [f] ∧ (t.core k).mxn = c.mxn + 1 ∧
      f.word = w ∧ f.ta = some (bits w 47 42, a) ∧ f.tb = some (bits w 41 36, b) ∧ f.td = some (bits w 53 48, d) ∧ f.launch = r.launch ∧
      f.seed = c.get (bits w 14 10) ∧ f.salt = c.get (bits w 9 5) % 2 ^ 32 ∧ f.pos = c.get (32 + bits w 4 1) ∧ (t.core k).vxq = c.vxq)

/-- R109–R111: a root of up to 32 products is their exact sum, rounded to FP32 once; of 33 to 64 products it is the rounded sum of the two rounded
sums of the first 32 and of the rest.
Choices of the model it rests on: log entry 110. -/
def Obligations.MxGroupsAreExact : Prop :=
  (∀ ps : List FVal, 1 ≤ ps.length → ps.length ≤ 32 → mxRoot ps = flv (exactSum ps)) ∧
  (∀ ps : List FVal, 33 ≤ ps.length → ps.length ≤ 64 →
    mxRoot ps = flv ((flv (exactSum (ps.take 32))).add (flv (exactSum (ps.drop 32)))))

/-- R102, R109–R113, R121: the first MX instruction of a core's array completes: its destination is RESIDENT, the second instruction is first, and it
is counted. A 1 × 1 FP32 result outside the Cistern, rounded to nearest even, is the old value (with `d_acc`) plus the root of its products.
Choices of the model it rests on: log entries 51, 110. -/
def Obligations.MxCompleteWritesResult : Prop :=
  ∀ (k : Fin 256) (s : State) (f : Flight) (rest : List Flight) (r : Run) (na nb nd : Nat) (a b d : Handle),
    (s.core k).mxq = f :: rest → f.ta = some (na, a) → f.tb = some (nb, b) → f.td = some (nd, d) → (s.core k).run = some r → r.stopping = false →
    ((s.core k).handle nd).st ≠ .free →
    ∃ t, exec (.mxComplete k) s = .next t ∧ (t.core k).mxq = rest ∧ (t.core k).vxq = (s.core k).vxq ∧ (t.core k).regs = (s.core k).regs ∧
      (∀ x, (t.core k).handle x = if x = nd then { (s.core k).handle nd with st := .resident } else (s.core k).handle x) ∧
      t.reg (Reg.arrayMxDone k) = (s.reg (Reg.arrayMxDone k) + 1) % 2 ^ 64 ∧
      t.reg (Reg.coreInstrDone k) = (s.reg (Reg.coreInstrDone k) + 1) % 2 ^ 64 ∧ (∀ j, j ≠ k → t.core j = s.core j) ∧
      (Claims.OneFp32 k d → bits f.word 24 23 = 0 → s.handleBad a = false → s.handleBad b = false → s.handleBad d = false → Claims.OneToOne s →
        Claims.Sound s d.base 4 →
        let old := if bit f.word 33 then v32 (s.memNat d.base 4) else .zero false
        Claims.Stores s t d.base (leBytes 4 (fl (flv (old.add (s.mxElem f.word a b 0 0))))))

/-- R143, R163, R166: a VX instruction whose word, operands and registers are legal and ready enters the vector engine when fewer than two are
there and no hold is set: it carries its word, the handles it reads and writes, the scalar it broadcasts, and the inputs of its random values; the
program goes on behind it, and nothing else changes.
Choices of the model it rests on: log entries 51, 52. -/
def Obligations.VxEntersEngine : Prop :=
  ∀ e ∈ Claims.vxOps, ∀ (k : Fin 256) (s : State) (w : Nat) (r : Run), Claims.Issues s k w → Claims.Opcode w 4 e.1 → (s.core k).run = some r →
    let c := s.core k
    vxWordOk w = true → Claims.NotPending c (vxRegs w) → (∀ h ∈ vxSources w ++ [bits w 53 48], (c.handle h).st ≠ .free) →
    s.vxCause k w (c.get (bits w 34 30) % 2 ^ 32) (c.handle (bits w 47 42)) (c.handle (bits w 41 36)) (c.handle (bits w 35 30))
      (c.handle (bits w 53 48)) = none →
    (∀ h ∈ vxSources w, c.readable h = .ok) → c.writable (bits w 53 48) = .ok → c.vxq.length < 2 → c.hold = false →
    s.segBad w (c.handle (bits w 47 42)) (c.handle (bits w 41 36)) = false →
    ∃ t, exec (e.2 k) s = .next t ∧ Claims.OnlyCore s t k ∧ Claims.CoreCounters s t k 0 ∧
      t.core k = { c with pc := c.pc + 1, waitAt := none, vxq := c.vxq ++ [Claims.vxFlight s k w r.launch], vxn := c.vxn + 1 }

/-- R163, R166, R181: the running VX instruction, of any operation, completes: its destination is RESIDENT, the engine's next instruction begins, it is
counted with the cycles it ran. R50, R160, R166: for the element-wise arithmetic operations on one FP32 element, the destination holds the exact
result rounded once to nearest even.
Choices of the model it rests on: log entries 51, 115. -/
def Obligations.VxElementwiseResult : Prop :=
  (∀ e ∈ Claims.vxOps, ∀ (k : Fin 256) (s : State) (f : Flight) (rest : List Flight) (r : Run) (na nd : Nat) (a d : Handle),
    (s.core k).vxq = f :: rest → Claims.Opcode f.word 4 e.1 → f.ta = some (na, a) → f.td = some (nd, d) → (s.core k).run = some r →
    r.stopping = false → ((s.core k).handle nd).st ≠ .free →
    ∃ t, exec (.vxComplete k) s = .next t ∧ (t.core k).vxq = beginNext (s.cycles k) rest ∧ (t.core k).mxq = (s.core k).mxq ∧
      (t.core k).regs = (s.core k).regs ∧ (t.core k).pc = (s.core k).pc ∧
      (∀ x, (t.core k).handle x = if x = nd then { (s.core k).handle nd with st := .resident } else (s.core k).handle x) ∧
      t.reg (Reg.vecVxDone k) = (s.reg (Reg.vecVxDone k) + 1) % 2 ^ 64 ∧
      t.reg (Reg.vecBusy k) = (s.reg (Reg.vecBusy k) + (s.cycles k - f.since)) % 2 ^ 64 ∧
      t.reg (Reg.coreInstrDone k) = (s.reg (Reg.coreInstrDone k) + 1) % 2 ^ 64 ∧ (∀ j, j ≠ k → t.core j = s.core j)) ∧
  (∀ e ∈ Claims.vxElem, ∀ (k : Fin 256) (s : State) (f : Flight) (rest : List Flight) (r : Run) (na nb nc nd : Nat) (a b c d : Handle),
    (s.core k).vxq = f :: rest → Claims.Opcode f.word 4 e.1 → vxMod f.word = 0 → bit f.word 29 = false →
    f.ta = some (na, a) → f.tb = (if vxUsesB e.1 then some (nb, b) else none) → f.tc = (if vxUsesC e.1 0 then some (nc, c) else none) →
    f.td = some (nd, d) → f.sample = none → (s.core k).run = some r → r.stopping = false →
    Claims.OneFp32 k a → Claims.OneFp32 k b → Claims.OneFp32 k c → Claims.OneFp32 k d →
    s.handleBad a = false → s.handleBad b = false → s.handleBad c = false → Claims.OneToOne s → Claims.Sound s d.base 4 →
    ∃ t, exec (.vxComplete k) s = .next t ∧
      Claims.Stores s t d.base (leBytes 4 (fl (e.2 (v32 (s.memNat a.base 4)) (v32 (s.memNat b.base 4)) (v32 (s.memNat c.base 4))))))

/-- R144, R163: the SCALE instructions enter the vector engine like VX ones: SQUANT and SCONV carry their destination, SAMAX and SCONV make `rd`
pending, and each carries its history's margin, COLD and maximum in force as they are (R245); nothing else changes.
R144, R242, R243, R246: when they complete, the engine's next instruction begins. SAMAX writes the FP32 magnitude maximum of its handle into `rd`,
which pends no more; SHIST takes the finite magnitudes of its handle into the step accumulator of its history and counts the others; SQUANT and
SCONV make their destination RESIDENT, and SCONV writes its scale code and whether its history was cold into `rd`.
Choices of the model it rests on: log entries 51, 52. -/
def Obligations.ScaleEntersAndObserves : Prop :=
  (∀ e ∈ [(0, Instr.squant), (1, Instr.samax), (2, Instr.shist), (3, Instr.sconv)], ∀ (k : Fin 256) (s : State) (w : Nat) (r : Run),
    Claims.Issues s k w → Claims.Opcode w 5 e.1 → scaleWordOk w = true → (s.core k).run = some r →
    let c := s.core k
    let td := bits w 53 48
    let wrTd := e.1 = 0 ∨ e.1 = 3
    let wrRd := e.1 = 1 ∨ e.1 = 3
    Claims.NotPending c ((if wrRd then [bits w 41 36] else []) ++ if wrTd ∧ bits w 25 24 = 2 then [bits w 15 11, bits w 10 6, 32 + bits w 5 2] else []) →
    (c.handle (bits w 47 42)).st ≠ .free → (wrTd → (c.handle td).st ≠ .free) →
    s.scaleCause k e.1 (c.handle (bits w 47 42)) (c.handle td) = none → c.readable (bits w 47 42) = .ok → (wrTd → c.writable td = .ok) →
    c.vxq.length < 2 → c.hold = false →
    ∃ t, exec (e.2 k) s = .next t ∧ Claims.OnlyCore s t k ∧ Claims.CoreCounters s t k 0 ∧
      t.core k = { c with
        pc := c.pc + 1, waitAt := none, vxq := c.vxq ++ [Claims.scaleFlight s k w e.1 r.launch],
        pend := c.pend ++ (if wrRd ∧ bits w 41 36 ≠ 0 then [bits w 41 36] else []) }) ∧
  (∀ (k : Fin 256) (s : State) (f : Flight) (rest : List Flight) (r : Run) (na nd : Nat) (a d : Handle),
    (s.core k).vxq = f :: rest → f.ta = some (na, a) → f.tb = none → f.tc = none → (s.core k).run = some r → r.stopping = false →
    let vs := (List.range a.rows).map fun i => (List.range a.cols).map (s.vxVal false a i)
    let all := vs.flatten
    let fin := all.filter FVal.isFin
    let n := bits f.word 35 26
    let h := s.hist n
    let rd := bits f.word 41 36
    let seen := { h with
      nonfin := h.nonfin + (all.length - fin.length), acc := if fin = [] then h.acc else fl ((v32 h.acc).max false (maxFinite fin)),
      seen := h.seen || !fin.isEmpty }
    s.handleBad a = false →
    (Claims.Opcode f.word 5 1 → f.td = none → ∃ t, exec (.vxComplete k) s = .next t ∧ Claims.Writes s t k rd (fl (maxAbs all)) ∧
      (t.core k).vxq = beginNext (s.cycles k) rest ∧ (t.core k).pend = (s.core k).pend.filter (· ≠ rd) ∧ t.hists = s.hists ∧ t.mem = s.mem) ∧
    (Claims.Opcode f.word 5 2 → f.td = none → ∃ t, exec (.vxComplete k) s = .next t ∧ (t.core k).regs = (s.core k).regs ∧
      (t.core k).vxq = beginNext (s.cycles k) rest ∧ (∀ x, t.hist x = if x = n then seen else s.hist x) ∧ t.mem = s.mem) ∧
    (f.td = some (nd, d) → ((s.core k).handle nd).st ≠ .free →
      (Claims.Opcode f.word 5 0 → ∃ t, exec (.vxComplete k) s = .next t ∧ (t.core k).regs = (s.core k).regs ∧
        (t.core k).vxq = beginNext (s.cycles k) rest ∧ t.hists = s.hists ∧
        ∀ x, (t.core k).handle x = if x = nd then { (s.core k).handle nd with st := .resident } else (s.core k).handle x) ∧
      (Claims.Opcode f.word 5 3 → ∃ t, exec (.vxComplete k) s = .next t ∧
        Claims.Writes s t k rd (histCode d.ty (if f.cold then maxFinite all else v32 f.amax) f.scalar + 256 * b2n f.cold) ∧
        (t.core k).vxq = beginNext (s.cycles k) rest ∧ (t.core k).pend = (s.core k).pend.filter (· ≠ rd) ∧
        (∀ x, x ≠ n → t.hist x = s.hist x) ∧ (t.hist n).acc = seen.acc ∧ (t.hist n).seen = seen.seen ∧ (t.hist n).nonfin = seen.nonfin ∧
        ∀ x, (t.core k).handle x = if x = nd then { (s.core k).handle nd with st := .resident } else (s.core k).handle x)))

/-! ## Semaphores and events -/

/-- R145, R148, R125: a semaphore or event instruction goes to the Larder behind the accesses issued before it; SEMTRY's register is pending;
SEMWAIT and EVWAIT hold the core. An object number out of range is a program fault with cause 0x06.
R147, R148: once the stores issued before it are visible, the core's next semaphore or event operation takes effect, on an object that nobody
waits for: SEMSIG adds and stops at 2^32 − 1, counting when it does; SEMTRY takes n and reports 1 when the count allows, else 0; SEMWAIT takes n when the count allows and
else waits; EVSET sets and EVCLR clears.
Choices of the model it rests on: log entry 55. -/
def Obligations.SyncOperationsTakeEffect : Prop :=
  (∀ e ∈ Claims.syncOps, ∀ (k : Fin 256) (s : State) (w : Nat), Claims.Issues s k w → Claims.Opcode w 6 e.1 → syncOk w = true →
    match e with
    | (_, cmd, kind, size, dest, wait) =>
      let c := s.core k
      let obj := if bit w 35 then c.get (bits w 47 42) else bits w 31 16
      (dest = true → Claims.RegField (bits w 53 48)) →
      Claims.NotPending c ((if bit w 35 then [bits w 47 42] else []) ++ if dest then [bits w 53 48] else []) →
      (size ≤ obj → exec (cmd k) s = .next (s.progFault k 6 w)) ∧
      (obj < size → ∃ t, exec (cmd k) s = .next t ∧ Claims.OnlyCore s t k ∧ Claims.CoreCounters s t k 0 ∧
        t.core k = { c with
          pc := c.pc + 1, syncs := c.syncs ++ [⟨kind, obj, bits w 15 0, bits w 53 48, c.nextId⟩], inSync := wait,
          waitAt := if wait then some (.sync, s.cycles k) else none,
          pend := c.pend ++ (if dest ∧ bits w 53 48 ≠ 0 then [bits w 53 48] else []) })) ∧
  (∀ (k : Fin 256) (s : State) (o : SyncOp) (rest : List SyncOp) (r : Run),
    (s.core k).syncs = o :: rest → (∀ a ∈ (s.core k).outs, a.id < o.after → a.kind ≠ .sst ∧ a.kind ≠ .tstore ∧ a.kind ≠ .amo) →
    (s.core k).run = some r → r.stopping = false → s.sync.waiters o.obj = [] → Tbl.get [] s.sync.evQ o.obj = [] →
    let v := s.sync.sem o.obj
    ∃ t, exec (.syncOpApply k) s = .next t ∧ (t.core k).syncs = rest ∧
      (o.kind = .semsig → t.sync.sem o.obj = min (v + o.n) 0xFFFFFFFF ∧
        t.reg (Reg.coreSyncOverflows k) = (s.reg (Reg.coreSyncOverflows k) + (if 0xFFFFFFFF < v + o.n then 1 else 0)) % 2 ^ 64) ∧
      (o.kind = .semtry → o.n ≤ v → t.sync.sem o.obj = v - o.n ∧ Claims.Writes s t k o.rd 1) ∧
      (o.kind = .semtry → v < o.n → t.sync = s.sync ∧ Claims.Writes s t k o.rd 0) ∧
      (o.kind = .semwait → o.n ≤ v → t.sync.sem o.obj = v - o.n ∧ (t.core k).inSync = false) ∧
      (o.kind = .semwait → v < o.n → t.sync.sem o.obj = v ∧ t.sync.waiters o.obj = [.core k o.n] ∧ (t.core k).inSync = (s.core k).inSync) ∧
      (o.kind = .evset → t.sync.event o.obj = true) ∧ (o.kind = .evclr → t.sync.event o.obj = false) ∧
      (o.kind = .evwait → s.sync.event o.obj = true → (t.core k).inSync = false) ∧
      (o.kind = .evwait → s.sync.event o.obj = false → Tbl.get [] t.sync.evQ o.obj = [.core k 0]) ∧
      (∀ x, x ≠ o.obj → t.sync.sem x = s.sync.sem x ∧ t.sync.event x = s.sync.event x) ∧ t.mem = s.mem ∧ (∀ j, j ≠ k → t.core j = s.core j))

/-! ## The machine as a whole -/

namespace Sys2Proof.Claims

/-- Of the set-up registers only those listed may change. -/
def OnlyRegs (s t : State) (os : List Nat) : Prop := ∀ o, o ∉ os → t.reg o = s.reg o

/-- A fault record of this status, about this kind and index of unit, has been raised: it is the last kept in the cellar (R465, R537). -/
def Recorded (s t : State) (status kind index : Nat) : Prop :=
  ∃ f, t.heldFaults.getLast? = some f ∧ f.status = status ∧ f.kind = kind ∧ f.index = index ∧ f.fseq = nextSeq (s.fieldOf Reg.hostSeq 63 32)

/-- The descriptor in slot `i` has ended with a status and an info field, and no other slot has changed. -/
def Ends (s t : State) (i status info : Nat) : Prop :=
  (t.slot i).stage = .ended status info ∧ ∀ j, j ≠ i → t.slot j = s.slot j

/-- What every state keeps: memory, here and at the host, in its canonical form; 64 fault records waiting and 256 held at most (R466, R537). -/
def Inv (s : State) : Prop :=
  Tbl.wf 0 s.mem = true ∧ Tbl.wf 0 s.hostMem = true ∧ s.faults.length ≤ 64 ∧ s.heldFaults.length ≤ 256

end Sys2Proof.Claims

/-- A step on a queue that is not empty executes its first command on the state with the rest of the queue. -/
def Obligations.StepRunsFrontCommand : Prop :=
  ∀ (c : Instr) (cs : List Instr) (s : State), step { s with pending := c :: cs } = exec c { s with pending := cs }

/-- With no command waiting, a step is one nanosecond (the model's own choice, log entry 3): it changes the two counts of time, by 1 and by the
hundredths of a core cycle at the clock in force, and nothing where the hot-swap stage is open. -/
def Obligations.IdleStepPassesTime : Prop :=
  ∀ s : State, s.pending = [] →
    (s.power = false → step s = .next s) ∧
    (s.power = true → step s = .next { s with now := s.now + 1, centi := s.centi + s.rate }) ∧
    (s.fieldOf Reg.powerStatus 2 0 = 0 → s.flag Reg.powerStatus 20 = false → s.rate = 35) ∧
    (s.fieldOf Reg.powerStatus 2 0 = 0 → s.flag Reg.powerStatus 20 = true → s.effStep = 0 → s.rate = 140) ∧
    (s.fieldOf Reg.powerStatus 2 0 ∈ [2, 3, 4] → s.rate = 0)

/-- The state after reset meets the invariant; the registers the tables give a reset value hold it (a geometry table with every core, stack and
port in service, an odd epoch, every interrupt masked, the cap and the thermal limits as tabled); no core runs, every handle is FREE, no
semaphore counts and no event is set.
Choices of the model it rests on: log entries 1, 2, 22, 23. -/
def Obligations.ResetLeavesTabledValues : Prop :=
  Claims.Inv State.reset ∧ State.reset.pending = [] ∧
  State.reset.reg Reg.geomId = 0x2548A102 ∧ State.reset.reg Reg.geomEpoch = 1 ∧ State.reset.fieldOf Reg.geomCores 8 0 = 256 ∧
  State.reset.reg Reg.geomPortsUp = 0xFFFFFFFFFF ∧ State.reset.reg Reg.geomStacks = 0xFFFF ∧ State.reset.reg Reg.irqMask = 2 ^ 64 - 1 ∧
  State.reset.reg Reg.powerCap = 0x112C0 ∧ State.reset.reg Reg.thermCfg = 0x73695F ∧ State.reset.reg Reg.memCtl = 4 ∧
  (∀ l < 256, State.reset.coreMap l = 0x80000000 + l) ∧ State.reset.ready = false ∧ State.reset.owned = false ∧ State.reset.linkUp = false ∧
  (∀ k x, ((State.reset.core k).handle x).st = .free) ∧ (∀ k x, (State.reset.core k).get x = 0) ∧ (∀ k, (State.reset.core k).run = none) ∧
  (∀ n, State.reset.sync.sem n = 0 ∧ State.reset.sync.event n = false) ∧ State.reset.rooms = 1

/-- Whatever a command does, it takes nothing back: the queue stays as it is, the fuse log keeps its entries in their order, the production fuse
stays as it is, what has left the Criaro stays a matter of record, free values are used once, memory keeps its canonical form, no more than 64
fault records wait and no more than 256 are held.
Choices of the model it rests on: log entries 8, 107. -/
def Obligations.ExecKeepsHistory : Prop :=
  ∀ (c : Instr) (s t : State), exec c s = .next t → Follows s t

/-- The invariant is kept by every step, from every state that meets it.
Choices of the model it rests on: log entries 8, 107. -/
def Obligations.StepKeepsInvariant : Prop := KeptByStep Claims.Inv

/-- R509: over any run, the fuse log only grows: what it held stays, in its order, at its front. -/
def Obligations.FuseLogOnlyGrows : Prop :=
  ∀ s t : State, Reaches s t → s.fuses <+: t.fuses ∧ t.production = s.production

/-! ## Self-test, dips, geometry -/

/-- R5, R117–R119: the rotating test sets its hold on every core in service of a part that is ready; a test that was asked for starts once the core's
MX, VX and SCALE instructions are over; one that finds nothing is counted and releases the hold; a faulty row path is covered by a spare row while one
is left, with its fuse and its record, and the hold stays for the test to run again; a core with a fault that the spare lines do not cover is marked for
retirement, with the record. Before keeper firmware runs no test starts or ends.
Choices of the model it rests on: log entries 21, 37, 111. -/
def Obligations.SelfTestHoldsAndRepairs : Prop :=
  (∀ s : State, (s.ready = false → exec .rotatingSelfTest s = .next s) ∧
    (s.ready = true → ∃ t, exec .rotatingSelfTest s = .next t ∧ t = { s with cores := t.cores, regs := t.regs } ∧
      (∀ k < 256, t.core k = { s.core k with hold := (s.core k).hold || s.inService k } ∧
        (s.inService k = true → t.flag (Reg.arrayStatus k) 1 = true)) ∧
      ∀ o, (∀ k < 256, s.inService k = true → o ≠ Reg.arrayStatus k) → t.reg o = s.reg o)) ∧
  (∀ (k : Fin 256) (s : State),
    (s.keeperRuns = true → s.coreRetired k = false → (s.core k).hold = true ∨ (s.core k).testDue = true →
      ∃ t, exec (.selfTestStart k) s = .next t ∧ t = { s with cores := t.cores, regs := t.regs } ∧ t.flag (Reg.arrayStatus k) 1 = true ∧
        Claims.OnlyRegs s t [Reg.arrayStatus k] ∧ (∀ j, j ≠ k → t.core j = s.core j) ∧
        t.core k = { s.core k with
          hold := true, testDue := false, inTest := (s.core k).inTest || ((s.core k).mxq.isEmpty && (s.core k).vxq.isEmpty) }) ∧
    (s.keeperRuns = false → ∀ found vec, exec (.selfTestStart k) s = .next s ∧ exec (.selfTestDone k found vec) s = .next s)) ∧
  (∀ (k : Fin 256) (s : State), s.keeperRuns = true → (s.core k).inTest = true →
    let rows := s.fieldOf (Reg.arrayRepair k) 1 0
    let cols := s.fieldOf (Reg.arrayRepair k) 3 2
    (∃ t, exec (.selfTestDone k [] false) s = .next t ∧ t = { s with cores := t.cores, regs := t.regs } ∧
      t.core k = { s.core k with hold := false, inTest := false, testDue := false, suspect := none, heldAt := none } ∧
      t.fieldOf (Reg.arrayStatus k) 47 16 = (s.fieldOf (Reg.arrayStatus k) 47 16 + 1) % 2 ^ 32 ∧ t.fieldOf (Reg.arrayStatus k) 2 1 = 0 ∧
      Claims.OnlyRegs s t [Reg.arrayStatus k, Reg.arrayHeld k] ∧ ∀ j, j ≠ k → t.core j = s.core j) ∧
    (∀ r, rows < 2 → s.fuses.length < 4096 →
      ∃ t, exec (.selfTestDone k [.rowPath r] false) s = .next t ∧ t.fuses = s.fuses ++ [⟨1, rows + 1, k, r, s.reg Reg.geomFw⟩] ∧
        t.fieldOf (Reg.arrayRepair k) 1 0 = rows + 1 ∧ t.fieldOf (Reg.arrayRepair k) (15 + 8 * rows) (8 + 8 * rows) = r % 2 ^ 8 ∧
        t.flag (Reg.arrayStatus k) 2 = true ∧ t.cores = s.cores ∧ Claims.Recorded s t 0xFF 0 0) ∧
    (∀ found vec, vec = true ∨ planLines rows cols [] found = none → ∃ t, exec (.selfTestDone k found vec) s = .next t ∧
      t.flag (Reg.arrayStatus k) 3 = true ∧ t.flag Reg.geomCtl 1 = true ∧ (t.core k).hold = true ∧
      ∃ f ∈ t.heldFaults, f.status = 0x22 ∧ f.info = s.logical k ∧ f.kind = 1 ∧ f.index = k))

/-- R88–R92: a resolved dip of one element leaves the list of dips; one beyond its threshold is a mismatch: counted, recorded against its core, the
core held for a test, its LAUNCH marked; one within it enters the class's statistics, unless the sampler is shed, with mean and variance updated
by 1/n up to 1,024 samples and 2^−10 after, and the worst kept. R85, R94: forcing, where a period is set, has the next MX instruction sampled; a sampler
that fails its own check is stopped with a record.
Choices of the model it rests on: log entries 15, 17, 18, 116. -/
def Obligations.DipsAreCompared : Prop :=
  (∀ (k : Fin 256) (s : State) (d : Dip) (c : DipCell) (e : FVal),
    s.dips.find? (fun x => x.core == k.val) = some d → d.cells = [c] → c.yout = none → c.metric d.cls = some e → d.cls < 8 →
    let i := 8 * (k.val / 16) + d.cls
    ((s.dipThreshold (k.val / 16) d.cls).lt e = true → ∃ t, exec (.dipResolved k) s = .next t ∧ t.dips = s.dips.erase d ∧
      t.reg (Reg.dipMismatches k) = (s.reg (Reg.dipMismatches k) + 1) % 2 ^ 32 ∧ Claims.Recorded s t 0x23 10 k ∧
      (t.lrun d.launch).mismatch = true ∧ (t.core k).hold = ((s.core k).hold || !s.coreRetired k)) ∧
    ((s.dipThreshold (k.val / 16) d.cls).lt e = false → s.flag Reg.dipStatus 0 = true →
      exec (.dipResolved k) s = .next { s with dips := s.dips.erase d }) ∧
    ((s.dipThreshold (k.val / 16) d.cls).lt e = false → s.flag Reg.dipStatus 0 = false →
      let n := min (s.fieldOf (Reg.dipCount i) 47 0 + 1) (2 ^ 48 - 1)
      let w := if n ≤ 1024 then flv ((FVal.fin false 1 0).div (.ofInt n)) else FVal.fin false 1 (-10)
      let old := v32 (s.reg (Reg.dipMean i) % 2 ^ 32)
      let var := v32 (s.reg (Reg.dipVar i) % 2 ^ 32)
      let off := flv (e.sub old)
      ∃ t, exec (.dipResolved k) s = .next t ∧ t = { s with dips := s.dips.erase d, regs := t.regs } ∧ t.reg (Reg.dipCount i) = n ∧
        t.reg (Reg.dipMean i) = fl (old.add (flv (off.mul w))) % 2 ^ 64 ∧
        t.reg (Reg.dipVar i) = fl (var.add (flv ((flv ((flv (off.mul off)).sub var)).mul w))) % 2 ^ 64 ∧
        t.reg (Reg.dipWorst i) = fl ((v32 (s.reg (Reg.dipWorst i) % 2 ^ 32)).maxnum false e) % 2 ^ 64 ∧
        Claims.OnlyRegs s t [Reg.dipCount i, Reg.dipMean i, Reg.dipVar i, Reg.dipWorst i])) ∧
  (∀ (k : Fin 256) (s : State), (s.fieldOf Reg.dipCtl 23 16 = 0 → exec (.forcedMxDip k) s = .next s) ∧
    (s.fieldOf Reg.dipCtl 23 16 ≠ 0 → ∃ t, exec (.forcedMxDip k) s = .next t ∧
      t = { s with cores := t.cores } ∧ t.core k = { s.core k with forceMx := true } ∧ ∀ j, j ≠ k → t.core j = s.core j)) ∧
  (∀ (d : Fin 16) (s : State), exec (.dipSelfCheck d true) s = .next s ∧
    ∃ t, exec (.dipSelfCheck d false) s = .next t ∧ t.flag Reg.dipStatus (16 + d) = true ∧ Claims.Recorded s t 0xFF 10 d)

/-- R32–R34: a change of geometry waits for ADVANCE or a STEP_CLOSE, and for the end of every LAUNCH; it is then applied: the epoch rises by 2, the
pending cores leave the map, the highest logical cores that stay take their numbers, the others keep theirs, and the change is recorded. New
coordinates, where no job owns the part and they are in range, are their own epoch once the part is ready: house, room and rooms as written, the far
end of every port up is told, no house entry is valid, and no change is pending.
Choices of the model it rests on: log entries 4, 5, 119. -/
def Obligations.GeometryChangesAtQuietPoints : Prop :=
  (∀ (v : Word) (s : State), exec (.advance v) s = .next (if bit v.toNat 0 ∧ s.flag Reg.geomCtl 1 then { s with geomGo := true } else s)) ∧
  (∀ s : State, s.flag Reg.geomCtl 1 = false ∨ s.geomGo = false ∨ s.noLaunch = false → exec .geomEpochApply s = .next s) ∧
  (∀ s : State, s.flag Reg.geomCtl 1 = true → s.geomGo = true → s.noLaunch = true → s.fieldOf Reg.geomCores 8 0 ≤ 256 →
    let n := s.fieldOf Reg.geomCores 8 0
    let m := n - ((List.range n).filter s.retPending).length
    ∃ t, exec .geomEpochApply s = .next t ∧ t.flag Reg.geomCtl 1 = false ∧ t.geomGo = false ∧ t.fieldOf Reg.geomCores 8 0 = m ∧
      t.reg Reg.geomEpoch = (s.fieldOf Reg.geomEpoch 31 0 + 2) % 2 ^ 32 ∧ Claims.Recorded s t 0 0 0 ∧
      (∀ l < m, s.retPending l = false → t.phys l = s.phys l) ∧
      (∀ l < m, s.retPending l = true → ∃ j, m ≤ j ∧ j < n ∧ s.retPending j = false ∧ t.phys l = s.phys j) ∧
      (∀ l < n, m ≤ l → bit (t.coreMap l) 31 = false) ∧ (∀ l < n, s.retPending l = true → (t.core (s.phys l)).retired = true)) ∧
  (∀ (v : Word) (s : State),
    let h := bits v.toNat 31 16
    let n := bits v.toNat 13 8
    let r := bits v.toNat 4 0
    let ok := s.owned = false ∧ s.keeperRuns = true ∧ h ≠ 0xFFFF ∧ 1 ≤ n ∧ n ≤ 32 ∧ r < n
    (¬ok → exec (.fabCoordWrite v) s = .next s) ∧
    (ok → ∃ t, exec (.fabCoordWrite v) s = .next t ∧ t.house = h ∧ t.rooms = n ∧ t.room = r ∧
      t.reg Reg.fabCoord = h * 2 ^ 16 + n * 2 ^ 8 + r ∧
      (s.ready = true → t.reg Reg.geomEpoch = (s.fieldOf Reg.geomEpoch 31 0 + 2) % 2 ^ 32 ∧ t.flag Reg.geomCtl 1 = false) ∧
      (s.ready = false → t.reg Reg.geomEpoch = s.reg Reg.geomEpoch) ∧
      (∀ p < 40, s.flag (Reg.fabPortStatus p) 0 = true → Out.coords p h r n ∈ t.out) ∧
      (∀ x < 65536, bit (t.reg (Reg.houseRouteA x)) 25 = false ∧ bit (t.reg (Reg.houseRouteB x)) 25 = false)))

/-! ## LAUNCH, FENCE, SIGNAL, STEP_CLOSE -/

namespace Sys2Proof.Claims

/-- Core `k` has begun the LAUNCH of slot `i` at index `ix`, whose text is in its store (R152): control is at instruction 0, its handles are FREE,
no register pends, its registers hold what R152 gives and are zero else, the LAUNCH has a start time, and no other core changes. -/
def Begins (s t : State) (k i ix : Nat) (rest : List (Nat × Nat)) (outs : List Access) : Prop :=
  let v := s.slot i
  let regs := [(1, ix), (2, v.coreCount), (3, v.coreBase + ix), (4, v.tileCount), (32, v.word 3), (33, s.localAddr (scratchBase k)),
    (34, s.localAddr (landingBase k)), (35, s.localAddr (cisternBase k)), (36, s.localAddr syncBase)]
  t.core k = { s.core k with
    regs := (t.core k).regs, prog := (t.core k).prog, outs := outs, pend := [], handles := [], progAddr := some (v.word 2), pc := 0, inSync := false,
    waitAt := none, queue := rest,
    run := some ⟨i, ix, v.coreBase + ix, v.progLen, bits (v.word 4) 35 33, s.reg Reg.geomEpoch, false, false⟩ } ∧
  (∀ e ∈ regs, (t.core k).get e.1 = e.2 % 2 ^ 64) ∧ (∀ x, x ∉ regs.map Prod.fst → (t.core k).get x = 0) ∧
  (t.lrun i).t0 = some ((s.lrun i).t0.getD s.now) ∧ t.reg (Reg.coreTag k) = v.tag % 2 ^ 64 ∧ (∀ j, j ≠ k → t.core j = s.core j) ∧
  (bits (v.word 5) 17 16 = 2 → t.reg (Reg.cisStatus k) = bits (v.word 7) 31 16 * 2 ^ 48 + b2n (bit (v.word 5) 18) * 2 + 1 ∧
    t.reg (Reg.cisSeed k) = v.word 6 % 2 ^ 64 ∧ t.reg (Reg.cisStream k) = bits (v.word 7) 15 0)

end Sys2Proof.Claims

/-- R150, R151, R214, R392: a LAUNCH that is ready enters the queues of its cores in order and has started; it waits before a core whose queue holds
four. One that is malformed, whose text it may not read, or that names a core about to be retired ends with that status, the earliest of these.
R151, R152, R223: a core that runs nothing takes the next LAUNCH of its queue. Its text, read once at `prog_addr`, is in its store, or is kept there
under KEEP; a text in another room is asked for by LOADs, and the LAUNCH starts once it has come. A Cistern control of 2 opens the Cistern. A
descriptor's built-in program starts with no text.
R154–R157: a LAUNCH that has ended on every core and whose dips are resolved ends: CANCELLED, CORE_RETIRED, DIP_MISMATCH, the status of its first
program fault with the cause and the core's index, TARGET_DEAD, SCALE_COLD, SCALE_CLAMPED or OK, the first that holds. One whose watchdog expires
below shed level 4 is cancelled: a record gives its context and tag, how many of its cores still run and the lowest, and they all stop.
Choices of the model it rests on: log entries 4, 54, 64, 101. -/
def Obligations.LaunchStartsAndEnds : Prop :=
  ((∀ (i : Nat) (s : State), s.opReady i 1 = true → (s.slot i).step = 0 →
    let v := s.slot i
    let ks := v.cores.map s.phys
    let read := s.readBad true (v.word 2) (8 * v.progLen)
    (s.launchBad v = true → ∃ t, exec (.launch i) s = .next t ∧ Claims.Ends s t i 0x14 0) ∧
    (∀ st, s.launchBad v = false → read = some st → ∃ t, exec (.launch i) s = .next t ∧ Claims.Ends s t i st 0) ∧
    (s.launchBad v = false → read = none → (∃ l ∈ v.cores, s.retPending l = true) →
      ∃ t, exec (.launch i) s = .next t ∧ Claims.Ends s t i 0x22 0) ∧
    (s.launchBad v = false → read = none → (∀ l ∈ v.cores, s.retPending l = false) → ks.Nodup →
      ((∀ k ∈ ks, (s.core k).queue.length < 4) →
        ∃ t, exec (.launch i) s = .next t ∧ t.slot i = { v with stage := .started, step := 1 } ∧ (∀ j, j ≠ i → t.slot j = s.slot j) ∧
          t.lrun i = { LaunchRun.none with cores := ks, entered := ks.length } ∧
          (∀ ix k, ks[ix]? = some k → t.core k = { s.core k with queue := (s.core k).queue ++ [(i, ix)] }) ∧ ∀ k, k ∉ ks → t.core k = s.core k) ∧
      (∀ n k, ks[n]? = some k → 4 ≤ (s.core k).queue.length → (∀ j < n, ∀ q, ks[j]? = some q → (s.core q).queue.length < 4) →
        ∃ t, exec (.launch i) s = .next t ∧ t.slot i = { v with step := 1 } ∧ t.lrun i = { LaunchRun.none with cores := ks, entered := n } ∧
          (∀ ix q, ix < n → ks[ix]? = some q → t.core q = { s.core q with queue := (s.core q).queue ++ [(i, ix)] }) ∧
          t.core k = s.core k))) ∧
  (∀ (k : Fin 256) (s : State) (i ix : Nat) (rest : List (Nat × Nat)), (s.core k).run = none → (s.core k).queue = (i, ix) :: rest →
    s.coresHeld = false →
    let c := s.core k
    let v := s.slot i
    let a := v.word 2
    let n := 8 * v.progLen
    let kept := bit (v.word 4) 14 = true ∧ c.progAddr = some a
    (v.opcode ≠ 1 → ∃ t, exec (.launchStart k) s = .next t ∧ (∀ j, j ≠ k → t.core j = s.core j) ∧ t.reg (Reg.coreTag k) = v.tag % 2 ^ 64 ∧
      t.core k = { c with
        regs := [], pend := [], handles := [], progAddr := none, pc := 0, inSync := false, waitAt := none, queue := rest,
        run := some ⟨i, ix, s.logical k, 0, 0, s.reg Reg.geomEpoch, false, true⟩ }) ∧
    (v.opcode = 1 → kept → ∃ t, exec (.launchStart k) s = .next t ∧ Claims.Begins s t k i ix rest c.outs ∧ (t.core k).prog = c.prog) ∧
    (v.opcode = 1 → ¬kept → (s.isLocal a = true ∧ isHost a = false) ∨ (isHost a = true ∧ s.linkUp = true) →
      ∃ t, exec (.launchStart k) s = .next t ∧ Claims.Begins s t k i ix rest c.outs ∧
        ∀ p < v.progLen, Tbl.get 0 (t.core k).prog p = BitVec.ofNat 64 (s.descNat v (a + 8 * p) 8)) ∧
    (v.opcode = 1 → ¬kept → s.isLocal a = false → isHost a = false →
      ((∀ x ∈ c.outs, x.kind ≠ .prog) → ∃ (t : State) (x : Access), exec (.launchStart k) s = .next (t.loadRange (.core k c.nextId) a n) ∧
        t = { s with cores := t.cores } ∧ t.core k = { c with nextId := c.nextId + 1, outs := c.outs ++ [x] } ∧ (∀ j, j ≠ k → t.core j = s.core j) ∧
        x.id = c.nextId ∧ x.kind = .prog ∧ x.addr = a ∧ x.size = n ∧ x.num = i ∧ x.left = (lineParts a n).length ∧ x.got = [] ∧
        x.refused = false ∧ x.bad = false) ∧
      (∀ x, c.outs.find? (fun x => x.kind = .prog) = some x →
        (x.left ≠ 0 → exec (.launchStart k) s = .next s) ∧
        (x.left = 0 → x.num = i → x.addr = a → x.size = n → x.refused = false →
          ∃ t, exec (.launchStart k) s = .next t ∧ Claims.Begins s t k i ix rest (c.outs.filter fun y => y.id ≠ x.id) ∧
            ∀ p < v.progLen, Tbl.get 0 (t.core k).prog p =
              BitVec.ofNat 64 (leNat ((List.range 8).map fun j => cellByte x.got (a + (8 * p + j)))))))) ) ∧
  ((∀ (i : Nat) (s : State), (s.slot i).opcode = 1 → (s.slot i).stage = .started → (s.lrun i).done.length = (s.lrun i).cores.length →
    (∀ d ∈ s.dips, d.launch ≠ i) →
    let l := s.lrun i
    ∃ t, exec (.launchComplete i) s = .next t ∧ t = { s with slots := t.slots } ∧
      (l.cancelled = true → Claims.Ends s t i 0x13 0) ∧
      (l.cancelled = false → l.retired = true → Claims.Ends s t i 0x22 0) ∧
      (l.cancelled = false → l.retired = false → l.mismatch = true → Claims.Ends s t i 0x23 0) ∧
      (l.cancelled = false → l.retired = false → l.mismatch = false →
        (∀ c ix, l.fault = some (c, ix) → Claims.Ends s t i (if c = 5 then 0x15 else 0x14) (c * 2 ^ 8 + ix)) ∧
        (l.fault = none → Claims.Ends s t i (if l.dead then 0x20 else if l.cold then 3 else if l.clamped then 1 else 0) 0))) ∧
  (∀ (i : Nat) (s : State) (t0 : Nat), (s.slot i).opcode = 1 → (s.slot i).step ≠ 0 → bits ((s.slot i).word 5) 15 0 ≠ 0 → (s.lrun i).t0 = some t0 →
    (s.lrun i).done.length ≠ (s.lrun i).cores.length → (s.lrun i).cancelled = false → s.fieldOf Reg.powerStatus 10 8 < 4 →
    let left := (s.lrun i).cores.zipIdx.filter fun e => (s.core e.1).run.any fun r => r.launch == i
    ∃ t, exec (.watchdogExpiry i) s = .next t ∧ (t.lrun i).cancelled = true ∧
      (∃ f ∈ t.heldFaults, f.status = 0x13 ∧ f.kind = 2 ∧ f.index = (s.slot i).ctx / 8 ∧ f.detail = (s.slot i).tag ∧
        f.detail2 = left.length + (left.map Prod.snd).headD 0 * 2 ^ 16) ∧
      ∀ k ∈ (s.lrun i).cores, ∀ r, (t.core k).run = some r → r.launch = i → r.stopping = true))

/-- R459: a FENCE ends when every condition it names holds: under DRAIN, the earlier descriptors of its context are over, and it waits for them; then
its event is set, and it waits for it; then it takes its count from its semaphore, and waits for it. R460: a SIGNAL acts once the earlier
descriptors of its context are over: its write, and when that is visible its semaphore, its event, its vector; one that names both event actions, or
whose write is not admitted, ends with that status. R244, R256: STEP_CLOSE ends, every history's counts of the step are copied and restart, its
configuration takes effect, an accumulator that saw a conversion enters the ring, the step counter rises, and a change of geometry that is pending
may follow.
Choices of the model it rests on: log entries 67, 101, 123. -/
def Obligations.FenceSignalAndStepClose : Prop :=
  (∀ (i : Nat) (s : State), s.opReady i 8 = true →
    let v := s.slot i
    let w := v.word 2
    let n := bits (v.word 3) 31 0
    let o := bits w 27 16
    let ev := bits w 41 32
    (v.step = 0 → bit w 0 = true → s.earlier i = true → exec (.fenceDescriptor i) s = .next s) ∧
    (v.step = 0 → v.grant = false → (bit w 0 = true → s.earlier i = false) →
      (bit w 2 = true → s.sync.event ev = false →
        ∃ t, exec (.fenceDescriptor i) s = .next t ∧ t = { s with slots := t.slots, sync := t.sync } ∧ t.slot i = { v with step := 2 } ∧
          t.sync = { s.sync with evQ := t.sync.evQ } ∧ Tbl.get [] t.sync.evQ ev = Tbl.get [] s.sync.evQ ev ++ [.slot i 0]) ∧
      ((bit w 2 = true → s.sync.event ev = true) →
        (bit w 1 = true → s.sync.waiters o = [] ∧ n ≤ s.sync.sem o) →
          ∃ t, exec (.fenceDescriptor i) s = .next t ∧ t = { s with slots := t.slots, sync := t.sync } ∧ Claims.Ends s t i 0 0 ∧
            (∀ x, t.sync.event x = s.sync.event x) ∧ ∀ x, t.sync.sem x = if bit w 1 = true ∧ x = o then s.sync.sem x - n else s.sync.sem x) ∧
      ((bit w 2 = true → s.sync.event ev = true) → bit w 1 = true → s.sync.waiters o = [] → s.sync.sem o < n →
        ∃ t, exec (.fenceDescriptor i) s = .next t ∧ t = { s with slots := t.slots, sync := t.sync } ∧ t.slot i = { v with step := 4 } ∧
          t.sync.waiters o = [.slot i n] ∧ ∀ x, t.sync.sem x = s.sync.sem x)) ∧
    (v.step = 4 → v.grant = false → exec (.fenceDescriptor i) s = .next s) ∧
    (v.step = 4 → v.grant = true → ∃ t, exec (.fenceDescriptor i) s = .next t ∧ t = { s with slots := t.slots } ∧ Claims.Ends s t i 0 0)) ∧
  (∀ (i : Nat) (s : State), s.opReady i 9 = true →
    let v := s.slot i
    let w := v.word 2
    let a := v.word 4
    let o := bits w 27 16
    let bs := leBytes 8 (v.word 5)
    (s.earlier i = true ∨ s.slotBusy i = true → exec (.signal i) s = .next s) ∧
    (s.earlier i = false → s.slotBusy i = false → (v.step = 0 → bit w 3 = true → isHost a = true → s.linkUp = true) →
      (v.step = 0 → bit w 1 = true → bit w 2 = true → ∃ t, exec (.signal i) s = .next t ∧ Claims.Ends s t i 0x14 0) ∧
      (v.step = 0 → ¬(bit w 1 = true ∧ bit w 2 = true) → bit w 3 = true →
        (∀ st, s.writeBad true a 8 = some st → ∃ t, exec (.signal i) s = .next t ∧ Claims.Ends s t i st 0) ∧
        (s.writeBad true a 8 = none → isHost a = false → s.isLocal a = false → (s.storeRange (.slot i) a bs).slotBusy i = true →
          let u := s.storeRange (.slot i) a bs
          exec (.signal i) s = .next (u.setSlot i { u.slot i with step := 1 }))) ∧
      ((v.step = 1 ∧ v.refused = false ∧ v.dead = false) ∨ (v.step = 0 ∧ ¬(bit w 1 = true ∧ bit w 2 = true) ∧
          (bit w 3 = true → s.writeBad true a 8 = none ∧ s.rangeCut v a 8 = false ∧ (isHost a = true ∨ s.isLocal a = true))) →
        (bit w 0 = true → s.sync.waiters o = []) →
        ∃ t, exec (.signal i) s = .next t ∧ (t.slot i).stage = .ended 0 0 ∧
          (v.step = 0 → bit w 3 = true → isHost a = false → Claims.OneToOne s → Claims.OnStacks s → Claims.Sound s (aOff a) 8 →
            Claims.Stores s t (aOff a) bs) ∧
          (v.step = 0 → bit w 3 = true → isHost a = true →
            ∀ x, t.hostByte x = if h : bits a 45 0 ≤ x ∧ x - bits a 45 0 < bs.length then bs[x - bits a 45 0]'h.2 else s.hostByte x) ∧
          (v.step = 1 ∨ bit w 3 = false → t.mem = s.mem ∧ t.hostMem = s.hostMem) ∧
          (∀ x, t.sync.sem x = if bit w 0 = true ∧ x = o then min (s.sync.sem x + bits (v.word 3) 31 0) 0xFFFFFFFF else s.sync.sem x) ∧
          (∀ x, t.sync.event x = if x = bits w 41 32 ∧ bit w 1 = true then true else if x = bits w 41 32 ∧ bit w 2 = true then false
            else s.sync.event x) ∧
          (bit w 4 = true → t.flag Reg.irqPending (bits w 53 48) = true)))) ∧
  (∀ (i : Nat) (s : State), s.opReady i 10 = true → (∀ e ∈ s.hists, e.1 < 1024) →
    ∃ t, exec (.stepClose i) s = .next t ∧ Claims.Ends s t i 0 0 ∧ (s.fieldOf Reg.sluLayerCount 8 0 = 0 → t.mem = s.mem) ∧ t.cores = s.cores ∧
      t.geomGo = (s.geomGo || s.flag Reg.geomCtl 1) ∧ t.reg Reg.rngStep = (s.reg Reg.rngStep + 1) % 2 ^ 64 ∧
      ∀ n < 1024,
        let h := s.hist n
        let len := s.fieldOf (Reg.sclCfg n) 5 0
        let margin := s.fieldOf (Reg.sclCfg n) 10 8
        let ring := (h.acc :: h.ring.take (len + 1)).take (len + 1)
        t.hist n = (if h.seen then ⟨ring, 0, false, ring.foldl maxCode 0, false, len, margin, 0, 0, 0⟩
          else { h with len := len, margin := margin, ring := h.ring.take (len + 1), sat := 0, flush := 0, nonfin := 0 }) ∧
        t.reg (Reg.sclSat n) = min h.sat 0xFFFFFFFF ∧ t.reg (Reg.sclFlush n) = min h.flush 0xFFFFFFFF ∧
        t.reg (Reg.sclNonfinite n) = min h.nonfin 0xFFFFFFFF)

/-! ## Descriptors -/

/-- R448, R449, R490: a doorbell that R448 does not ignore sets its ring's tail, one that it ignores is counted; the stores the host has made before
stand in host memory. It ends IDLE and wakes the part from NAP, and an entry in progress is to be abandoned; in DEEP it wakes the part and does nothing
else; with the link down only the host's stores are made. R446, R449: a queue engine fetches entries from the head of an enabled ring, as many as
wait, at most 16; without ownership or the JOB bit they end ACCESS_DENIED.
Choices of the model it rests on: log entries 101, 102. -/
def Obligations.DoorbellsAndFetch : Prop :=
  (∀ (page : Fin 4096) (size : Nat) (v : Word) (host : Cells) (s : State),
    let st := s.fieldOf Reg.powerStatus 2 0
    let bad := !s.ready || size != 8 || bits v.toNat 63 28 != 0 || bits v.toNat 27 16 != page || !s.flag (Reg.ringCfg page) 63 ||
      decide (s.ringSize (Reg.ringCfg page) ≤ bits v.toNat 15 0)
    let taken := fun t : State => t.hostMem = (s.hostCells host).hostMem ∧
      t.reg (Reg.ringTail page) = (if bad then s.reg (Reg.ringTail page) else v.toNat % 65536) ∧
      t.reg Reg.dbDropped = (if bad then (s.reg Reg.dbDropped + 1) % 2 ^ 64 else s.reg Reg.dbDropped)
    (s.linkUp = false → exec (.doorbell page size v host) s = .next (s.hostCells host)) ∧
    (s.linkUp = true → s.entry = none →
      (st = 0 → ∃ t, exec (.doorbell page size v host) s = .next t ∧ taken t ∧ t = { s.hostCells host with regs := t.regs } ∧
        Claims.OnlyRegs s t [Reg.ringTail page, Reg.dbDropped]) ∧
      (st = 1 → ∃ t, exec (.doorbell page size v host) s = .next t ∧ taken t ∧ t.fieldOf Reg.powerStatus 2 0 = 0) ∧
      (st = 2 → ∃ t, exec (.doorbell page size v host) s = .next t ∧ taken t ∧ t.fieldOf Reg.powerStatus 2 0 = 6) ∧
      (st = 3 → ∃ t, exec (.doorbell page size v host) s = .next t ∧ t.fieldOf Reg.powerStatus 2 0 = 6 ∧
        t.reg (Reg.ringTail page) = s.reg (Reg.ringTail page) ∧ t.reg Reg.dbDropped = s.reg Reg.dbDropped)) ∧
    (s.linkUp = true → s.entry.isSome = true → st = 5 →
      ∃ t, exec (.doorbell page size v host) s = .next t ∧ taken t ∧ t.abortDue = true ∧ t.entry = s.entry)) ∧
  (∀ (r : Fin 4096) (n : Nat) (s : State),
    (s.mayFetch = false ∨ s.flag (Reg.ringCfg r) 63 = false → exec (.descriptorFetch r n) s = .next s) ∧
    (s.mayFetch = true → s.flag (Reg.ringCfg r) 63 = true → s.fieldOf (Reg.ringCfg r) 4 0 ≤ 16 →
      s.fieldOf (Reg.ringHead r) 15 0 < s.ringSize (Reg.ringCfg r) →
      let k := min (min n 16) (s.ringWaiting r)
      let h := s.fieldOf (Reg.ringHead r) 15 0
      let size := s.ringSize (Reg.ringCfg r)
      ∃ t, exec (.descriptorFetch r n) s = .next t ∧ t = { s with slots := t.slots, nextSlot := s.nextSlot + k, regs := t.regs } ∧
        t.fieldOf (Reg.ringHead r) 15 0 = (h + k) % size ∧ Claims.OnlyRegs s t [Reg.ringHead r] ∧ (∀ j < s.nextSlot, t.slot j = s.slot j) ∧
        ∀ j < k, t.slot (s.nextSlot + j) = { Slot.none with
          ring := r, ctx := 8 * s.fieldOf (Reg.ringCfg r) 21 16 + s.fieldOf (Reg.ringCfg r) 10 8, cq := s.fieldOf (Reg.ringCfg r) 39 32,
          words := s.ringEntry r ((h + j) % size),
          stage := if s.owned && s.flag (Reg.ringCfg r) 62 then .fetched else .ended 0x15 0 }))

/-- R435, R447, R452: where queue engines start descriptors, a context whose head does not hold it takes its next descriptor: ready, or ended
DESCRIPTOR_INVALID when it is not valid; one that waits for its semaphore is ready when it takes 1 and holds the context else, until it has it. R436:
when a pool's watermark event is set and descriptors are parked on the pool, it is cleared and they are ready.
Choices of the model it rests on: log entry 101. -/
def Obligations.DescriptorsStart : Prop :=
  (∀ (ctx : Fin 512) (s : State),
    (s.starts = false → exec (.descriptorStart ctx) s = .next s) ∧
    (s.starts = true → ∀ i, (s.slots.find? fun e => e.2.ctx == ctx.val && s.holdsCtx e.2) = some (i, s.slot i) →
      ((s.slot i).stage = .waiting → (s.slot i).grant = true → ∃ t, exec (.descriptorStart ctx) s = .next t ∧ t = { s with slots := t.slots } ∧
        t.slot i = { s.slot i with stage := .ready, grant := false } ∧ ∀ j, j ≠ i → t.slot j = s.slot j) ∧
      (¬((s.slot i).stage = .waiting ∧ (s.slot i).grant = true) → exec (.descriptorStart ctx) s = .next s)) ∧
    (s.starts = true → (∀ e ∈ s.slots, e.2.ctx = ctx → s.holdsCtx e.2 = false) →
      (s.ctxNext ctx = none → exec (.descriptorStart ctx) s = .next s) ∧
      (∀ i, s.ctxNext ctx = some i →
        let v := s.slot i
        let o := bits (v.word 0) 27 16
        (v.valid = false → ∃ t, exec (.descriptorStart ctx) s = .next t ∧ Claims.Ends s t i 0x14 0) ∧
        (v.valid = true → bit (v.word 0) 9 = false → ∃ t, exec (.descriptorStart ctx) s = .next t ∧ t.slot i = { v with stage := .ready } ∧
          (∀ j, j ≠ i → t.slot j = s.slot j) ∧ t = { s with slots := t.slots, ctxTurn := t.ctxTurn }) ∧
        (v.valid = true → bit (v.word 0) 9 = true → s.sync.waiters o = [] → 1 ≤ s.sync.sem o →
          ∃ t, exec (.descriptorStart ctx) s = .next t ∧ t = { s with slots := t.slots, ctxTurn := t.ctxTurn, sync := t.sync } ∧
            t.slot i = { v with stage := .ready, grant := false } ∧ t.sync.sem o = s.sync.sem o - 1 ∧ ∀ x, x ≠ o → t.sync.sem x = s.sync.sem x) ∧
        (v.valid = true → bit (v.word 0) 9 = true → v.grant = false → s.sync.waiters o = [] → s.sync.sem o = 0 →
          ∃ t, exec (.descriptorStart ctx) s = .next t ∧ t = { s with slots := t.slots, ctxTurn := t.ctxTurn, sync := t.sync } ∧
            t.slot i = { v with stage := .waiting } ∧ t.sync.waiters o = [.slot i 1] ∧ ∀ x, t.sync.sem x = s.sync.sem x)))) ∧
  (∀ (p : Fin 65) (s : State),
    let e := if p.val = 64 then s.fieldOf Reg.sluRrWater 41 32 else s.fieldOf (Reg.panLowWater p) 41 32
    (s.sync.event e = false ∨ (∀ x ∈ s.slots, x.2.stage ≠ .parked p) → exec (.parkRestart p) s = .next s) ∧
    (∀ i, s.sync.event e = true → (s.slot i).stage = .parked p →
      ∃ t, exec (.parkRestart p) s = .next t ∧ t.sync.event e = false ∧ (∀ x, x ≠ e → t.sync.event x = s.sync.event x) ∧
        (∀ j, (s.slot j).stage = .parked p → t.slot j = { s.slot j with stage := .ready }) ∧
        (Tbl.wf Slot.none s.slots = true → ∀ j, (s.slot j).stage ≠ .parked p → t.slot j = s.slot j) ∧ t.mem = s.mem ∧ t.cores = s.cores))

/-- R214, R392, R452, R462–R464, R503: a descriptor that has ended, whose requests, cores and dips are over, leaves its slot once its ring takes a
record; under the fault latch none does. Its status is CANCELLED when it was cancelled, ACCESS_DENIED when a target refused it, TARGET_DEAD when a target was
dead and it would have succeeded, else its own; a status below 0x10 gives its semaphore 1. The record of tag, sequence, status and info stands at the
ring's tail, which advances, and the tail at its shadow where it has one; with the link down the record is held. A COLLECTIVE or an UPDATE is counted with it
(R274, R437).
Choices of the model it rests on: log entry 101. -/
def Obligations.DescriptorsEnd : Prop :=
  ∀ (i : Nat) (s : State),
    let v := s.slot i
    ((∀ st info, v.stage ≠ .ended st info) ∨ s.slotBusy i = true ∨ s.cqTakes v.cq = false ∨ s.flag Reg.fltLatch 0 = true ∨
      (s.lrun i).done.length ≠ (s.lrun i).cores.length ∨ (∃ d ∈ s.dips, d.launch = i) → exec (.descriptorEnd i) s = .next s) ∧
    (∀ st info, v.stage = .ended st info → s.slotBusy i = false → s.cqTakes v.cq = true → s.flag Reg.fltLatch 0 = false →
      (s.lrun i).done.length = (s.lrun i).cores.length → (∀ d ∈ s.dips, d.launch ≠ i) → v.cq < 256 →
      let out := if v.cancelled then (0x13, v.info) else if v.refused && st != 0x13 then (0x15, v.info)
        else if v.dead && decide (st < 0x10) then (0x20, 0) else (st, info)
      let o := bits (v.word 0) 43 32
      let signals := bit (v.word 0) 10 = true ∧ out.1 < 0x10
      let a := s.reg (Reg.cqBase v.cq) + 16 * s.reg (Reg.cqTail v.cq)
      let sh := s.reg (Reg.cqShadow v.cq)
      let tail := (s.reg (Reg.cqTail v.cq) + 1) % s.ringSize (Reg.cqCfg v.cq) % 2 ^ 64
      ∃ t, exec (.descriptorEnd i) s = .next t ∧ t.slot i = Slot.none ∧ t.mem = s.mem ∧
        (v.opcode = 6 → t.reg Reg.colDone = (s.reg Reg.colDone + 1) % 2 ^ 64) ∧
        (v.opcode = 7 → v.convs = [] → t.reg Reg.updDone = (s.reg Reg.updDone + 1) % 2 ^ 64) ∧
        (signals → s.sync.waiters o = [] → t.sync.sem o = min (s.sync.sem o + 1) 0xFFFFFFFF) ∧
        (¬signals → t.sync = s.sync ∧ ∀ j, j ≠ i → t.slot j = s.slot j) ∧
        (s.linkUp = true → t.reg (Reg.cqTail v.cq) = tail ∧
          (sh = 0 ∨ sh + 8 ≤ a ∨ a + 16 ≤ sh → t.hostRead a 16 =
            leBytes 8 v.tag ++ leBytes 4 (nextSeq (s.fieldOf Reg.hostSeq 31 0)) ++ leBytes 2 out.1 ++ leBytes 2 out.2) ∧
          (sh ≠ 0 → t.hostRead sh 8 = leBytes 8 tail) ∧
          ∀ x, (x < a ∨ a + 16 ≤ x) → (sh = 0 ∨ x < sh ∨ sh + 8 ≤ x) → t.hostByte x = s.hostByte x) ∧
        (s.linkUp = false → t.comps = s.comps ++ [⟨v.ring, v.cq, v.tag, out.1, out.2, (s.lrun i).cores⟩] ∧ t.hostMem = s.hostMem))

/-! ## Pools -/

namespace Sys2Proof.Claims

/-- A descriptor that has read none of its tables, and has not begun. -/
def Fresh (v : Slot) : Prop := v.step = 0 ∧ v.asks = [] ∧ v.tabs = [] ∧ v.got = [] ∧ v.refused = false ∧ v.dead = false

/-- Buffer `b` is free in pool `p`: in the Pantry's cache, or in the part of the ring that holds free buffers (R325). -/
def FreeBuf (s : State) (p b : Nat) : Prop :=
  b ∈ (s.pool p).cache ∨ ∃ j < (s.pool p).free, b = s.memNat (s.ringOff p ((s.pool p).head + j)) 4 % 2 ^ 20

/-- The buffer entries an ALLOC writes (R327): handle and address of each. -/
def bufEntries (s : State) (p : Nat) (l : List Nat) : List Byte :=
  l.flatMap fun b => leBytes 8 (p * 2 ^ 24 + b) ++
    leBytes 8 (s.localAddr (s.reg (Reg.panBase p) + b * (s.fieldOf (Reg.panCfg p) 15 0 * 4096)))

end Sys2Proof.Claims

/-- R325, R327, R436: ALLOC takes free buffers, each with count 1, and writes their entries, or, where the pool has too few, takes none and ends
POOL_EMPTY or parks; REF and UNREF change the count of each handle of their list, and a buffer whose count comes to 0 is free again; a handle that
names no allocated buffer is counted and the operation ends PARTIAL. A POOL_OP whose checks fail ends with that status; one on a pool of another room asks that
room, waits, and ends by its answer. R325, R328, R329: a refill moves buffers from the ring to a cache that holds fewer than 16; enabling a pool
frees all its buffers, writes its ring and sets its watermark's event; a pool goes out of service only when every buffer is free.
Choices of the model it rests on: log entries 5, 10, 76, 77. -/
def Obligations.PoolsServe : Prop :=
  ((∀ (i : Nat) (s : State), s.poolReady i 0 = true → (s.slot i).ctx < 512 →
    let v := s.slot i
    let p := v.poolNo
    let m : Sys2Proof.PoolMsg := ⟨i, p, v.poolOp, v.poolN, [], [], false⟩
    (∀ st, v.step ≠ 1 → s.poolBad v = some st → ∃ t, exec (.alloc i) s = .next t ∧ Claims.Ends s t i st 0) ∧
    (v.step ≠ 1 → s.poolBad v = none → s.isLocal (v.word 3) = true → s.poolOn p = true → s.unitOff (80 + p % 4) = false → v.poolN ≤ s.poolFree p →
      ∃ (t : State) (l : List Nat), exec (.alloc i) s = .next t ∧ (t.slot i).stage = .ended 0 0 ∧ l.length = v.poolN ∧
        (∀ b ∈ l, Claims.FreeBuf s p b ∧ t.refOf p b = 1) ∧ t.poolFree p = s.poolFree p - v.poolN ∧
        t.reg (Reg.panAllocs p) = (s.reg (Reg.panAllocs p) + v.poolN) % 2 ^ 64 ∧ (∀ q, q ≠ p → t.pool q = s.pool q) ∧
        (s.isLocal (v.word 4) = true → isHost (v.word 4) = false → s.rangeCut v (v.word 4) (16 * v.poolN) = false → Claims.OneToOne s →
          Claims.OnStacks s → Claims.Sound s (aOff (v.word 4)) (16 * v.poolN) → Claims.Stores s t (aOff (v.word 4)) (Claims.bufEntries s p l))) ∧
    (v.step ≠ 1 → s.poolBad v = none → s.isLocal (v.word 3) = true → s.poolOn p = false ∨ s.unitOff (80 + p % 4) = true ∨ s.poolFree p < v.poolN →
      ∃ t, exec (.alloc i) s = .next t ∧ t = { s with slots := t.slots, regs := t.regs } ∧
        t.reg (Reg.panFails p) = (s.reg (Reg.panFails p) + 1) % 2 ^ 64 ∧ Claims.OnlyRegs s t [Reg.panFails p, Reg.qeCtx v.ctx] ∧
        (t.slot i).stage = (if bit (v.word 0) 8 && s.fieldOf (Reg.panLowWater p) 19 0 != 0 then .parked p else .ended 0x10 0)) ∧
    (v.step ≠ 1 → s.poolBad v = none → s.isLocal (v.word 3) = false →
      ∃ t, exec (.alloc i) s = .next t ∧ (t.slot i).step = 1 ∧ s.out ++ [Out.pool (aHouse (v.word 3)) (aRoom (v.word 3)) m] <+: t.out) ∧
    (v.step = 1 → v.grant = true → v.idx = [] → ∃ t, exec (.alloc i) s = .next t ∧ Claims.Ends s t i 0x10 0) ∧
    (v.step = 1 → v.grant = true → v.idx ≠ [] → ∃ t, exec (.alloc i) s = .next t ∧ (t.slot i).stage = .ended 0 0) ∧
    (v.step = 1 → v.grant = false → v.dead = false → v.refused = false → s.roomDead (aRoom (v.word 3)) = false → exec (.alloc i) s = .next s)) ∧
  (∀ (i : Nat) (s : State),
    let v := s.slot i
    let a := v.word 4
    let h := s.descNat v a 4
    let p := poolOf h
    let b := bufOf h
    let n := s.refOf p b
    let here := s.poolBad v = none ∧ Claims.Fresh v ∧ s.slotBusy i = false ∧ s.isLocal (v.word 3) = true ∧ s.isLocal a = true ∧ isHost a = false ∧
      s.descDead v a (16 * v.poolN) = false
    (s.poolReady i 1 = true →
      (∀ st, v.step ≠ 1 → s.poolBad v = some st → ∃ t, exec (.ref i) s = .next t ∧ Claims.Ends s t i st 0) ∧
      (here → ∃ (t : State) (st : Nat), exec (.ref i) s = .next t ∧ (t.slot i).stage = .ended st 0 ∧ (st = 0 ∨ st = 2) ∧ t.pools = s.pools) ∧
      (here → v.poolN = 1 →
        (s.poolOn p = true → n ≠ 0 → n ≠ 65535 → ∃ t, exec (.ref i) s = .next t ∧ (t.slot i).stage = .ended 0 0 ∧
          t.refOf p b = n + 1 ∧ ∀ q c, c < 2 ^ 20 → (q, c) ≠ (p, b) → t.refOf q c = s.refOf q c) ∧
        (s.poolOn p = false ∨ n = 0 ∨ n = 65535 →
          ∃ t, exec (.ref i) s = .next t ∧ (t.slot i).stage = .ended 2 0 ∧ t.refs = s.refs ∧
            t.reg (Reg.panBadRefs p) = (s.reg (Reg.panBadRefs p) + 1) % 2 ^ 64)) ∧
      (v.step = 1 → v.grant = true → ∃ t, exec (.ref i) s = .next t ∧ Claims.Ends s t i (if v.count = 1 then 0 else 2) 0)) ∧
    (s.poolReady i 2 = true →
      (∀ st, v.step ≠ 1 → s.poolBad v = some st → ∃ t, exec (.unref i) s = .next t ∧ Claims.Ends s t i st 0) ∧
      (here → ∃ (t : State) (st : Nat), exec (.unref i) s = .next t ∧ (t.slot i).stage = .ended st 0 ∧ (st = 0 ∨ st = 2)) ∧
      (here → v.poolN = 1 →
        (s.poolOn p = true → 2 ≤ n → ∃ t, exec (.unref i) s = .next t ∧ (t.slot i).stage = .ended 0 0 ∧ t.pools = s.pools ∧
          t.refOf p b = n - 1 ∧ ∀ q c, c < 2 ^ 20 → (q, c) ≠ (p, b) → t.refOf q c = s.refOf q c) ∧
        (s.poolOn p = true → n = 1 → ∃ t, exec (.unref i) s = .next t ∧ (t.slot i).stage = .ended 0 0 ∧ t.refOf p b = 0 ∧
          t.poolFree p = s.poolFree p + 1 ∧ b ∈ (t.pool p).cache ∧ t.reg (Reg.panReleases p) = (s.reg (Reg.panReleases p) + 1) % 2 ^ 64) ∧
        (s.poolOn p = false ∨ n = 0 → ∃ t, exec (.unref i) s = .next t ∧ (t.slot i).stage = .ended 2 0 ∧ t.refs = s.refs ∧ t.pools = s.pools ∧
          t.reg (Reg.panBadRefs p) = (s.reg (Reg.panBadRefs p) + 1) % 2 ^ 64)) ∧
      (v.step = 1 → v.grant = true → ∃ t, exec (.unref i) s = .next t ∧ Claims.Ends s t i (if v.count = 1 then 0 else 2) 0)))) ∧
  ((∀ (p : Fin 64) (s : State), (16 ≤ (s.pool p).cache.length → exec (.pantryCacheRefill p) s = .next s) ∧
    ((s.pool p).cache.length < 16 → ∃ (t : State) (m : Nat), exec (.pantryCacheRefill p) s = .next t ∧
      min (16 - (s.pool p).cache.length) (s.pool p).free ≤ m ∧ m ≤ min (48 - (s.pool p).cache.length) (s.pool p).free ∧
      t.pool p = ⟨(s.pool p).cache ++ (List.range m).map fun j => s.memNat (s.ringOff p ((s.pool p).head + j)) 4 % 2 ^ 20, (s.pool p).head + m,
        (s.pool p).free - m⟩ ∧
      (∀ q, q ≠ p.val → t.pool q = s.pool q) ∧ t.mem = s.mem ∧ t.refs = s.refs ∧ t.cores = s.cores)) ∧
  (∀ (p : Fin 64) (v : Word) (s : State), (s.poolOn p = true → exec (.poolEnable p v) s = .next s) ∧
    (s.poolOn p = false →
      let n := bits v.toNat 51 32
      let w := s.reg (Reg.panLowWater p)
      ∃ t, exec (.poolEnable p v) s = .next t ∧ t.poolOn p = true ∧ t.fieldOf (Reg.panCfg p) 51 32 = n ∧ t.fieldOf (Reg.panCfg p) 15 0 = bits v.toNat 15 0 ∧
        t.pool p = ⟨[], 0, n⟩ ∧ (∀ b < 2 ^ 20, t.refOf p b = 0) ∧ (∀ q, q ≠ p.val → t.pool q = s.pool q) ∧
        (bits w 19 0 ≠ 0 → bits w 19 0 ≤ n → t.sync.event (bits w 41 32) = true) ∧
        (Claims.OneToOne s → Claims.OnStacks s → Claims.Sound s (s.reg (Reg.panRingBase p)) (4 * n) →
          Claims.Stores s t (s.reg (Reg.panRingBase p)) ((List.range n).flatMap (leBytes 4))))) ∧
  (∀ (p : Fin 64) (v : Word) (s : State),
    (s.poolOn p = true → s.poolFree p = s.fieldOf (Reg.panCfg p) 51 32 →
      ∃ t, exec (.poolDisable p v) s = .next t ∧ t.poolOn p = false ∧ t.poolFree p = 0 ∧ Claims.OnlyRegs s t [Reg.panCfg p] ∧
        (∀ q, q ≠ p.val → t.pool q = s.pool q) ∧ t = { s with regs := t.regs, pools := t.pools }) ∧
    (s.poolOn p = true → s.poolFree p ≠ s.fieldOf (Reg.panCfg p) 51 32 → exec (.poolDisable p v) s = .next s) ∧
    (s.poolOn p = false → ∃ t, exec (.poolDisable p v) s = .next t ∧ t.poolOn p = false ∧ t.fieldOf (Reg.panCfg p) 51 32 = bits v.toNat 51 32 ∧
      t.fieldOf (Reg.panCfg p) 15 0 = bits v.toNat 15 0 ∧ Claims.OnlyRegs s t [Reg.panCfg p] ∧ t = { s with regs := t.regs })))

/-! ## The host's side -/

/-- R445: JOB_ASSIGN takes a part that is ready and not owned, and is ignored else; the assignment completes with every semaphore at 0, no event set
but a watermark's, every history reset, no buffer in use and no window valid, and without KEEP the memories it clears read zero; JOB_RELEASE
gives the part back when no assignment is in progress and no ring of the job is enabled or busy, and is ignored else. R522: keeper firmware revokes
ownership: the job's rings are cancelled, OWNED is cleared once none is busy, and that change of a protection is counted as its own.
Choices of the model it rests on: log entries 34, 100, 125. -/
def Obligations.OwnershipChanges : Prop :=
  (∀ (v : Word) (s : State), s.owned = false → s.ready = true → ∃ t, exec (.jobAssign v) s = .next t ∧ t = { s with regs := t.regs } ∧
    t.owned = true ∧ t.fieldOf Reg.hostJob 31 0 = bits v.toNat 31 0 ∧ t.flag Reg.hostJob 62 = bit v.toNat 62 ∧ t.flag Reg.hostStatus 2 = true ∧
    t.flag Reg.hostStatus 3 = true) ∧
  (∀ (v : Word) (s : State), s.owned = true ∨ s.ready = false → exec (.jobAssign v) s = .next s) ∧
  (∀ s : State, (s.flag Reg.hostStatus 3 = false → exec .assignmentComplete s = .next s) ∧
    (s.flag Reg.hostStatus 3 = true → ∃ t, exec .assignmentComplete s = .next t ∧ t.flag Reg.hostStatus 3 = false ∧
      (∀ n, t.sync.sem n = 0) ∧ ((∀ p < 64, s.poolOn p = true → s.fieldOf (Reg.panLowWater p) 19 0 = 0) → ∀ n, t.sync.event n = false) ∧
      (∀ h, ∃ len margin, t.hist h = { Hist.init with len := len, margin := margin }) ∧
      (∀ p < 64, s.poolOn p = true → ∀ b < 2 ^ 20, t.refOf p b = 0) ∧
      (∀ w < 32, t.flag (Reg.owinRange w) 63 = false ∧ t.flag (Reg.iwinRange w) 63 = false) ∧ (∀ w < 8, t.flag (Reg.hwinLo w) 63 = false) ∧
      (s.flag Reg.hostJob 62 = true → (∀ p < 64, s.poolOn p = false) → t.mem = s.mem) ∧
      (s.flag Reg.hostJob 62 = false → (∀ p, s.cleared p = true → Tbl.get 0 t.mem p = 0) ∧
        ((∀ p < 64, s.poolOn p = false) → ∀ p, s.cleared p = false → Tbl.get 0 t.mem p = Tbl.get 0 s.mem p)))) ∧
  (∀ s : State, (s.flag Reg.hostStatus 3 = true ∨ s.jobBusy true = true → exec .jobRelease s = .next s) ∧
    (s.flag Reg.hostStatus 3 = false → s.jobBusy true = false →
      ∃ t, exec .jobRelease s = .next t ∧ t = { s with regs := t.regs } ∧ t.owned = false ∧ t.flag Reg.hostStatus 2 = false)) ∧
  (∀ s : State, s.ringStop = [] →
    (∃ t, exec .ownershipRevoke s = .next t ∧ ∀ n < 4096, s.flag (Reg.ringCfg n) 62 = true → t.flag (Reg.ringCfg n) 63 = false) ∧
    (s.owned = true → (∀ n < 4096, s.flag (Reg.ringCfg n) 62 = true → s.ringBusy n = false ∧ s.ringWaiting n = 0) →
      ∃ t, exec .ownershipRevoke s = .next t ∧ t.owned = false ∧ t.flag Reg.hostStatus 2 = false ∧
        t.reg Reg.secKeeperChanges = (s.reg Reg.secKeeperChanges + 1) % 2 ^ 64 ∧ t.mem = s.mem))

/-- R215, R450: a cancelled ring is disabled; its descriptors that have not ended are CANCELLED, and end at once unless they are LAUNCHes that run; its
entries up to the tail are fetched as CANCELLED; while that is in progress a cancellation changes nothing. CANCEL_ALL does it to every ring, as does a
link that stays down for HOLD_MS (R442).
Choices of the model it rests on: log entries 4, 5, 124. -/
def Obligations.CancelledRingsStop : Prop :=
  (∀ (n : Fin 4096) (s : State), (n.val ∈ s.ringStop → exec (.cancelRing n) s = .next s) ∧
    (n.val ∉ s.ringStop → (∀ e ∈ s.slots, e.1 < s.nextSlot) → s.fieldOf (Reg.ringCfg n) 4 0 ≤ 16 →
      ∃ t, exec (.cancelRing n) s = .next t ∧ t.flag (Reg.ringCfg n) 63 = false ∧ t.nextSlot = s.nextSlot + s.ringWaiting n ∧
        (∀ i, (s.slot i).ring = n → (s.slot i).words ≠ [] → (∀ st info, (s.slot i).stage ≠ .ended st info) →
          (t.slot i).cancelled = true ∧ ((s.slot i).opcode ≠ 1 ∨ (s.slot i).step = 0 → ∃ info, (t.slot i).stage = .ended 0x13 info)) ∧
        (∀ j < s.ringWaiting n, (t.slot (s.nextSlot + j)).stage = .ended 0x13 0 ∧ (t.slot (s.nextSlot + j)).ring = n) ∧
        (t.ringBusy n = true → n.val ∈ t.ringStop))) ∧
  (∀ s : State, ∃ t, exec .cancelAll s = .next t ∧ ∀ n < 4096, n ∉ s.ringStop → t.flag (Reg.ringCfg n) 63 = false) ∧
  (∀ s : State, (s.linkUp = true → exec .linkHoldExpiry s = .next s) ∧
    (s.linkUp = false → ∃ t, exec .linkHoldExpiry s = .next t ∧ exec .cancelAll s = .next t))

/-- R467: a pending bit written 1 is cleared and nothing is sent; a vector that is pending and loses its mask sends its message; DELAY_US after a
record that no interrupt has told of, its ring's vector becomes pending and sends its message unless it was pending or is masked.
Choices of the model it rests on: log entries 4, 107. -/
def Obligations.InterruptsAreSent : Prop :=
  (∀ (v : Word) (s : State), ∃ t, exec (.irqPendingClear v) s = .next t ∧ t = { s with regs := t.regs } ∧
    (∀ i < 64, t.flag Reg.irqPending i = (s.flag Reg.irqPending i && !bit v.toNat i)) ∧ Claims.OnlyRegs s t [Reg.irqPending]) ∧
  (∀ (v : Word) (s : State), ∃ t, exec (.irqMaskWrite v) s = .next t ∧ t.reg Reg.irqMask = v.toNat ∧ Claims.OnlyRegs s t [Reg.irqMask] ∧
    t.out = s.out ++ ((List.range 64).filter fun i => s.flag Reg.irqPending i && s.flag Reg.irqMask i && !bit v.toNat i).map Out.msix ∧
    t = { s with regs := t.regs, out := t.out }) ∧
  (∀ (m : Fin 257) (s : State),
    let cfg := if m.val = 256 then Reg.fltCfg else Reg.cqCfg m
    let vec := s.fieldOf cfg 13 8
    (s.flag cfg 15 = false ∨ s.fieldOf cfg 47 32 = 0 ∨ Tbl.get 0 s.irqCount m = 0 → exec (.irqDelayExpiry m) s = .next s) ∧
    (s.flag cfg 15 = true → s.fieldOf cfg 47 32 ≠ 0 → Tbl.get 0 s.irqCount m ≠ 0 →
      ∃ t, exec (.irqDelayExpiry m) s = .next t ∧ t = { s with regs := t.regs, out := t.out, irqCount := t.irqCount } ∧
        t.flag Reg.irqPending vec = true ∧ Tbl.get 0 t.irqCount m = 0 ∧ Claims.OnlyRegs s t [Reg.irqPending] ∧
        t.out = s.out ++ (if s.flag Reg.irqPending vec || s.flag Reg.irqMask vec then [] else [Out.msix vec])))

/-- R442, R444, R515: with the link down HOST_STATUS says so, and a load of firmware ends; a link that trains on a part with power shows its lanes and
rate, and one that trains again is counted; an error of the host marks the range for a descriptor that has not ended, is counted and recorded; while
the image is loaded it is counted and ends the load.
Choices of the model it rests on: log entries 4, 28. -/
def Obligations.LinkEventsAreKept : Prop :=
  (∀ s : State, ∃ t, exec .hostLinkDown s = .next t ∧ t = { s with regs := t.regs } ∧ t.linkUp = false ∧ t.reg Reg.linkStatus = 0 ∧
    t.reg Reg.secBootStatus = (if s.reg Reg.secBootStatus = 2 then 0x14 else s.reg Reg.secBootStatus) ∧
    Claims.OnlyRegs s t [Reg.hostStatus, Reg.linkStatus, Reg.secBootStatus]) ∧
  (∀ (lanes : Fin 256) (rate : Fin 4) (s : State), (s.powered = false → exec (.hostLinkUp lanes rate) s = .next s) ∧
    (s.powered = true → ∃ t, exec (.hostLinkUp lanes rate) s = .next t ∧ t.linkUp = true ∧ t.reg Reg.linkStatus = lanes * 2 ^ 8 + rate ∧ t.linkWas = true ∧
      t.reg Reg.linkRetrains = (if s.linkWas then (s.reg Reg.linkRetrains + 1) % 2 ^ 64 else s.reg Reg.linkRetrains) ∧
      (s.boot ≠ 0 → s.reg Reg.secBootStatus ≠ 0 → s.comps = [] → s.faults = [] → t = { s with regs := t.regs, linkWas := true } ∧
        Claims.OnlyRegs s t [Reg.hostStatus, Reg.linkStatus, Reg.linkRetrains]))) ∧
  (∀ (i a n : Nat) (s : State),
    ((s.slot i).words = [] ∨ (∃ st info, (s.slot i).stage = .ended st info) → exec (.hostReadError (some i) a n) s = .next s) ∧
    ((s.slot i).words ≠ [] → (∀ st info, (s.slot i).stage ≠ .ended st info) →
      ∃ t, exec (.hostReadError (some i) a n) s = .next t ∧ t.slot i = { s.slot i with badHost := (s.slot i).badHost ++ [(a, n)] } ∧
        (∀ j, j ≠ i → t.slot j = s.slot j) ∧ t.reg Reg.hostReadErrors = (s.reg Reg.hostReadErrors + 1) % 2 ^ 64 ∧ Claims.Recorded s t 0x20 13 0)) ∧
  (∀ (a n : Nat) (s : State), (s.reg Reg.secBootStatus ≠ 2 → exec (.hostReadError none a n) s = .next s) ∧
    (s.reg Reg.secBootStatus = 2 → ∃ t, exec (.hostReadError none a n) s = .next t ∧ t = { s with regs := t.regs } ∧ t.reg Reg.secBootStatus = 0x14 ∧
      t.reg Reg.hostReadErrors = (s.reg Reg.hostReadErrors + 1) % 2 ^ 64 ∧ Claims.OnlyRegs s t [Reg.hostReadErrors, Reg.secBootStatus]))

/-- R447, R462, R464, R473: the configuration words of rings take effect as their tables say: ENABLE 1 needs a size in range and an aligned base,
and for a descriptor ring an enabled queue engine; of an enabled descriptor ring only ENABLE and JOB change, and keeper firmware changes JOB alone; a
written head is kept.
R95, R121, R159, R253, R504: control writes of the operator. HALT is as written and PROG_FLUSH empties the program store; TEST_NOW asks for a
test where keeper firmware runs and none is in progress; a seeded history holds the seed alone, a seed that is negative or not finite is ignored,
and CLEAR empties it; DIP_CTL's fields are as written, ENABLE by keeper firmware alone; an alert cause written 1 is cleared and the alert line stays.
Choices of the model it rests on: log entries 37, 42, 43, 125. -/
def Obligations.ControlRegistersTakeEffect : Prop :=
  ((∀ (n : Fin 4096) (v : Word) (s : State), ∃ t, exec (.ringCfgWrite false n v) s = .next t ∧ t = { s with regs := t.regs } ∧
    let x := v.toNat
    let o := Reg.ringCfg n
    let may := fun w => bit x 63 = true ∧ 6 ≤ bits w 4 0 ∧ bits w 4 0 ≤ 16 ∧ s.reg (Reg.ringBase n) % (64 * 2 ^ bits w 4 0) = 0 ∧
      s.unitOff (bits w 21 16) = false
    (s.flag o 63 = false →
      t.fieldOf o 62 62 = bits x 62 62 ∧ t.fieldOf o 39 32 = bits x 39 32 ∧ t.fieldOf o 21 16 = bits x 21 16 ∧ t.fieldOf o 10 8 = bits x 10 8 ∧
      t.fieldOf o 4 0 = bits x 4 0 ∧ (t.flag o 63 = true ↔ may x)) ∧
    (s.flag o 63 = true → t.fieldOf o 62 62 = bits x 62 62 ∧ t.fieldOf o 61 0 = s.fieldOf o 61 0 ∧ (t.flag o 63 = true ↔ may (s.reg o))) ∧
    (bits (s.reg o) 62 62 = bits x 62 62 → Claims.OnlyRegs s t [o])) ∧
  (∀ (n : Fin 4096) (v : Word) (s : State), (s.keeperRuns = false → exec (.ringCfgWrite true n v) s = .next s) ∧
    (s.keeperRuns = true → ∃ t, exec (.ringCfgWrite true n v) s = .next t ∧ t = { s with regs := t.regs } ∧
      t.flag (Reg.ringCfg n) 62 = bit v.toNat 62 ∧ t.flag (Reg.ringCfg n) 63 = s.flag (Reg.ringCfg n) 63 ∧
      t.fieldOf (Reg.ringCfg n) 61 0 = s.fieldOf (Reg.ringCfg n) 61 0)) ∧
  (∀ (m : Fin 257) (v : Word) (s : State),
    let o := if m.val = 256 then Reg.fltCfg else Reg.cqCfg m
    let head := if m.val = 256 then Reg.fltHead else Reg.cqHead m
    let base := if m.val = 256 then s.reg Reg.fltBase % (32 * 2 ^ bits v.toNat 4 0) else s.reg (Reg.cqBase m) % (16 * 2 ^ bits v.toNat 4 0)
    (∃ t, exec (.cqCfgWrite m v) s = .next t ∧ t.fieldOf o 47 15 = bits v.toNat 47 15 ∧
      t.fieldOf o 13 8 = bits v.toNat 13 8 ∧ t.fieldOf o 4 0 = bits v.toNat 4 0 ∧
      (t.flag o 63 = true ↔ bit v.toNat 63 = true ∧ 6 ≤ bits v.toNat 4 0 ∧ bits v.toNat 4 0 ≤ 16 ∧ base = 0) ∧
      (s.comps = [] → s.faults = [] → t = { s with regs := t.regs } ∧ Claims.OnlyRegs s t [o])) ∧
    (∃ t, exec (.cqHeadWrite m v) s = .next t ∧ t.reg head = v.toNat % 65536 ∧
      (s.comps = [] → s.faults = [] → t = { s with regs := t.regs } ∧ Claims.OnlyRegs s t [head]))) ∧
  (∀ (v : Word) (s : State), ∃ t, exec (.telemHeadWrite v) s = .next t ∧ t = { s with regs := t.regs } ∧ t.reg Reg.telemHead = v.toNat % 65536 ∧
    Claims.OnlyRegs s t [Reg.telemHead])) ∧
  ((∀ (k : Fin 256) (v : Word) (s : State), ∃ t, exec (.halt k v) s = .next t ∧ t = { s with regs := t.regs, cores := t.cores } ∧
    t.flag (Reg.coreCtl k) 0 = bit v.toNat 0 ∧
    Claims.OnlyRegs s t [Reg.coreCtl k] ∧ (∀ j, t.core j = if j = k.val ∧ bit v.toNat 4 = true then { s.core k with progAddr := none } else s.core j)) ∧
  (∀ (k : Fin 256) (h : Bool) (s : State), ∃ t, exec (.progFlush k h) s = .next t ∧ t = { s with regs := t.regs, cores := t.cores } ∧
    t.flag (Reg.coreCtl k) 0 = h ∧
    Claims.OnlyRegs s t [Reg.coreCtl k] ∧ ∀ j, t.core j = if j = k.val then { s.core k with progAddr := none } else s.core j) ∧
  (∀ (k : Fin 256) (v : Word) (s : State),
    let asks := s.keeperRuns = true ∧ bit v.toNat 0 = true ∧ s.fieldOf (Reg.arrayStatus k) 3 1 = 0
    (¬asks → exec (.testNow k v) s = .next s) ∧
    (asks → ∃ t, exec (.testNow k v) s = .next t ∧
      t = { s with cores := t.cores } ∧ ∀ j, t.core j = if j = k.val then { s.core k with testDue := true } else s.core j)) ∧
  (∀ (h : Fin 1024) (v : Word32) (s : State),
    (bit v.toNat 31 = true ∨ bits v.toNat 30 23 = 255 → exec (.sclSeedValue h v) s = .next s) ∧
    (bit v.toNat 31 = false → bits v.toNat 30 23 ≠ 255 → ∃ t, exec (.sclSeedValue h v) s = .next t ∧ t = { s with hists := t.hists } ∧
      ∀ x, t.hist x = if x = h.val then { s.hist h with ring := [v.toNat], amax := v.toNat, cold := false } else s.hist x)) ∧
  (∀ (h : Fin 1024) (s : State), ∃ t, exec (.sclSeedClear h) s = .next t ∧ t = { s with hists := t.hists } ∧
    ∀ x, t.hist x = if x = h.val then { s.hist h with ring := [], amax := 0, cold := true, acc := 0, seen := false } else s.hist x) ∧
  (∀ (keeper : Bool) (v : Word) (s : State), ∃ t, exec (.dipCtlWrite keeper v) s = .next t ∧ t = { s with regs := t.regs } ∧
    t.fieldOf Reg.dipCtl 39 32 = bits v.toNat 39 32 ∧ t.fieldOf Reg.dipCtl 23 16 = bits v.toNat 23 16 ∧ t.fieldOf Reg.dipCtl 15 12 = bits v.toNat 15 12 ∧
    t.fieldOf Reg.dipCtl 7 2 = bits v.toNat 7 2 ∧ t.flag Reg.dipCtl 0 = (if keeper then bit v.toNat 0 else s.flag Reg.dipCtl 0)) ∧
  (∀ (v : Word) (s : State), ∃ t, exec (.fltAlertClear v) s = .next t ∧ t = { s with regs := t.regs } ∧ Claims.OnlyRegs s t [Reg.fltAlert] ∧
    ∀ i < 4, t.flag Reg.fltAlert i = (s.flag Reg.fltAlert i && !bit v.toNat i)))

/-! ## Tensor movers and updates -/

namespace Sys2Proof.Claims

/-- A tensor of rank 1, stored densely in one piece of this room's memory: `n` elements of `w` bytes, no block shape. -/
def Flat (s : State) (t : Tensor) (n w : Nat) : Prop :=
  1 ≤ w ∧ t.d.ty.width = 8 * w ∧ t.d.rank = 1 ∧ t.d.owned = false ∧ t.d.block = .none ∧ t.d.size = n :: List.replicate 7 1 ∧
  t.d.stride = 1 :: List.replicate 7 0 ∧ t.split = 0 ∧ t.shards = [⟨t.d.base, 0, n, 0, t.d.scaleBase, 0⟩] ∧ isHost t.d.base = false ∧
  s.isLocal t.d.base = true

/-- The code of element `j` of a tensor of rank 1. -/
def item (s : State) (v : Slot) (t : Tensor) (j : Nat) : Nat := s.tcode v t (j :: List.replicate 7 0)

/-- Every element of a tensor, and every scale, lies in this room. -/
def Here (s : State) (t : Tensor) : Prop :=
  ∀ ix ∈ allIdx t.d.size, s.isLocal (t.elemAt ix).1 = true ∧ (t.d.block.scaled = true → s.isLocal (t.scaleAt ix) = true)

/-- The destination of a descriptor takes a write of `n` bytes at address `a`: the bytes are sound memory, and R17 leaves a way. -/
def Writable (s : State) (v : Slot) (a n : Nat) : Prop :=
  OneToOne s ∧ OnStacks s ∧ Sound s (aOff a) n ∧ s.rangeCut v a n = false

/-- The status and info of a GATHER or SCATTER (R206, R214): TARGET_DEAD, INDEX_CLAMPED with how many, or OK. -/
def copied (dead : Bool) (clamps : Nat) : Stage := if dead then .ended 0x20 0 else if clamps = 0 then .ended 0 0 else .ended 1 (clamps % 65536)

/-- How many indices lie outside a dimension of size `n` (R204). -/
def clamps (n : Nat) (raw : List Int) : Nat := (raw.filter fun c => decide (c < 0) || decide ((n : Int) ≤ c)).length

/-- A built-in program of slot `i` has entered the queues of the cores `ks`, which all had room (R151, R201, R209, R267). -/
def Entered (s t : State) (i : Nat) (ks : List Nat) : Prop :=
  t.slot i = { s.slot i with stage := .started, step := 1 } ∧ t.lrun i = { LaunchRun.none with cores := ks, entered := ks.length } ∧
  (∀ ix k, ks[ix]? = some k → t.core k = { s.core k with queue := (s.core k).queue ++ [(i, ix)] }) ∧ ∀ k, k ∉ ks → t.core k = s.core k

/-- The cores have room for it. -/
def Room (s : State) (ks : List Nat) : Prop := ks.Nodup ∧ ∀ k ∈ ks, (s.core k).queue.length < 4

/-- Of the cores of slot `i`'s built-in program, every one has ended or can end now, and its dips are resolved (R91). -/
def CanEnd (s : State) (i : Nat) : Prop :=
  (s.lrun i).cores.Nodup ∧ (s.builtinCores i).length + (s.lrun i).done.length = (s.lrun i).cores.length ∧ ∀ d ∈ s.dips, d.launch ≠ i

/-- How it ends (R119, R92): a retired core or a mismatch before the outcome of its work. -/
def overStage (l : LaunchRun) (g : Stage) : Stage := if l.retired then .ended 0x22 0 else if l.mismatch then .ended 0x23 0 else g

/-- It ends on all its cores, and the descriptor with it. -/
def ProgramEnds (s t : State) (i : Nat) (g : Stage) : Prop :=
  (t.slot i).stage = overStage (s.lrun i) g ∧ (∀ j, j ≠ i → t.slot j = s.slot j) ∧ (∀ k ∈ s.builtinCores i, (t.core k).run = none) ∧ t.mem = s.mem

end Sys2Proof.Claims

/-- R182, R196–R201, R214: a MOVE that is ready, its mover not full, reads its descriptors; one that waits for them changes nothing else; one handed to a
disabled mover ends CANCELLED; one whose checks fail ends with that status, an overlap counted. One whose source lies in this room runs and ends, and
notes a source that gave the error value; between dense tensors of rank 1 of one type, apart in memory, the destination holds the source's elements and
every other byte of memory is as it was. On the Landing path it enters its cores' queues, and ends with its program.
R202–R206, R214: likewise a GATHER; it takes, for each index, the source element it names, clamped into range. R207–R210: likewise a SCATTER; one that stores
puts each source element at the destination element its index names; a program of R209 enters its core's queue, and ends when its last chunk is applied
and its dips are resolved. Their status tells of dead targets and of clamped indices.
Choices of the model it rests on: log entries 10, 57 to 64, 120 to 122. -/
def Obligations.MoversCopyAndIndex : Prop :=
  ((∀ (i : Nat) (s u : State) (a b : Tensor), s.moverReady i 2 = true → (s.slot i).mvGet = false → (s.slot i).step = 0 →
    let l := [(s.slot i).word 2, (s.slot i).word 3]
    let v := u.slot i
    let ra := u.readTensor v false (v.word 2)
    let rb := u.readTensor v true (v.word 3)
    (s.moverOff i = true → ∃ t, exec (.move i) s = .next t ∧ Claims.Ends s t i 0x13 0) ∧
    (s.moverOff i = false → s.fetchTensors i l = (u, false) → exec (.move i) s = .next u) ∧
    (s.moverOff i = false → s.fetchTensors i l = (u, true) → v.refused = false →
      (∀ st, u.mvChecks v ra rb = some st → ∃ t, exec (.move i) s = .next t ∧ Claims.Ends u t i st 0 ∧
        t.reg (Reg.moverOverlaps v.mover) = (u.reg (Reg.moverOverlaps v.mover) + if st = 0x11 then 1 else 0) % 2 ^ 64) ∧
      (ra = .ok a → rb = .ok b → u.mvChecks v (.ok a) (.ok b) = none →
        (a.d.size.contains 0 = true → ∃ t, exec (.move i) s = .next t ∧ Claims.Ends u t i 0 0) ∧
        (a.d.size.contains 0 = false → v.mvLanding a.d b.d = true → Claims.Room u ((List.range v.mvCount).map fun j => u.phys (v.mvBase + j)) →
          ∃ t, exec (.move i) s = .next t ∧ Claims.Entered u t i ((List.range v.mvCount).map fun j => u.phys (v.mvBase + j))) ∧
        (a.d.size.contains 0 = false → v.mvLanding a.d b.d = false → Claims.Here u a → u.hostHeld (a.extents ++ b.extents) = false →
          u.slotBusy i = false → u.lrun i = LaunchRun.none → (∀ d ∈ u.dips, d.launch ≠ i) →
          v.tensorOf false (v.word 2) = .ok a → v.tensorOf true (v.word 3) = .ok b →
          ∃ t, exec (.move i) s = .next t ∧ (t.slot i).stage = .ended 0 0 ∧ (u.elemsDead v a (allIdx a.d.size) = true → (t.slot i).dead = true) ∧
            ∀ n w, Claims.Flat u a n w → Claims.Flat u b n w → 1 ≤ n → a.d.ty = b.d.ty → a.overlaps b = false → Claims.Writable u v b.d.base (n * w) →
              Claims.Stores u t (aOff b.d.base) ((List.range n).flatMap fun j => leBytes w (Claims.item u v a j)))))) ∧
  (∀ (i : Nat) (s : State) (a b : Tensor),
    let v := s.slot i
    s.running = true → v.opcode = 2 → v.stage = .started → v.mvGet = false → v.tensorOf false (v.word 2) = .ok a → v.tensorOf true (v.word 3) = .ok b →
    (v.step = 1 → v.mvLanding a.d b.d = true → s.builtinCores i = [] → s.hostHeld (a.extents ++ b.extents) = false → s.launchOver i = false →
      exec (.move i) s = .next s) ∧
    (v.step = 1 → s.builtinCores i ≠ [] → s.hostHeld (a.extents ++ b.extents) = false → Claims.Here s a → s.slotBusy i = false → v.refused = false →
      ∃ t, exec (.move i) s = .next t ∧ (t.slot i).step = 3 ∧ (s.elemsDead v a (allIdx a.d.size) = true → (t.slot i).dead = true)) ∧
    (v.step = 3 → Claims.CanEnd s i → ∃ t, exec (.move i) s = .next t ∧ Claims.ProgramEnds s t i (.ended 0 0)))) ∧
  (∀ (i : Nat) (s u : State) (a b x : Tensor), s.moverReady i 3 = true →
    let l := [(s.slot i).word 2, (s.slot i).word 3, (s.slot i).word 4]
    let v := u.slot i
    let ra := u.readTensor v false (v.word 2)
    let rb := u.readTensor v true (v.word 3)
    let rx := u.readTensor v false (v.word 4)
    (s.moverOff i = true → ∃ t, exec (.gather i) s = .next t ∧ Claims.Ends s t i 0x13 0) ∧
    (s.moverOff i = false → s.fetchTensors i l = (u, false) → exec (.gather i) s = .next u) ∧
    (s.moverOff i = false → s.fetchTensors i l = (u, true) → v.refused = false →
      (∀ st, u.gaChecks v ra rb rx = some st → ∃ t, exec (.gather i) s = .next t ∧ Claims.Ends u t i st 0) ∧
      (ra = .ok a → rb = .ok b → rx = .ok x → u.gaChecks v (.ok a) (.ok b) (.ok x) = none →
        (b.d.size.contains 0 = true → ∃ t, exec (.gather i) s = .next t ∧ Claims.Ends u t i 0 0) ∧
        (b.d.size.contains 0 = false → Claims.Here u a → Claims.Here u x → u.slotBusy i = false →
          v.tensorOf false (v.word 2) = .ok a → v.tensorOf true (v.word 3) = .ok b → v.tensorOf false (v.word 4) = .ok x →
          let raw := u.indices v x
          ∃ t, exec (.gather i) s = .next t ∧
            (t.slot i).stage = Claims.copied (t.slot i).dead (Claims.clamps (a.d.size.getD v.gaDim 1) raw) ∧
            ∀ n m w, v.gaDim = 0 → Claims.Flat u a m w → Claims.Flat u b n w → Claims.Writable u v b.d.base (n * w) → v.dead = false →
              let src := fun j => clampIx m (raw.getD j 0)
              Claims.Stores u t (aOff b.d.base) ((List.range n).flatMap fun j => leBytes w (Claims.item u v a (src j))) ∧
              (t.slot i).dead = (u.elemsDead v a ((List.range n).map fun j => src j :: List.replicate 7 0) || u.elemsDead v x (allIdx x.d.size)))))) ∧
  ((∀ (i : Nat) (s u : State) (a b x : Tensor), s.moverReady i 4 = true → (s.slot i).step = 0 →
    let l := [(s.slot i).word 2, (s.slot i).word 3, (s.slot i).word 4]
    let v := u.slot i
    let ra := u.readTensor v false (v.word 2)
    let rb := u.readTensor v true (v.word 3)
    let rx := u.readTensor v false (v.word 4)
    (s.moverOff i = true → ∃ t, exec (.scatter i) s = .next t ∧ Claims.Ends s t i 0x13 0) ∧
    (s.moverOff i = false → s.fetchTensors i l = (u, false) → exec (.scatter i) s = .next u) ∧
    (s.moverOff i = false → s.fetchTensors i l = (u, true) → v.refused = false →
      (∀ st, u.scChecks v ra rb rx = some st → ∃ t, exec (.scatter i) s = .next t ∧ Claims.Ends u t i st 0) ∧
      (ra = .ok a → rb = .ok b → rx = .ok x → u.scChecks v (.ok a) (.ok b) (.ok x) = none →
        (a.d.size.contains 0 = true → ∃ t, exec (.scatter i) s = .next t ∧ Claims.Ends u t i 0 0) ∧
        (a.d.size.contains 0 = false → v.scProg b.d = true → (u.core (u.phys v.scBase)).queue.length < 4 →
          ∃ t, exec (.scatter i) s = .next t ∧ Claims.Entered u t i [u.phys v.scBase]) ∧
        (a.d.size.contains 0 = false → v.scProg b.d = false → Claims.Here u a → Claims.Here u x → u.slotBusy i = false →
          v.tensorOf false (v.word 2) = .ok a → v.tensorOf true (v.word 3) = .ok b → v.tensorOf false (v.word 4) = .ok x →
          let raw := u.indices v x
          ∃ t, exec (.scatter i) s = .next t ∧
            (t.slot i).stage = Claims.copied (t.slot i).dead (Claims.clamps (b.d.size.getD v.scDim 1) raw) ∧
            ∀ n m w, v.scOp = 0 → v.scDim = 0 → Claims.Flat u a n w → Claims.Flat u b m w → Claims.Writable u v b.d.base (m * w) →
              let dst := fun j => aOff b.d.base + w * clampIx m (raw.getD j 0)
              (∀ j k, j < n → k < n → dst j = dst k → j = k) →
              (∀ j < n, t.memBytes (dst j) w = leBytes w (Claims.item u v a j)) ∧
              ∀ y, (∀ j < n, ¬(dst j ≤ y ∧ y < dst j + w)) → t.memByte y = u.memByte y)))) ∧
  (∀ (i : Nat) (s : State) (a b x : Tensor),
    let v := s.slot i
    s.running = true → v.opcode = 4 → v.stage = .started → v.tensorOf false (v.word 2) = .ok a → v.tensorOf true (v.word 3) = .ok b →
    v.tensorOf false (v.word 4) = .ok x → v.scProg b.d = true → v.step = 4 → s.slotBusy i = false → v.refused = false →
    a.d.size.getD v.scDim 1 ≤ (s.lrun i).tile → Claims.CanEnd s i →
    ∃ t, exec (.scatter i) s = .next t ∧ Claims.ProgramEnds s t i (Claims.copied v.dead v.count)))

/-- R258–R269, R271–R273: an UPDATE that is ready reads its tables; one that waits for them changes nothing else; one whose checks fail ends with that
status, else its program enters the queues of its cores. While cores run it, one of them takes the next piece at each step. Of a piece of one
element without moments, sign, clip, mask or working copy, the weight becomes the SPLIT code nearest to w·rho − eta·(aG·g'), g' the scaled gradient, each
step rounded once to FP32; no other byte of memory changes. It ends after its last piece when its cores and dips are over: CORE_RETIRED, DIP_MISMATCH,
PARTIAL with the count of elements kept, or OK.
Choices of the model it rests on: log entries 10, 63 to 65, 120. -/
def Obligations.UpdateStepsWeights : Prop :=
  (∀ (i : Nat) (s u : State), s.opReady i 7 = true → (s.slot i).step = 0 →
    let v := u.slot i
    let ks := (List.range v.upCores.2).map fun j => u.phys (v.upCores.1 + j)
    (s.fetchUpdate i = (u, false) → exec (.update i) s = .next u) ∧
    (s.fetchUpdate i = (u, true) → v.refused = false →
      (∀ st, u.updChecks v = some st → ∃ t, exec (.update i) s = .next t ∧ Claims.Ends u t i st 0) ∧
      (u.updChecks v = none → Claims.Room u ks → ∃ t, exec (.update i) s = .next t ∧ Claims.Entered u t i ks))) ∧
  (∀ (i : Nat) (s : State),
    let v := s.slot i
    let n := (s.lrun i).tile
    s.running = true → v.opcode = 7 → v.stage = .started →
    (∀ x, pieceAt v.upPairs n = some x → s.builtinCores i = [] → s.launchOver i = false → exec (.update i) s = .next s) ∧
    (∀ x, pieceAt v.upPairs n = some x → s.builtinCores i ≠ [] →
      ∃ t, exec (.update i) s = .next t ∧ (t.slot i).stage = .started ∧ (t.lrun i).tile = n + 1) ∧
    (∀ e c k, pieceAt v.upPairs n = some (e, c, 0) → s.builtinCores i = [k] → e.rows = 1 → e.cols = 1 → e.mask = 0 → e.owner = 0 → e.wkType = 0 →
      e.pair = false → e.gType = 7 → bits c.ctl 3 0 = 0 → c.clip = .inf false → s.isLocal e.w = true → isHost e.w = false → Claims.Writable s v e.w 4 →
      let g := v32 (s.descNat v e.g 4)
      let x := EType.val .split (s.descNat v e.w 4)
      let gt := flv (g.mul (flv (c.gScale.mul v.upMul)))
      let d := flv (c.aG.mul gt)
      let w1 := flv ((x.mul c.rho).add (flv (c.eta.neg.mul d)))
      gt.isFin = true → d.isFin = true → w1.isFin = true →
      ∃ t, exec (.update i) s = .next t ∧ Claims.Stores s t (aOff e.w) (leBytes 4 (EType.rne .split w1)) ∧ (t.slot i).count = v.count ∧
        (t.lrun i).tile = n + 1) ∧
    (pieceAt v.upPairs n = none → Claims.CanEnd s i → ∃ t, exec (.update i) s = .next t ∧
      Claims.ProgramEnds s t i (if v.count = 0 then .ended 0 0 else .ended 2 (v.count % 65536))))

/-! ## Exchanges -/

namespace Sys2Proof.Claims

/-- A descriptor that would end with POOL_EMPTY on pool `p` (64: the record store): its context parks where it asks for that and the watermark is in
use, else it ends (R436). -/
def ParksOrEnds (s t : State) (i p : Nat) : Prop :=
  let v := s.slot i
  let lv := if p = 64 then s.fieldOf Reg.sluRrWater 23 0 else s.fieldOf (Reg.panLowWater p) 19 0
  (∀ j, j ≠ i → t.slot j = s.slot j) ∧ t.slot i = { v with stage := if bit (v.word 0) 8 && lv != 0 then .parked p else .ended 0x10 0 }

/-- The EXCHANGE of slot `i` executes, or has been cancelled because its messages go to a door engine that is disabled (R505). -/
def Executes (t : State) (i : Nat) : Prop := (t.slot i).stage = .started ∨ (t.slot i).stage = .ended 0x13 0

/-- No EXCHANGE of slot `i` executes yet. -/
def NoExch (s : State) (i : Nat) : Prop := ∀ x ∈ s.exchs, x.slot ≠ i

/-- A message of a unit is on its way to room `r` of house `h`: within this room, or out of it. -/
def OnWay (s t : State) (h r : Nat) (m : UnitBody) : Prop := if h = s.house ∧ r = s.room then m ∈ t.loop else Out.unit h r m ∈ t.out

/-- A message about the round of slot `v` is. -/
def Leaves (s t : State) (v : Slot) (h r : Nat) (b : SluBody) : Prop := OnWay s t h r (.slu ⟨s.house, s.room, v.xLayer, v.xGen, b⟩)

/-- The EXCHANGE commands by phase (R300). -/
def exchanges : List (Nat × (Nat → Instr)) := [(0, .fwdDispatch), (1, .fwdCombine), (2, .bwdDispatch), (3, .bwdCombine)]

end Sys2Proof.Claims

/-- R278, R300, R302–R305, R313, R318, R320, R323: an EXCHANGE that is ready and whose Sluice is disabled ends CANCELLED; else it reads its descriptors and
its list of rooms. One that waits for them changes nothing else; one whose reading was refused ends ACCESS_DENIED; one whose checks fail ends with that
status. A FWD_DISPATCH finds a free entry and records enough, or ends POOL_EMPTY or parks; it opens its round there, in state 1, with one record reserved
for each token and place, and a reservation leaves for the instance of a lone choice. A BWD_DISPATCH takes its round to state 5, and the row of each record
leaves for the record's instance, weighted where that is asked. A combine whose slot area cannot be had ends POOL_EMPTY or parks; one that awaits an answer
takes its round to state 3 or 7, and a row leaves for each row served. One with no record and no row served ends at once: a forward one leaves the round in
state 4 unless it is forward only, a backward one, and a forward only one, end it. One whose own reads are under way waits. CANCEL ends its round, with the EXCHANGE of it that executes, which tells in `info` what it dropped or has not received.
Choices of the model it rests on: log entries 68 to 75. -/
def Obligations.ExchangesRun : Prop :=
  (∀ (i : Nat) (s u : State), s.xReady i (fun p => p == 0 || decide (4 < p)) = true → Claims.NoExch u i →
    let l := [(s.slot i).word 4, (s.slot i).word 5, (s.slot i).word 6]
    let v := u.slot i
    let w := u.noteLayer v.xLayer
    let y := w.layerAt v.xLayer
    let src := w.readTensor v false (v.word 4)
    let ch := w.readTensor v false (v.word 5)
    let ad := w.readTensor v true (v.word 6)
    let ps := w.readRooms v (v.word 3) v.xPeers
    (s.xOff i = true → ∃ t, exec (.fwdDispatch i) s = .next t ∧ Claims.Ends s t i 0x13 0) ∧
    (s.xOff i = false → s.fetchExch i l (s.peerTab (s.slot i)) = (u, false) → exec (.fwdDispatch i) s = .next u) ∧
    (s.xOff i = false → s.fetchExch i l (s.peerTab (s.slot i)) = (u, true) →
      (v.refused = true → ∃ t, exec (.fwdDispatch i) s = .next t ∧ Claims.Ends u t i 0x15 0) ∧
      (∀ st, v.refused = false → w.fwdChecks v src ch ad ps = some st → ∃ t, exec (.fwdDispatch i) s = .next t ∧ Claims.Ends u t i st 0) ∧
      (∀ a c d peers, v.refused = false → src = .ok a → ch = .ok c → ad = .ok d → ps = .ok peers → w.fwdChecks v src ch ad ps = none →
        let n := a.d.size.getD 1 1
        (w.freeEntry = none ∨ w.rrFree < n * y.k → ∃ t, exec (.fwdDispatch i) s = .next t ∧ Claims.ParksOrEnds u t i 64) ∧
        (∀ e, w.freeEntry = some e → n * y.k ≤ w.rrFree → (v.xLayer, v.xGen, 0, w.house, w.room) ∉ w.dones →
          ∃ t, exec (.fwdDispatch i) s = .next t ∧ Claims.Executes t i ∧
            t.round e = ⟨v.xLayer, v.xGen, 1, false, v.xFwdOnly, n, n * y.k, 0, [], []⟩ ∧
            ∀ x ex inst word, n = 1 → y.k = 1 → y.ranked = false → Claims.Here w a → Claims.Here w c →
              w.tcode v c [0, 0] = ex * 2 ^ 32 + x → x < 2 ^ 32 → ex < y.experts → (v32 x).isFin = true →
              placeOk (w.placeWords y.place ex) = true → w.pickInst (w.placeWords y.place ex) 0 = (inst, word) →
              Claims.Leaves w t v (wHouse word) (wRoom word) (.reserve 0 0 ex inst y.version a.d.fmt))))) ∧
  (∀ (i : Nat) (s u : State), s.xReady i (· == 2) = true → Claims.NoExch u i →
    let l := [(s.slot i).word 4]
    let v := u.slot i
    let w := u.noteLayer v.xLayer
    let src := w.readTensor v false (v.word 4)
    let ps := w.readRooms v (v.word 3) v.xPeers
    (s.xOff i = true → ∃ t, exec (.bwdDispatch i) s = .next t ∧ Claims.Ends s t i 0x13 0) ∧
    (s.xOff i = false → s.fetchExch i l (s.peerTab (s.slot i)) = (u, false) → exec (.bwdDispatch i) s = .next u) ∧
    (s.xOff i = false → s.fetchExch i l (s.peerTab (s.slot i)) = (u, true) →
      (v.refused = true → ∃ t, exec (.bwdDispatch i) s = .next t ∧ Claims.Ends u t i 0x15 0) ∧
      (∀ st, v.refused = false → w.bwdChecks v src ps = some st → ∃ t, exec (.bwdDispatch i) s = .next t ∧ Claims.Ends u t i st 0) ∧
      (∀ a peers e, v.refused = false → src = .ok a → ps = .ok peers → w.bwdChecks v src ps = none → w.roundFor v = some e →
        (v.xLayer, v.xGen, 2, w.house, w.room) ∉ w.dones →
        ∃ t, exec (.bwdDispatch i) s = .next t ∧ Claims.Executes t i ∧ t.round e = { w.round e with state := 5 } ∧
          ∀ r ∈ (w.round e).routes, Claims.Here w a →
            let x := w.rowOf v a r.token
            Claims.Leaves w t v r.house r.room (.brow r.slot r.row r.token r.rank r.idx a.d.fmt
              (if v.xWeighted then rowCodes a.d.ty ((weighted a.d r.weight x.1).map Prod.fst) else x.1) x.2.1)))) ∧
  (∀ e ∈ [(1, Instr.fwdCombine), (3, Instr.bwdCombine)], ∀ (i : Nat) (s u : State), s.xReady i (· == e.1) = true → Claims.NoExch u i →
    let p := e.1
    let l := [(s.slot i).word 5]
    let v := u.slot i
    let w := u.noteLayer v.xLayer
    let y := w.layerAt v.xLayer
    let dst := w.readTensor v true (v.word 5)
    let ps := w.readRooms v (v.word 3) v.xPeers
    let tabs := s.peerTab (s.slot i) ++ s.ansTab (s.slot i)
    (s.xOff i = true → ∃ t, exec (e.2 i) s = .next t ∧ Claims.Ends s t i 0x13 0) ∧
    (s.xOff i = false → s.fetchExch i l tabs = (u, false) → exec (e.2 i) s = .next u) ∧
    (s.xOff i = false → s.fetchExch i l tabs = (u, true) →
      (v.refused = true → ∃ t, exec (e.2 i) s = .next t ∧ Claims.Ends u t i 0x15 0) ∧
      (∀ st, v.refused = false → w.combChecks v dst ps = some st → ∃ t, exec (e.2 i) s = .next t ∧ Claims.Ends u t i st 0) ∧
      (∀ b peers n, v.refused = false → dst = .ok b → ps = .ok peers → w.combChecks v dst ps = none → w.roundFor v = some n →
        let r := w.round n
        let need := w.areaNeeds v.xPool (r.tokens * y.k) (b.d.size.headD 0)
        (v.xSlotted = true → need.1 = 0 ∨ w.alloc v.xPool need.2 = none → ∃ t, exec (e.2 i) s = .next t ∧ Claims.ParksOrEnds u t i v.xPool) ∧
        (∀ bufs, (v.xSlotted = false ∧ bufs = [] ∨ v.xSlotted = true ∧ need.1 ≠ 0 ∧ (w.alloc v.xPool need.2).map Prod.snd = some bufs) →
          (∃ q ∈ r.routes, (if p = 1 then q.fwd else q.bwd) = false ∧ q.house = w.house ∧ q.room = w.room) →
          ∃ t, exec (e.2 i) s = .next t ∧ Claims.Executes t i ∧ t.round n = { r with state := 2 * p + 1, area := bufs.map (handleOf v.xPool) } ∧
            ∀ k x a, w.served v.xLayer v.xGen k = some x → k < y.nslots → a ∈ x.rowsIn p →
              let z := w.ansEntry v y.nslots k (b.d.size.headD 0)
              z.1 ≠ 0 → ∃ elems scales, Claims.Leaves w t v a.house a.room (.answer p k a.row a.store z.2.2.1 elems scales) ∧
                (v.xSlotted = false → v.xKeep = true → elems = w.memBytes (aOff z.1 + a.row * z.2.1) (fmtBytes z.2.2.1) ∧
                  scales = w.memBytes (aOff z.1 + (x.rowsIn p).length * z.2.1 + a.row * fmtScales z.2.2.1) (fmtScales z.2.2.1))) ∧
        (v.xSlotted = false → v.xKeep = true → v.dead = false → r.routes = [] → w.service v.xLayer v.xGen = none →
          (∀ q ∈ peers, q.1 = w.house → q.2 ≠ w.room → w.roomDead q.2 = false) →
          ∃ t, exec (e.2 i) s = .next t ∧ (t.slot i).stage = .ended 0 0 ∧
            (p = 1 ∧ r.fwdOnly = false → (t.round n).state = 4) ∧
            (p = 3 ∨ r.fwdOnly = true → (t.round n).state = 0 ∧ t.inHold v.xLayer v.xGen = true))))) ∧
  (∀ e ∈ Claims.exchanges, ∀ (i : Nat) (s : State),
    let v := s.slot i
    (v.xphase ≠ e.1 → (e.1 = 0 → v.xphase ≤ 4) → exec (e.2 i) s = .next s) ∧
    (v.xphase = e.1 → v.stage = .started → v.step = 1 → s.slotBusy i = true →
      (∀ x ∈ s.exchs, x.slot = i → ∀ q ∈ x.peers, q.1 = s.house → q.2 ≠ s.room → s.roomDead q.2 = false) → exec (e.2 i) s = .next s)) ∧
  (∀ (i : Nat) (s : State),
    let v := s.slot i
    (s.xReady i (· == 4) = false → exec (.cancel i) s = .next s) ∧
    (s.xReady i (· == 4) = true →
      (s.xOff i = true → ∃ t, exec (.cancel i) s = .next t ∧ Claims.Ends s t i 0x13 0) ∧
      (s.xOff i = false → s.noLayers.isSome = true ∨ v.word 4 ≠ 0 ∨ v.word 5 ≠ 0 ∨ v.word 6 ≠ 0 ∨ v.word 7 ≠ 0 →
        ∃ t, exec (.cancel i) s = .next t ∧ Claims.Ends s t i 0x14 0) ∧
      (s.xOff i = false → s.noLayers = none → v.word 4 = 0 → v.word 5 = 0 → v.word 6 = 0 → v.word 7 = 0 →
        (s.roundOf v.xLayer v.xGen = none → ∃ t, exec (.cancel i) s = .next t ∧ Claims.Ends s t i 0 0 ∧ t.rounds = s.rounds) ∧
        (∀ e, s.roundOf v.xLayer v.xGen = some e → ∃ t, exec (.cancel i) s = .next t ∧ (t.slot i).stage = .ended 0 0 ∧ (t.round e).state = 0 ∧
          t.inHold v.xLayer v.xGen = true ∧ t.reg Reg.sluCancels = (s.reg Reg.sluCancels + 1) % 2 ^ 64 ∧
          ∀ x, s.exchOf v.xLayer v.xGen (fun _ => true) = some x → (t.slot x.slot).stage = .ended 0x13 (s.xInfo x % 65536)))))

namespace Sys2Proof.Claims

/-- The messages of a Sluice, as commands. -/
def sluiceMessages : List (SluMsg → Instr) :=
  [.reservation, .reservationReply, .countMessage, .offsetsReply, .tokenRow, .backwardRow, .doneMarker, .answer, .answerAck]

/-- A message comes to a room whose Sluices are not all disabled: one of another room's, or one of its own that is on its way; `u` is the state without
it. -/
def Comes (s u : State) (m : SluMsg) : Prop :=
  s.sluOff = false ∧ (m.house = s.house ∧ m.room = s.room → UnitBody.slu m ∈ s.loop ∧ u = { s with loop := s.loop.erase (.slu m) }) ∧
  (¬(m.house = s.house ∧ m.room = s.room) → u = s)

/-- A message about the round of `m` is on its way to the room that sent `m`. -/
def RepliedTo (s t : State) (m : SluMsg) (b : SluBody) : Prop := OnWay s t m.house m.room (.slu ⟨s.house, s.room, m.layer, m.gen, b⟩)

/-- A reservation or a count message asks for instance `n` of expert `e` (R282, R284); `no` is the reply that turns it down. -/
def AsksFor (c : SluMsg → Instr) (m : SluMsg) (e n ver : Nat) (f : RowFmt) (no : Verdict → SluBody) : Prop :=
  (∃ token rank, c = .reservation ∧ m.body = .reserve token rank e n ver f ∧ no = fun v => .reply token rank v) ∨
  (∃ step peers ranks, c = .countMessage ∧ m.body = .counts step e n ver peers f ranks ∧ no = fun v => .offsets step e n (.refused v))

/-- The instance word that such a message finds (R291). -/
def instWord (s : State) (m : SluMsg) (e n : Nat) : Nat := (s.placeWords (s.layerAt m.layer).place e).getD n 0

/-- Why it is turned down whatever the slot holds (R281, R291, R298): no such layer, another placement version, an instance that this room does not
serve, counts that have closed. -/
def turnedDown (s : State) (m : SluMsg) (e n ver : Nat) : Option Verdict :=
  let l := s.layerAt m.layer
  let w := instWord s m e n
  if s.fieldOf Reg.sluLayerCount 8 0 ≤ m.layer then some .invalid
  else if l.version ≠ ver then some .skew
  else if l.experts ≤ e ∨ bit w 47 = false ∨ bits w 63 48 ≠ s.house ∨ bits w 44 40 ≠ s.room ∨ l.nslots ≤ bits w 39 32 then some .invalid
  else match s.service m.layer m.gen with
    | some y => if y.counting then none else some .late
    | none => none

/-- It finds slot `v` of a round whose counts are open, with its forward buffer `h` (R308). -/
def Seated (s : State) (m : SluMsg) (e n ver : Nat) (v : Served) (h : Nat) : Prop :=
  s.inHold m.layer m.gen = false ∧ turnedDown s m e n ver = none ∧ s.served m.layer m.gen (bits (instWord s m e n) 39 32) = some v ∧
  v.fwd = some h ∧ v.refused = false

/-- It is the first of its slot, which has no buffer yet (R308). -/
def Unseated (s : State) (m : SluMsg) (e n ver : Nat) : Prop :=
  s.inHold m.layer m.gen = false ∧ turnedDown s m e n ver = none ∧ s.served m.layer m.gen (bits (instWord s m e n) 39 32) = none ∧
  ((s.service m.layer m.gen).isSome = true ∨ (s.services.filter fun y => y.counting).length < 64)

/-- Choices of some ranks that a source counts. -/
def chosen (c : Counted) (p : Nat → Bool) : Nat := ((c.ranks.filter fun x => p x.1).map Prod.snd).sum

/-- Source `d` comes before source `c`: the lower house, then the lower room (R284). -/
def before (d c : Counted) : Bool := decide (d.house < c.house) || (d.house == c.house && decide (d.room < c.room))

/-- The place of a source's first choice of rank `r` among all those counted: after the choices of lower rank and those of its rank from sources
before it (R284). -/
def offsetOf (l : List Counted) (c : Counted) (r : Nat) : Nat :=
  (l.map fun d => chosen d fun q => decide (q < r)).sum + ((l.filter fun d => before d c).map fun d => chosen d fun q => q == r).sum

/-- The counts `l` of step `step` of slot `v` have been answered (R284, R286): each source gets the offsets of its ranks, and the slot admits of the
choices, in the order of their places, those for which it has rows left. -/
def StepAnswered (s t : State) (layer gen : Nat) (v : Served) (step : Nat) (l : List Counted) : Prop :=
  let k := (s.layerAt layer).k
  let total := (l.map fun c => chosen c fun r => decide (r < 16)).sum
  let left := v.cap - v.admitted
  let primary := (l.map fun c => chosen c fun r => decide (r < k)).sum
  (∀ c ∈ l, OnWay s t c.house c.room (.slu ⟨s.house, s.room, layer, gen, .offsets step c.expert c.inst
    (.given (c.ranks.map fun r => (r.1, offsetOf l c r.1)) left v.admitted (v.fwd.getD 0))⟩)) ∧
  ∃ u, t.served layer gen v.slot = some u ∧ u.requested = v.requested + total ∧ u.admitted = v.admitted + min total left ∧
    u.dropped = v.dropped + (total - left) ∧ u.excess = v.excess + (min total left - min primary left) ∧ u.closed = v.closed ++ [step] ∧ u.counts = []

/-- A row stands in the receive buffer at `o` of `cap` rows, with its arrival entry; the buffer counts `n` rows; no other byte has changed (R309). -/
def RowStands (s t : State) (o cap : Nat) (f : RowFmt) (a : Arrived) (n : Nat) (elems scales : List Byte) : Prop :=
  let e := o + 64 + 16 * a.row
  let r := o + rxRows cap + a.row * rxPitch f
  let z := o + rxRows cap + cap * rxPitch f + a.row * fmtScales f
  t.memBytes e 16 = leBytes 4 a.token ++ leBytes 2 a.house ++ leBytes 1 a.room ++ leBytes 1 a.rank ++ leBytes 4 a.store ++ leBytes 4 0 ∧
  t.memBytes r elems.length = elems ∧ (f.mx = true → t.memBytes z scales.length = scales) ∧ t.memNat (o + 8) 4 = n % 2 ^ 32 ∧
  ∀ x, ¬(e ≤ x ∧ x < e + 16) → ¬(r ≤ x ∧ x < r + elems.length) → ¬(f.mx = true ∧ z ≤ x ∧ x < z + scales.length) → ¬(o + 8 ≤ x ∧ x < o + 12) →
    t.memByte x = s.memByte x

/-- A row for a buffer of `cap` rows: it is one of them, and its bytes are as its form says. -/
def RowFits (cap : Nat) (f : RowFmt) (row : Nat) (elems scales : List Byte) : Prop :=
  row < cap ∧ elems.length = fmtBytes f ∧ (f.mx = true → scales.length = fmtScales f)

/-- The EXCHANGE `x` alone executes in its round, awaits nothing of its own, and knows of no dead peer. -/
def OnlyAwaitsDone (s : State) (x : Exch) (m : SluMsg) : Prop :=
  s.exchs = [x] ∧ x.layer = m.layer ∧ x.gen = m.gen ∧ (s.slot x.slot).stage = .started ∧ (s.slot x.slot).step = 2 ∧ x.sent = true ∧ x.dead = [] ∧
  x.skew = false ∧ x.part = false ∧ x.bad = false ∧ (s.slot x.slot).dead = false ∧ (s.slot x.slot).refused = false ∧
  (s.slot x.slot).cancelled = false ∧ s.xSentAll x = true ∧ (∀ y ∈ x.tries, y.outcome ≠ none) ∧
  (∀ q ∈ x.peers, q.1 = s.house → q.2 ≠ s.room → s.roomDead q.2 = false) ∧
  ∀ q ∈ x.peers, q ≠ (m.house, m.room) → (x.layer, x.gen, x.phase, q.1, q.2) ∈ s.dones

end Sys2Proof.Claims

/-- R281, R282, R284, R286, R291, R298, R301, R308, R309, R317, R326: what an instance does with messages, of another room and of its own. A reservation or
count message is turned down for its layer, placement version or instance, or when the counts have closed; the first of its slot allocates the slot's
buffer, or is refused for retry while the pool is empty. A reservation is granted the slot's next row while its count is below the capacity, refused FULL
after. Counts are held until those of every source are there, and then answered, as they are after SLU_COUNT_TIMEOUT. A row is written to its receive row
with its arrival entry and counted; a token row of another placement version is turned down; a backward row is acknowledged, and refused for retry while the
pool is empty. A DONE marker is held, and the one that an EXCHANGE alone awaits ends it. An acknowledged answer is over, and the slot's last releases its
buffer. No message is taken while every Sluice of the room is disabled.
Choices of the model it rests on: log entries 10, 68 to 74. -/
def Obligations.InstanceServesSources : Prop :=
  (∀ c ∈ Claims.sluiceMessages, ∀ (m : SluMsg) (s : State),
    s.sluOff = true ∨ (m.house = s.house ∧ m.room = s.room ∧ UnitBody.slu m ∉ s.loop) → exec (c m) s = .next s) ∧
  (∀ (c : SluMsg → Instr) (m : SluMsg) (s u : State) (e n ver : Nat) (f : RowFmt) (no : Verdict → SluBody), Claims.Comes s u m →
    Claims.AsksFor c m e n ver f no →
    (u.inHold m.layer m.gen = true → ∀ step peers ranks, m.body = .counts step e n ver peers f ranks → exec (.countMessage m) s = .next u) ∧
    (u.inHold m.layer m.gen = true → ∀ token rank, m.body = .reserve token rank e n ver f →
      ∃ t, exec (.reservation m) s = .next t ∧ Claims.RepliedTo u t m (.reply token rank .late) ∧ t.mem = s.mem) ∧
    (∀ v, u.inHold m.layer m.gen = false → Claims.turnedDown u m e n ver = some v →
      ∃ t, exec (c m) s = .next t ∧ Claims.RepliedTo u t m (no v) ∧ t.mem = s.mem) ∧
    (u.inHold m.layer m.gen = false → Claims.turnedDown u m e n ver = none → u.service m.layer m.gen = none →
      64 ≤ (u.services.filter fun y => y.counting).length →
      ∃ t, exec (c m) s = .next t ∧ t.services = u.services ∧ t.mem = s.mem ∧
        (¬(m.house = s.house ∧ m.room = s.room) → Out.again m.house m.room (.slu m) false ∈ t.out)) ∧
    (Claims.Unseated u m e n ver →
      let p := u.fieldOf (Reg.sluPools m.layer) 5 0
      let slot := bits (Claims.instWord u m e n) 39 32
      let cap := bits (Claims.instWord u m e n) 15 0
      let small := u.fieldOf (Reg.panCfg p) 15 0 * 4096 < rxSize cap f
      let ready := u.poolOn p = true ∧ u.unitOff (80 + p % 4) = false ∧ 1 ≤ u.poolFree p
      (small → ∃ t, exec (c m) s = .next t ∧ Claims.RepliedTo u t m (no .invalid) ∧
        ∃ v, t.served m.layer m.gen slot = some v ∧ v.refused = true ∧ v.fwd = none) ∧
      (¬small → ready → ∃ (t : State) (b : Nat), exec (c m) s = .next t ∧ Claims.FreeBuf u p b ∧ t.refOf p b = 1 ∧
        ∃ v, t.served m.layer m.gen slot = some v ∧ v.fwd = some (handleOf p b) ∧ v.cap = cap ∧
          (Claims.OneToOne u → Claims.OnStacks u → Claims.Sound u (u.bufOff p b) 64 →
            t.memBytes (u.bufOff p b) 64 = rxHeader m.layer m.gen slot 0 cap f)) ∧
      (¬small → ¬ready → ∃ t, exec (c m) s = .next t ∧ t.mem = s.mem ∧ t.reg (Reg.panFails p) = (u.reg (Reg.panFails p) + 1) % 2 ^ 64 ∧
        t.reg Reg.sluRetries = (u.reg Reg.sluRetries + 1) % 2 ^ 64 ∧
        (¬(m.house = s.house ∧ m.room = s.room) → Out.again m.house m.room (.slu m) true ∈ t.out)))) ∧
  (∀ (m : SluMsg) (s u : State) (token rank e n ver h : Nat) (f : RowFmt) (v : Served), Claims.Comes s u m →
    m.body = .reserve token rank e n ver f → Claims.Seated u m e n ver v h →
    (v.admitted < v.cap → ∃ t, exec (.reservation m) s = .next t ∧ Claims.RepliedTo u t m (.reply token rank (.granted v.admitted h)) ∧
      ∃ x, t.served m.layer m.gen v.slot = some x ∧ x.admitted = v.admitted + 1 ∧ x.requested = v.requested + 1 ∧ x.dropped = v.dropped ∧
        x.excess = v.excess + (if (u.layerAt m.layer).k ≤ rank then 1 else 0)) ∧
    (v.cap ≤ v.admitted → ∃ t, exec (.reservation m) s = .next t ∧ Claims.RepliedTo u t m (.reply token rank .full) ∧
      ∃ x, t.served m.layer m.gen v.slot = some x ∧ x.admitted = v.admitted ∧ x.requested = v.requested + 1 ∧ x.dropped = v.dropped + 1 ∧
        x.excess = v.excess)) ∧
  (∀ (m : SluMsg) (s u : State) (step e n ver peers h : Nat) (f : RowFmt) (ranks : List (Nat × Nat)) (v : Served), Claims.Comes s u m →
    m.body = .counts step e n ver peers f ranks → Claims.Seated u m e n ver v h →
    let l := v.counts ++ [⟨m.house, m.room, step, e, n, peers, ranks⟩]
    (step ∈ v.closed → ∃ t, exec (.countMessage m) s = .next t ∧ Claims.RepliedTo u t m (.offsets step e n (.refused .late)) ∧ t.mem = s.mem) ∧
    (step ∉ v.closed → (∀ c ∈ v.counts, c.step = step) → (∀ x ∈ u.exchs, x.phase = 0 → x.layer = m.layer → x.gen ≠ m.gen) →
      ((∃ c ∈ l, l.length < c.peers) → ∃ t, exec (.countMessage m) s = .next t ∧ t.out = s.out ∧ t.loop = u.loop ∧
        t.served m.layer m.gen v.slot = some { v with counts := l }) ∧
      ((∀ c ∈ l, c.peers ≤ l.length) → (l.map fun c => (c.house, c.room)).Nodup →
        ∃ t, exec (.countMessage m) s = .next t ∧ Claims.StepAnswered u t m.layer m.gen v step l))) ∧
  (∀ (layer gen slot step : Nat) (s : State),
    (s.served layer gen slot = none → exec (.countTimeout layer gen slot step) s = .next s) ∧
    (∀ v, s.served layer gen slot = some v →
      ((∀ c ∈ v.counts, c.step ≠ step) → exec (.countTimeout layer gen slot step) s = .next s) ∧
      (v.counts ≠ [] → (∀ c ∈ v.counts, c.step = step) → (v.counts.map fun c => (c.house, c.room)).Nodup →
        ∃ t, exec (.countTimeout layer gen slot step) s = .next t ∧ Claims.StepAnswered s t layer gen v step v.counts))) ∧
  (∀ (m : SluMsg) (s u : State) (slot row token rank store ver : Nat) (f : RowFmt) (elems scales : List Byte), Claims.Comes s u m →
    m.body = .row slot row token rank store ver f elems scales →
    (u.inHold m.layer m.gen = true → exec (.tokenRow m) s = .next u) ∧
    (u.inHold m.layer m.gen = false → (u.layerAt m.layer).version ≠ ver →
      ∃ t, exec (.tokenRow m) s = .next t ∧ Claims.RepliedTo u t m (.reply token rank .skew) ∧ t.mem = s.mem) ∧
    (u.inHold m.layer m.gen = false → (u.layerAt m.layer).version = ver → (∀ v, u.served m.layer m.gen slot = some v → v.fwd = none) →
      exec (.tokenRow m) s = .next u) ∧
    (∀ v h, u.inHold m.layer m.gen = false → (u.layerAt m.layer).version = ver → u.served m.layer m.gen slot = some v → v.fwd = some h →
      Claims.RowFits v.cap f row elems scales → Claims.OneToOne u → Claims.OnStacks u → Claims.Sound u (u.handleOff h) (rxSize v.cap f) →
      let a : Arrived := ⟨row, m.house, m.room, token, rank, store⟩
      ∃ t, exec (.tokenRow m) s = .next t ∧ Claims.RowStands u t (u.handleOff h) v.cap f a (v.fwdRows.length + 1) elems scales ∧
        t.served m.layer m.gen slot = some { v with fwdRows := v.fwdRows ++ [a] })) ∧
  (∀ (m : SluMsg) (s u : State) (slot row token rank store : Nat) (f : RowFmt) (elems scales : List Byte), Claims.Comes s u m →
    m.body = .brow slot row token rank store f elems scales →
    (u.served m.layer m.gen slot = none → exec (.backwardRow m) s = .next u) ∧
    (∀ v, u.served m.layer m.gen slot = some v →
      let p := u.fieldOf (Reg.sluPools m.layer) 13 8
      let a : Arrived := ⟨row, m.house, m.room, token, rank, store⟩
      (∀ h, v.bwd = some h → Claims.RowFits v.cap f row elems scales → Claims.OneToOne u → Claims.OnStacks u →
        Claims.Sound u (u.handleOff h) (rxSize v.cap f) →
        ∃ t, exec (.backwardRow m) s = .next t ∧ Claims.RowStands u t (u.handleOff h) v.cap f a (v.bwdRows.length + 1) elems scales ∧
          Claims.RepliedTo u t m (.reply token rank (.granted row h)) ∧
          ∃ x, t.served m.layer m.gen slot = some x ∧ x.bwdRows = v.bwdRows ++ [a] ∧ x.bwd = some h) ∧
      (v.bwd = none → u.fieldOf (Reg.panCfg p) 15 0 * 4096 < rxSize v.cap f ∨ u.poolOn p = false ∨ u.unitOff (80 + p % 4) = true ∨ u.poolFree p = 0 →
        ∃ t, exec (.backwardRow m) s = .next t ∧ t.mem = s.mem ∧ t.reg (Reg.panFails p) = (u.reg (Reg.panFails p) + 1) % 2 ^ 64 ∧
          t.reg Reg.sluRetries = (u.reg Reg.sluRetries + 1) % 2 ^ 64 ∧
          (¬(m.house = s.house ∧ m.room = s.room) → Out.again m.house m.room (.slu m) true ∈ t.out)) ∧
      (v.bwd = none → rxSize v.cap f ≤ u.fieldOf (Reg.panCfg p) 15 0 * 4096 → u.poolOn p = true → u.unitOff (80 + p % 4) = false → 1 ≤ u.poolFree p →
        ∃ (t : State) (b : Nat), exec (.backwardRow m) s = .next t ∧ Claims.FreeBuf u p b ∧ t.refOf p b = 1 ∧
          Claims.RepliedTo u t m (.reply token rank (.granted row (handleOf p b))) ∧
          ∃ x, t.served m.layer m.gen slot = some x ∧ x.bwdRows = v.bwdRows ++ [a] ∧ x.bwd = some (handleOf p b)))) ∧
  (∀ (m : SluMsg) (s u : State) (p : Nat), Claims.Comes s u m → m.body = .done p →
    let d := (m.layer, m.gen, p, m.house, m.room)
    (u.inHold m.layer m.gen = true ∨ d ∈ u.dones → exec (.doneMarker m) s = .next u) ∧
    (u.inHold m.layer m.gen = false → d ∉ u.dones →
      ((∀ x ∈ u.exchs, x.layer ≠ m.layer ∨ x.gen ≠ m.gen) → exec (.doneMarker m) s = .next { u with dones := u.dones ++ [d] }) ∧
      (∀ x e, Claims.OnlyAwaitsDone u x m → x.phase = p → p % 2 = 0 → u.roundOf x.layer x.gen = some e → u.isLocal x.table = true →
        isHost x.table = false → u.pkgDown = [] →
        ∃ t, exec (.doneMarker m) s = .next t ∧ (t.slot x.slot).stage = .ended 0 (u.xInfo x % 65536) ∧ (t.round e).state = 2 * p + 2))) ∧
  (∀ (m : SluMsg) (s u : State) (p slot row h : Nat) (y : Service) (v : Served), Claims.Comes s u m → m.body = .ack p slot row →
    u.services = [y] → y.layer = m.layer → y.gen = m.gen → y.slots = [v] → v.slot = slot → v.answers = [(row, m.house, m.room)] →
    v.ansRef = some h → u.poolOn (poolOf h) = true → 2 ≤ u.refOf (poolOf h) (bufOf h) → (∀ x ∈ u.exchs, x.layer ≠ m.layer ∨ x.gen ≠ m.gen) →
    ∃ t, exec (.answerAck m) s = .next t ∧ t.refOf (poolOf h) (bufOf h) = u.refOf (poolOf h) (bufOf h) - 1 ∧
      t.services = (if y.ended then [] else [{ y with counting := y.counting && !y.sent, slots := [{ v with answers := [], ansRef := none }] }]))

namespace Sys2Proof.Claims

/-- The EXCHANGE `x` executes in the phases named, in the round at entry `e` that the message is about. -/
def Waiting (s : State) (m : SluMsg) (p : Nat → Bool) (x : Exch) (e : Nat) : Prop :=
  s.exchOf m.layer m.gen p = some x ∧ s.exch x.slot = some x ∧ s.roundOf m.layer m.gen = some e

/-- Admission has reached every choice of every token that is not final, and no room is dead: no further choice is tried. -/
def NoMore (s : State) (x : Exch) : Prop :=
  (s.slot x.slot).step = 2 ∧ (∀ t < x.tokens, t ∈ x.final ∨ x.k + x.s ≤ (x.of t).length) ∧ x.dead = [] ∧
  ∀ q ∈ x.peers, q.1 = s.house → q.2 ≠ s.room → s.roomDead q.2 = false

/-- The counter of a verdict that is no admission (R323). -/
def verdictReg (v : Verdict) : Nat :=
  match v with
  | .granted _ _ => Reg.sluAdmitted
  | .full => Reg.sluDropFull
  | .invalid => Reg.sluDropInvalid
  | .skew => Reg.sluDropSkew
  | .late => Reg.sluDropLate

/-- The try of a choice at the room that sent `m`. -/
def tryOf (x : Exch) (m : SluMsg) (token rank : Nat) : Option Try :=
  x.tries.find? fun t => t.token == token && t.rank == rank && t.house == m.house && t.room == m.room

/-- The tries that an offsets message decides. -/
def counted (x : Exch) (m : SluMsg) (step e n : Nat) : List Try :=
  x.tries.filter fun t => t.outcome = none && t.step == step && t.expert == e && t.inst == n && t.house == m.house && t.room == m.room

/-- The place of a try among the choices that its instance takes: its rank's offset, and the choices of its rank of lower tokens (R284). -/
def placed (l : List Try) (offs : List (Nat × Nat)) (y : Try) : Nat :=
  ((offs.find? fun o => o.1 == y.rank).map Prod.snd).getD 0 + (l.filter fun z => z.rank == y.rank && decide (z.token < y.token)).length

/-- A choice has its route record (R19, R306). -/
def HasRoute (t : State) (e : Nat) (y : Try) (row handle : Nat) : Prop :=
  ∃ r ∈ (t.round e).routes, r.token = y.token ∧ r.rank = y.rank ∧ r.house = y.house ∧ r.room = y.room ∧ r.slot = y.slot ∧ r.row = row ∧
    r.handle = handle

/-- Another record of the round awaits an answer of this room. -/
def OtherAwaited (s : State) (e : Nat) (r : Route) (p : Nat) : Prop :=
  ∃ q ∈ (s.round e).routes, q.idx ≠ r.idx ∧ (if p = 1 then q.fwd else q.bwd) = false ∧ q.house = s.house ∧ q.room = s.room

/-- A message asks for admission (R282, R284), and of which choices. -/
def admissionAsk (b : UnitBody) : Option (Try → Bool) :=
  match b with
  | .slu ⟨_, _, _, _, .reserve token rank _ _ _ _⟩ => some fun z => z.token == token && z.rank == rank
  | .slu ⟨_, _, _, _, .counts step e n _ _ _ _⟩ => some fun z => z.step == step && z.expert == e && z.inst == n
  | _ => none

/-- A kept message is given up when it is refused for an empty pool: it asks for admission, and SLU_COUNT_TIMEOUT has passed (R308). -/
def TimedOut (s : State) (k : Kept) (empty : Bool) : Prop :=
  empty = true ∧ k.since + 1000 * s.fieldOf Reg.sluCountTimeout 13 0 ≤ s.now ∧ (admissionAsk k.body).isSome = true

end Sys2Proof.Claims

/-- R282, R284, R288, R298, R303, R306, R308, R312–R315, R317, R319, R323: what a source does with replies, of another room and of its own. A choice that is
granted a row gets its route record and is counted, and its row leaves for the instance; one that is refused is counted by its outcome; the admission list of
a token of one choice gets its entry. A token row turned down for its placement version is counted so and loses its record. An accepted backward row is
marked in its record. An offsets message decides the choices counted, those of a rank in the order of their tokens. An answer of an open combine is added,
times its weight, into its token's destination row, with one rounding, or put into its slot, once: one that repeats, that finds no round, or that comes when
its combine is over, changes no memory; all these are acknowledged, and one that comes before its combine is refused for retry. A message refused for retry
leaves again, unless it asks for admission of an empty pool and its time is over; a generation leaves hold-down.
Choices of the model it rests on: log entries 10, 68 to 74. -/
def Obligations.SourceAdmitsAndCombines : Prop :=
  (∀ (m : SluMsg) (s u : State) (token rank : Nat) (v : Verdict), Claims.Comes s u m → m.body = .reply token rank v →
    (u.exchOf m.layer m.gen (fun p => p == 0) = none →
      ((∀ row h, v ≠ .granted row h) → exec (.reservationReply m) s = .next u) ∧
      (∀ row h, v = .granted row h →
        (u.roundOf m.layer m.gen = none → exec (.reservationReply m) s = .next u) ∧
        (∀ e, u.roundOf m.layer m.gen = some e →
          let find := (u.round e).routes.find? fun r => r.token == token && r.rank == rank && r.house == m.house && r.room == m.room
          (find = none → exec (.reservationReply m) s = .next u) ∧
          (∀ r, find = some r → (∀ x ∈ u.exchs, x.layer = m.layer → x.gen = m.gen → x.phase = 2) →
            ∃ t, exec (.reservationReply m) s = .next t ∧ { r with brow := true } ∈ (t.round e).routes)))) ∧
    (∀ x e, Claims.Waiting u m (fun p => p == 0) x e →
      (Claims.tryOf x m token rank = none → exec (.reservationReply m) s = .next u) ∧
      (∀ y, Claims.tryOf x m token rank = some y →
        (y.outcome = none → x.ranked = false → Claims.NoMore u x →
          (∃ t, exec (.reservationReply m) s = .next t ∧ t.reg (Claims.verdictReg v) = (u.reg (Claims.verdictReg v) + 1) % 2 ^ 64) ∧
          (∀ row h, v = .granted row h → ∃ t idx elems scales, exec (.reservationReply m) s = .next t ∧ Claims.HasRoute t e y row h ∧
            Claims.OnWay u t y.house y.room (.slu ⟨u.house, u.room, x.layer, x.gen, .row y.slot row token rank idx x.ver x.rows.d.fmt elems scales⟩) ∧
            (Claims.Here u x.rows → elems = (u.rowOf (u.slot x.slot) x.rows token).1 ∧ scales = (u.rowOf (u.slot x.slot) x.rows token).2.1)) ∧
          (∀ a row h, v = .granted row h → x.admits = some a → x.tries = [y] → x.final = [] → x.tokens = 1 → x.k = 1 → x.s = 0 → x.renorm = false →
            token = 0 → rank = 0 → a.d.ty = .int64 → a.d.size.headD 0 = 1 → u.services = [] → (u.house, u.room) ∈ x.peers →
            (x.layer, x.gen, 0, u.house, u.room) ∉ u.dones → u.isLocal (a.elemAt [0, 0]).1 = true → isHost (a.elemAt [0, 0]).1 = false →
            Claims.Writable u (u.slot x.slot) (a.elemAt [0, 0]).1 8 → y.weight < 2 ^ 32 → y.inst < 2 ^ 24 →
            ∃ t, exec (.reservationReply m) s = .next t ∧ t.memNat (aOff (a.elemAt [0, 0]).1) 8 = y.inst * 2 ^ 40 + 2 ^ 32 + y.weight)) ∧
        (y.outcome = some 1 → v = .skew →
          ∃ t, exec (.reservationReply m) s = .next t ∧ t.reg Reg.sluDropSkew = (u.reg Reg.sluDropSkew + 1) % 2 ^ 64 ∧
            ∀ r ∈ (t.round e).routes, ¬(r.token = token ∧ r.rank = rank)) ∧
        (y.outcome ≠ none ∨ x.ranked = true → ¬(y.outcome = some 1 ∧ v = .skew) →
          ∃ t, exec (.reservationReply m) s = .next t ∧ t = { u with kept := t.kept })))) ∧
  (∀ (m : SluMsg) (s u : State) (step ex n : Nat) (o : Offsets), Claims.Comes s u m → m.body = .offsets step ex n o →
    (u.exchOf m.layer m.gen (fun p => p == 0) = none → exec (.offsetsReply m) s = .next u) ∧
    (∀ x e, Claims.Waiting u m (fun p => p == 0) x e →
      let l := Claims.counted x m step ex n
      (l = [] → exec (.offsetsReply m) s = .next u) ∧
      (∀ offs left base handle, o = .given offs left base handle → l ≠ [] →
        ∃ t, exec (.offsetsReply m) s = .next t ∧ (∀ y ∈ l, Claims.placed l offs y < left → Claims.HasRoute t e y (base + Claims.placed l offs y) handle) ∧
          t.reg Reg.sluAdmitted = (u.reg Reg.sluAdmitted + (l.filter fun y => decide (Claims.placed l offs y < left)).length) % 2 ^ 64 ∧
          t.reg Reg.sluDropFull = (u.reg Reg.sluDropFull + (l.filter fun y => decide (left ≤ Claims.placed l offs y)).length) % 2 ^ 64) ∧
      (∀ v, o = .refused v → (∀ row h, v ≠ .granted row h) → l ≠ [] → Claims.NoMore u x →
        ∃ t, exec (.offsetsReply m) s = .next t ∧ t.reg (Claims.verdictReg v) = (u.reg (Claims.verdictReg v) + l.length) % 2 ^ 64))) ∧
  (∀ (m : SluMsg) (s u : State) (p slot row store : Nat) (f : RowFmt) (elems scales : List Byte), Claims.Comes s u m →
    m.body = .answer p slot row store f elems scales →
    (u.roundOf m.layer m.gen = none → ∃ t, exec (.answer m) s = .next t ∧ Claims.RepliedTo u t m (.ack p slot row) ∧ t.mem = s.mem ∧
      t.reg Reg.sluStaleAnswers = (u.reg Reg.sluStaleAnswers + 1) % 2 ^ 64) ∧
    (∀ e, u.roundOf m.layer m.gen = some e →
      let y := u.round e
      let find := y.routes.find? fun r => r.idx == store
      (y.state < 2 * p + 1 → ∃ t, exec (.answer m) s = .next t ∧ t.mem = s.mem ∧ t.reg Reg.sluRetries = (u.reg Reg.sluRetries + 1) % 2 ^ 64 ∧
        (¬(m.house = s.house ∧ m.room = s.room) → Out.again m.house m.room (.slu m) false ∈ t.out)) ∧
      (2 * p + 1 ≤ y.state → find = none → ∃ t, exec (.answer m) s = .next t ∧ Claims.RepliedTo u t m (.ack p slot row) ∧ t.mem = s.mem) ∧
      (∀ r, 2 * p + 1 ≤ y.state → find = some r →
        ((if p = 1 then r.fwd else r.bwd) = true → ∃ t, exec (.answer m) s = .next t ∧ Claims.RepliedTo u t m (.ack p slot row) ∧ t.mem = s.mem ∧
          t.reg Reg.sluDupAnswers = (u.reg Reg.sluDupAnswers + 1) % 2 ^ 64) ∧
        ((if p = 1 then r.fwd else r.bwd) = false → y.state ≠ 2 * p + 1 ∨ u.exchOf m.layer m.gen (fun q => q == p) = none →
          ∃ t, exec (.answer m) s = .next t ∧ Claims.RepliedTo u t m (.ack p slot row) ∧ t.mem = s.mem) ∧
        (∀ x, (if p = 1 then r.fwd else r.bwd) = false → y.state = 2 * p + 1 → Claims.Waiting u m (fun q => q == p) x e → p = 1 ∨ p = 3 →
          Claims.OtherAwaited u e r p → u.services = [] →
          let b := x.rows
          let a := (b.elemAt [0, r.token]).1
          let n := b.d.ty.width / 8
          let rec0 := u.reg Reg.sluRrBase + 32 * r.idx
          let weight := if p = 1 then r.weight else 0x3F800000
          (∃ t, exec (.answer m) s = .next t ∧ Claims.RepliedTo u t m (.ack p slot row) ∧
            ∃ z ∈ (t.round e).routes, z.idx = store ∧ (if p = 1 then z.fwd else z.bwd) = true) ∧
          (x.slotted = false → b.d.size.headD 0 = 1 → b.d.ty = .fp32 ∨ b.d.ty = .bf16 → f = ⟨1, EType.fp32.code, false⟩ → elems.length = 4 →
            u.isLocal a = true → Claims.Writable u (u.slot x.slot) a n → aOff a + n ≤ rec0 ∨ rec0 + 32 ≤ aOff a →
            ∃ t, exec (.answer m) s = .next t ∧
              t.memNat (aOff a) n = b.d.ty.rne ((b.d.ty.val (u.memNat (aOff a) n)).add ((v32 weight).mul (v32 (leNat elems)))) ∧
              ∀ q, ¬(aOff a ≤ q ∧ q < aOff a + n) → ¬(rec0 ≤ q ∧ q < rec0 + 32) → t.memByte q = u.memByte q) ∧
          (∀ at_, x.slotted = true → u.areaAt x e r = some at_ → (elems ++ scales).length ≤ x.areaRow → Claims.OneToOne u → Claims.OnStacks u →
            Claims.Sound u at_ (elems ++ scales).length → at_ + (elems ++ scales).length ≤ rec0 ∨ rec0 + 32 ≤ at_ →
            ∃ t, exec (.answer m) s = .next t ∧ t.memBytes at_ (elems ++ scales).length = elems ++ scales))))) ∧
  (∀ (n : Nat) (empty : Bool) (s : State),
    (s.kept.find? (fun k => k.num == n) = none → exec (.messageRetry n empty) s = .next s) ∧
    (∀ k, s.kept.find? (fun k => k.num == n) = some k →
      let live := match k.body with | .slu _ => (s.exch k.slot).isSome | .col _ => decide ((s.slot k.slot).stage = .started)
      (k.body ∈ s.loop ∨ live = false → exec (.messageRetry n empty) s = .next s) ∧
      (k.body ∉ s.loop → live = true → ¬Claims.TimedOut s k empty →
        ∃ t, exec (.messageRetry n empty) s = .next t ∧ Claims.OnWay s t k.house k.room k.body ∧ t.mem = s.mem) ∧
      (∀ x ask, k.body ∉ s.loop → s.exch k.slot = some x → Claims.admissionAsk k.body = some ask → Claims.TimedOut s k empty → Claims.NoMore s x →
        let l := x.tries.filter fun z => z.outcome = none && ask z
        l ≠ [] → ∃ t, exec (.messageRetry n empty) s = .next t ∧ t.reg Reg.sluDropLate = (s.reg Reg.sluDropLate + l.length) % 2 ^ 64))) ∧
  (∀ (layer gen : Nat) (s : State), ∃ t, exec (.genHoldExpiry layer gen) s = .next t ∧ t.inHold layer gen = false ∧
    (∀ l g, (l, g) ≠ (layer, gen) → t.inHold l g = s.inHold l g) ∧ t = { s with holds := t.holds, rounds := t.rounds })

/-! ## Collectives -/

namespace Sys2Proof.Claims

/-- A COLLECTIVE ends with a status; it is counted when its record is written. -/
def ColEnds (s t : State) (i st : Nat) : Prop := Ends s t i st 0

/-- The GATHER has copied its shards: it ends, OK or with a dead target, and a stamp it is to record stands (R414–R416). -/
def GatherEnds (u t : State) (i : Nat) (a : Tensor) (dead : Bool) : Prop :=
  let v := u.slot i
  let stamp := (a.shards.map Shard.version).foldl max 0
  let p := v.word 4 + 0x20
  ((t.slot i).stage = .ended 0 0 ∨ (t.slot i).stage = .ended 0x20 0) ∧ (dead = true → (t.slot i).stage = .ended 0x20 0) ∧
  (∀ j, j ≠ i → t.slot j = u.slot j) ∧
  (v.cVmode = 1 → (t.slot i).stage = .ended 0 0 → u.isLocal p = true → isHost p = false → Writable u v p 8 → t.memNat (aOff p) 8 = stamp % 2 ^ 64)

/-- A message of a collective engine comes: one of another room's, or one of this room's own that is on its way; `u` is the state without it. -/
def ColComes (s u : State) (m : ColMsg) : Prop :=
  (m.house = s.house ∧ m.room = s.room → UnitBody.col m ∈ s.loop ∧ u = { s with loop := s.loop.erase (.col m) }) ∧
  (¬(m.house = s.house ∧ m.room = s.room) → u = s)

/-- The reply `r` to a contribution is on its way (R427). -/
def ColReplied (u t : State) (m : ColMsg) (relay : Bool) (r : Nat) : Prop :=
  OnWay u t m.house m.room (.col ⟨u.house, u.room, m.key, m.step, m.shard, .reply relay r⟩)

/-- A chunk of a contribution is refused for retry. -/
def ColRefused (s t : State) (m : ColMsg) (empty : Bool) : Prop :=
  ¬(m.house = s.house ∧ m.room = s.room) → Out.again m.house m.room (.col m) empty ∈ t.out

/-- This room receives the shard of `m` in the one REDUCE held, which is of the message's step, and expects this contribution. -/
def Awaits (s : State) (m : ColMsg) (relay : Bool) (x : Red) (r : Recv) (p : Contrib) : Prop :=
  s.reds = [x] ∧ x.key = m.key ∧ x.step = m.step ∧ x.recvs = [r] ∧ r.shard = m.shard ∧
  r.parts.find? (fun q => q.house == m.house && q.room == m.room && q.relay == relay) = some p

/-- The contribution has come as far as `cs`, with status `st`. -/
def HasCome (t : State) (m : ColMsg) (relay : Bool) (cs : List Chunk) (st : Nat) : Prop :=
  ∃ y ∈ t.reds, ∃ q ∈ y.recvs, ∃ z ∈ q.parts, z.house = m.house ∧ z.room = m.room ∧ z.relay = relay ∧ z.status = st ∧ z.chunks = cs

end Sys2Proof.Claims

/-- R404, R412–R420, R429, R434: a COLLECTIVE that is ready and whose engine is disabled ends CANCELLED; one of a reserved operation is invalid; else it
reads its descriptors. One that waits for them changes nothing else; one whose reading was refused ends ACCESS_DENIED; one whose checks fail ends with that
status. A GATHER whose stamp is not the newest ends with a skew, counted; one that allocates ends POOL_EMPTY or parks while its pool is empty, and else
takes a buffer; one whose shards all lie in this room, or have come, copies them bit for bit and ends, recording its stamp where it is to; one that awaits
shards waits. RELEASE drops a reference, and one of no buffer ends PARTIAL. A REDUCE starts; where its shard areas are its own and hold no Sump, a
contribution leaves for the receiver of each shard, chunk by chunk. A COLLECTIVE that ends is counted.
Choices of the model it rests on: log entries 10, 68, 78 to 80, 83. -/
def Obligations.CollectivesRun : Prop :=
  (∀ (i : Nat) (s : State), s.opReady i 6 = false → (s.slot i).stage ≠ .started →
    exec (.collectiveGather i) s = .next s ∧ exec (.collectiveRelease i) s = .next s) ∧
  (∀ e ∈ [(0, Instr.collectiveGather), (1, Instr.collectiveReduce), (2, Instr.collectiveRelease)], ∀ (i : Nat) (s : State),
    s.cReady i (· == e.1) = true → s.cOff i = true → ∃ t, exec (e.2 i) s = .next t ∧ Claims.ColEnds s t i 0x13) ∧
  (∀ (i : Nat) (s : State), s.cReady i (fun p => decide (2 < p)) = true → s.cOff i = false →
    ∃ t, exec (.collectiveGather i) s = .next t ∧ Claims.ColEnds s t i 0x14) ∧
  (∀ (i : Nat) (s u : State), s.cReady i (· == 0) = true → s.cOff i = false →
    let l := [(s.slot i).word 4, (s.slot i).word 5]
    let v := u.slot i
    let ra := u.readTensor v false (v.word 4)
    let rb := u.readTensor v true (v.word 5)
    (s.fetchTensors i l = (u, false) → exec (.collectiveGather i) s = .next u) ∧
    (s.fetchTensors i l = (u, true) →
      (v.refused = true → ∃ t, exec (.collectiveGather i) s = .next t ∧ Claims.ColEnds u t i 0x15) ∧
      (∀ st, v.refused = false → u.gatherChecks v ra rb = some st → ∃ t, exec (.collectiveGather i) s = .next t ∧ Claims.ColEnds u t i st) ∧
      (∀ a b, v.refused = false → u.gatherChecks v ra rb = none → ra = .ok a → rb = .ok b →
        let stamp := (a.shards.map Shard.version).foldl max 0
        let skew := v.cVmode = 2 ∧ a.d.version ≠ 0 ∧ a.d.version ≠ stamp
        (skew → ∃ t, exec (.collectiveGather i) s = .next t ∧ Claims.ColEnds u t i 0x12 ∧ t.reg Reg.colSkews = (u.reg Reg.colSkews + 1) % 2 ^ 64) ∧
        (¬skew → v.cPool < 64 → u.alloc v.cPool 1 = none → ∃ t, exec (.collectiveGather i) s = .next t ∧ Claims.ParksOrEnds u t i v.cPool ∧
          t.reg (Reg.panFails v.cPool) = (u.reg (Reg.panFails v.cPool) + 1) % 2 ^ 64) ∧
        (¬skew → v.cPool < 64 → (u.alloc v.cPool 1).isSome = true → Claims.Here u a → u.isLocal (v.word 6) = true →
          (∀ k, Claims.FreeBuf u v.cPool k → Claims.Here u (b.placed (u.localAddr (u.bufOff v.cPool k)))) →
          ∃ (t : State) (k : Nat), exec (.collectiveGather i) s = .next t ∧ Claims.FreeBuf u v.cPool k ∧ t.refOf v.cPool k = 1 ∧
            ((t.slot i).stage = .ended 0 0 ∨ (t.slot i).stage = .ended 0x20 0) ∧ (t.slot i).idx = [u.localAddr (u.bufOff v.cPool k)]) ∧
        (¬skew → 64 ≤ v.cPool → Claims.Here u a → Claims.Here u b → ∃ t, exec (.collectiveGather i) s = .next t ∧
          Claims.GatherEnds u t i a (v.dead || u.elemsDead v a (allIdx b.d.size)) ∧
          ∀ n w, v.cVmode ≠ 1 → Claims.Flat u b n w → 1 ≤ n → Claims.Writable u v b.d.base (n * w) →
            Claims.Stores u t (aOff b.d.base) ((List.range n).flatMap fun j => leBytes w (Claims.item u v a j)))))) ∧
  (∀ (i : Nat) (s : State) (a b : Tensor),
    let v := s.slot i
    v.opcode = 6 → v.cop = 0 → v.stage = .started → v.tensorOf false (v.word 4) = .ok a → v.tensorOf true (v.word 5) = .ok b →
    (s.slotBusy i = true ∨ (v.step = 1 ∧ v.refused = false ∧ s.gatherHas v a = false) → exec (.collectiveGather i) s = .next s) ∧
    (s.slotBusy i = false → v.refused = true → ∃ t, exec (.collectiveGather i) s = .next t ∧ Claims.ColEnds s t i 0x15) ∧
    (s.slotBusy i = false → v.refused = false → v.step = 2 → ∃ t, exec (.collectiveGather i) s = .next t ∧
      (t.slot i).stage = (if v.dead then .ended 0x20 0 else .ended 0 0)) ∧
    (s.slotBusy i = false → v.refused = false → v.step = 1 → s.gatherHas v a = true → 64 ≤ v.cPool → Claims.Here s b →
      ∃ t, exec (.collectiveGather i) s = .next t ∧ Claims.GatherEnds s t i a (v.dead || s.elemsDead v a (allIdx b.d.size)) ∧
        ∀ n w, v.cVmode ≠ 1 → Claims.Flat s b n w → 1 ≤ n → Claims.Writable s v b.d.base (n * w) →
          Claims.Stores s t (aOff b.d.base) ((List.range n).flatMap fun j => leBytes w (Claims.item s v a j)))) ∧
  (∀ (i : Nat) (s u : State), s.cReady i (· == 2) = true → s.cOff i = false →
    let v := u.slot i
    let bad := firstCol [if 64 < (s.slot i).cPool then some stInvalid else none, s.readBad false ((s.slot i).word 6) 16]
    (∀ st, bad = some st → ∃ t, exec (.collectiveRelease i) s = .next t ∧ Claims.ColEnds s t i st) ∧
    (bad = none → s.fetchTabs i [((s.slot i).word 6, 16)] = (u, false) → exec (.collectiveRelease i) s = .next u) ∧
    (bad = none → s.fetchTabs i [((s.slot i).word 6, 16)] = (u, true) →
      (v.tab (v.word 6) 16 = none → ∃ t, exec (.collectiveRelease i) s = .next t ∧ Claims.ColEnds u t i (if v.refused then 0x15 else 0x20)) ∧
      (∀ bs, v.tab (v.word 6) 16 = some bs →
        let h := field bs 0 4
        let p := poolOf h
        let b := bufOf h
        (u.poolOn p = true → u.refOf p b ≠ 0 → ∃ t, exec (.collectiveRelease i) s = .next t ∧ (t.slot i).stage = .ended 0 0 ∧
          t.refOf p b = u.refOf p b - 1 ∧
          t.poolFree p = u.poolFree p + (if u.refOf p b = 1 then 1 else 0)) ∧
        (u.poolOn p = false ∨ u.refOf p b = 0 → ∃ t, exec (.collectiveRelease i) s = .next t ∧ Claims.ColEnds u t i 2 ∧ t.refs = u.refs ∧
          t.reg (Reg.panBadRefs p) = (u.reg (Reg.panBadRefs p) + 1) % 2 ^ 64)))) ∧
  (∀ (i : Nat) (s u : State), s.cReady i (· == 1) = true → s.cOff i = false →
    let v := u.slot i
    (s.fetchReduce i = (u, false) → exec (.collectiveReduce i) s = .next u) ∧
    (s.fetchReduce i = (u, true) →
      (∀ st, u.rparmDenied v = some st → ∃ t, exec (.collectiveReduce i) s = .next t ∧ Claims.ColEnds u t i st) ∧
      (u.rparmDenied v = none → v.rparm = none → ∃ t, exec (.collectiveReduce i) s = .next t ∧
        Claims.ColEnds u t i (if v.refused then 0x15 else 0x20)) ∧
      (∀ ws, u.rparmDenied v = none → v.rparm = some ws →
        let ra := u.readTensor v false (v.word 4)
        let rb := u.readTensor v true (v.word 5)
        let rm := u.readRooms v (ws.headD 0) (bits (ws.getD 4 0) 12 0)
        let pair := bit (ws.getD 4 0) 13
        let mask := bit (ws.getD 4 0) 14
        (v.refused = true → ∃ t, exec (.collectiveReduce i) s = .next t ∧ Claims.ColEnds u t i 0x15) ∧
        (∀ st, v.refused = false → u.reduceChecks i v ws ra rb rm = some st →
          ∃ t, exec (.collectiveReduce i) s = .next t ∧ Claims.ColEnds u t i st) ∧
        (∀ a b members, v.refused = false → u.reduceChecks i v ws ra rb rm = none → ra = .ok a → rb = .ok b → rm = .ok members →
          (∀ y ∈ u.reds, y.slot ≠ i ∧ y.key ≠ v.cKey) →
          let x := v.newRed i ws members b
          let to_ := fun (k : Nat) => receiverOf members (x.shardAt k) k u.house
          (∃ t y, exec (.collectiveReduce i) s = .next t ∧ t.redOf i = some y ∧ y.key = v.cKey ∧ y.step = v.word 3) ∧
          ((∃ k < b.shards.length, to_ k = (u.house, u.room)) →
            (∀ k < b.shards.length, to_ k = (u.house, u.room) → u.memNat (x.areaOf k) 2 = v.cKey ∧ u.memNat (x.areaOf k + 2) 2 = 1) →
            ∃ t, exec (.collectiveReduce i) s = .next t ∧ Claims.Executes t i ∧
              ∀ k < b.shards.length,
                let cs := u.srcChunks a pair mask b (x.shardAt k)
                let body := fun (c : Option Chunk) => UnitBody.col ⟨u.house, u.room, v.cKey, v.word 3, k, .chunk false cs.length [] c⟩
                (cs = [] → Claims.OnWay u t (to_ k).1 (to_ k).2 (body none)) ∧
                ∀ c ∈ cs, Claims.OnWay u t (to_ k).1 (to_ k).2 (body (some c))))))) ∧
  (∀ (i : Nat) (s : State), s.cReady i (· == 1) = false → (∀ x, s.redOf i = some x → s.redLive x = false) →
    exec (.collectiveReduce i) s = .next s)

/-- R423–R428, R430, R432, R434: a chunk of a contribution awaited is staged, and the contribution answered ON_TIME once it is whole; one that finds no
buffer, or no REDUCE of its step or a later one, is refused for retry, changing no REDUCE; one of a step that is over is discarded, counted and answered so,
as is one that comes after its class has closed, unless the policy carries it: then it is added to the Sump of its step. A reply ends a REDUCE that waits
for nothing else. A deadline closes its class, or, where the policy waits, probes it; a probe that times out makes its member dead; a chunk refused is
sent again.
Choices of the model it rests on: log entries 10, 68, 69, 80 to 82. -/
def Obligations.ContributionsMeetDeadlines : Prop :=
  (∀ c ∈ [Instr.contribution, .contributionReply], ∀ (m : ColMsg) (s : State), m.house = s.house → m.room = s.room → UnitBody.col m ∉ s.loop →
    exec (c m) s = .next s) ∧
  (∀ (m : ColMsg) (relay : Bool) (total : Nat) (absent : List (Nat × Nat)) (c : Option Chunk) (s u : State), Claims.ColComes s u m →
    m.body = .chunk relay total absent c →
    let mine := u.reds.filter fun x => x.key == m.key && x.recvs.any fun r => r.shard == m.shard
    (mine = [] → ∃ t, exec (.contribution m) s = .next t ∧ t = { u with out := t.out } ∧ Claims.ColRefused s t m false) ∧
    (∀ x, mine.getLast? = some x → x.step < m.step →
      ∃ t, exec (.contribution m) s = .next t ∧ t = { u with out := t.out } ∧ Claims.ColRefused s t m false) ∧
    (∀ x, mine.getLast? = some x → m.step < x.step → c = none ∨ total ≤ 1 →
      ∃ t, exec (.contribution m) s = .next t ∧ Claims.ColReplied u t m relay 2 ∧ t.reg Reg.colLateDropped = (u.reg Reg.colLateDropped + 1) % 2 ^ 64) ∧
    (∀ x r p, Claims.Awaits u m relay x r p →
      (p.status = 1 → exec (.contribution m) s = .next u) ∧
      (p.status = 0 → r.excess = false → u.redLive x = true →
        let cs := p.chunks ++ c.toList
        let ready := u.poolOn x.pool = true ∧ u.unitOff (80 + x.pool % 4) = false ∧ 1 ≤ u.poolFree x.pool
        (c = none ∨ ready → total ≤ cs.length ∨ (m.house, m.room) ∉ x.probed → ∃ t, exec (.contribution m) s = .next t ∧ Claims.HasCome t m relay cs (if total ≤ cs.length then 1 else 0) ∧
          (total ≤ cs.length → Claims.ColReplied u t m relay 0)) ∧
        (c ≠ none → ¬ready → ∃ t, exec (.contribution m) s = .next t ∧ t.reds = u.reds ∧ t.mem = s.mem ∧ Claims.ColRefused s t m true ∧
          t.reg Reg.colStageRetries = (u.reg Reg.colStageRetries + 1) % 2 ^ 64)) ∧
      (p.status = 2 ∨ p.status = 3 → u.lateParts = [] → total ≤ 1 →
        (x.policy ≠ 1 ∨ p.status = 3 → ∃ t, exec (.contribution m) s = .next t ∧ (∀ y ∈ t.reds, y.recvs = x.recvs) ∧ Claims.ColReplied u t m relay 2 ∧
          t.reg Reg.colLateDropped = (u.reg Reg.colLateDropped + 1) % 2 ^ 64) ∧
        (∀ e code, x.policy = 1 → p.status = 2 → c = some ⟨0, .full [(e, code)]⟩ → e < x.elems m.shard → e < 4096 → code < 2 ^ 32 →
          let h := x.areaOf m.shard
          h % 64 = 0 → x.maskCols ≠ 0 → (bit (u.memNat (h + 2) 2) 1 = true → u.memNat (h + 0x10) 8 = x.step) → x.step < 2 ^ 64 → Claims.OneToOne u → Claims.OnStacks u →
          Claims.Sound u h (areaSize (x.elems m.shard) x.members.length x.maskCols x.comp) →
          ∃ t, exec (.contribution m) s = .next t ∧ Claims.ColReplied u t m relay 1 ∧
            t.reg Reg.colLateCarried = (u.reg Reg.colLateCarried + 1) % 2 ^ 64 ∧ t.memNat (h + 0x10) 8 = x.step ∧ bit (t.memNat (h + 2) 2) 1 = true ∧
            t.memNat (x.sumpAt m.shard e) 4 = fl ((v32 (u.memNat (x.sumpAt m.shard e) 4)).add (v32 code)))))) ∧
  (∀ (m : ColMsg) (relay : Bool) (r : Nat) (s u : State), Claims.ColComes s u m → m.body = .reply relay r →
    (u.reds.find? (fun x => x.key == m.key && x.step == m.step) = none → exec (.contributionReply m) s = .next u) ∧
    (∀ x, u.reds.find? (fun x => x.key == m.key && x.step == m.step) = some x →
      (∀ z ∈ x.sends, ¬(z.shard = m.shard ∧ z.relay = relay ∧ z.house = m.house ∧ z.room = m.room ∧ z.reply = none)) →
      exec (.contributionReply m) s = .next u) ∧
    (∀ x z, u.reds = [x] → x.key = m.key → x.step = m.step → x.recvs = [] → x.sends = [z] → z.shard = m.shard → z.relay = relay → z.house = m.house →
      z.room = m.room → z.reply = none → x.refused = false → (u.slot x.slot).dead = false → u.redLive x = true → relay = false →
      ∃ t, exec (.contributionReply m) s = .next t ∧ (t.slot x.slot).stage = (if r = 0 then .ended 0 0 else .ended 2 1))) ∧
  (∀ (i : Nat) (s : State),
    (s.redOf i = none → exec (.deadlineClose i) s = .next s ∧ exec (.doorDeadlineClose i) s = .next s ∧
      ∀ house room, exec (.probeTimeout i house room) s = .next s) ∧
    ∀ x, s.redOf i = some x →
      (s.redLive x = false ∨ x.direct = true → exec (.deadlineClose i) s = .next s) ∧
      (s.redLive x = false ∨ x.doors = true → exec (.doorDeadlineClose i) s = .next s) ∧
      (s.redLive x = true →
        (x.direct = false → ∃ t y, exec (.deadlineClose i) s = .next t ∧ t.redOf i = some y ∧ y.direct = true ∧
          (x.policy ≠ 0 → ∀ r ∈ y.recvs, ∀ p ∈ r.parts, p.relay = false → p.status ≠ 0) ∧
          (x.policy = 0 → ∀ r ∈ x.recvs, ∀ p ∈ r.parts, p.relay = false → p.status = 0 → (p.house, p.room) ∈ y.probed ∧
            ((p.house, p.room) ∉ x.probed → Claims.OnWay s t p.house p.room (.col ⟨s.house, s.room, x.key, x.step, 0, .probe⟩)))) ∧
        (x.doors = false → ∃ t y, exec (.doorDeadlineClose i) s = .next t ∧ t.redOf i = some y ∧ y.doors = true ∧
          (x.policy ≠ 0 → ∀ r ∈ y.recvs, ∀ p ∈ r.parts, p.relay = true → p.status ≠ 0) ∧
          (x.policy = 0 → ∀ r ∈ x.recvs, ∀ p ∈ r.parts, p.relay = true → p.status = 0 → (p.house, p.room) ∈ y.probed ∧
            ((p.house, p.room) ∉ x.probed → Claims.OnWay s t p.house p.room (.col ⟨s.house, s.room, x.key, x.step, 0, .probe⟩))))) ∧
      ∀ house room,
        ((house, room) ∉ x.probed ∨ (house, room) ∈ x.dead → exec (.probeTimeout i house room) s = .next s) ∧
        ((house, room) ∈ x.probed → (house, room) ∉ x.dead → ∃ t y, exec (.probeTimeout i house room) s = .next t ∧
          t.redOf i = some y ∧ (house, room) ∈ y.dead ∧
          (s.redLive x = true → x.policy = 0 → ∀ r ∈ y.recvs, ∀ p ∈ r.parts, p.house = house → p.room = room → p.status ≠ 0))) ∧
  (∀ (n : Nat) (s : State),
    (s.kept.find? (fun k => k.num == n) = none → exec (.stageRetry n) s = .next s) ∧
    (∀ k, s.kept.find? (fun k => k.num == n) = some k →
      ((∀ b, k.body ≠ .col b) ∨ (s.slot k.slot).stage ≠ .started ∨ k.body ∈ s.loop → exec (.stageRetry n) s = .next s) ∧
      (∀ b, k.body = .col b → (s.slot k.slot).stage = .started → k.body ∉ s.loop →
        ∃ t, exec (.stageRetry n) s = .next t ∧ Claims.OnWay s t k.house k.room k.body ∧ t.mem = s.mem)))

/-! ## The fabric -/

namespace Sys2Proof.Claims

/-- A cell of type `ty` for this room that comes whole on a port in service, and that R361 and R362 list. -/
def CellComes (s : State) (p : Nat) (c : Cell) (ty : Nat) : Prop :=
  s.portTakes p = true ∧ s.forHere c = true ∧ cellIntact c = true ∧ badCell c = false ∧ c.ty = ty

/-- A memory request this room serves: not in a low-power state, not applied before, admitted by the region and the windows, and not cut off by R17. -/
def Serves (s : State) (p : Nat) (c : Cell) (ty : Nat) : Prop :=
  CellComes s p c ty ∧ s.dormant = false ∧ s.wasApplied c = none ∧ s.refuses c = false ∧ s.requestCut p c = false

/-- A response to a request has left, or waits for an output. -/
def Responds (s t : State) (c : Cell) (ty status : Nat) (payload : List Byte) : Prop :=
  ∃ d : Cell, d.dstHouse = c.srcHouse ∧ d.dstRoom = c.srcRoom ∧ d.ty = ty ∧ d.aux = status ∧ d.payload = payload ∧ d.tag = c.tag ∧ d.pass = c.pass ∧
    (d ∈ t.waiting.drop s.waiting.length ∨ ∃ q, Out.cell q d ∈ t.out.drop s.out.length)

/-- The status a read gives. -/
def readStatus (s : State) (o n : Nat) : Nat := if s.rangeBad o n then 0x20 else 0

/-- The new value of an AMO (R347): integer operations, and floating-point sums and maxima rounded once. -/
def amoResult (sub old data cmp : Nat) : Nat :=
  let f32 := fun x y => EType.fp32.rne ((EType.fp32.val x).add (EType.fp32.val y))
  let bf := fun x y => EType.bf16.rne ((EType.bf16.val x).add (EType.bf16.val y))
  let part := fun x w i => x / 2 ^ (w * i) % 2 ^ w
  if sub < 0xC then (amoInt sub (BitVec.ofNat 64 old) (BitVec.ofNat 64 data) (BitVec.ofNat 64 cmp)).toNat
  else if sub = 0xC then f32 old (part data 32 0)
  else if sub = 0xD then f32 (part old 32 0) (part data 32 0) + f32 (part old 32 1) (part data 32 1) * 2 ^ 32
  else if sub = 0xE then EType.fp32.rne ((EType.fp32.val old).maxnum false (EType.fp32.val (part data 32 0)))
  else bf (part old 16 0) (part data 16 0) + bf (part old 16 1) (part data 16 1) * 2 ^ 16 + bf (part old 16 2) (part data 16 2) * 2 ^ 32 +
    bf (part old 16 3) (part data 16 3) * 2 ^ 48

/-- The new value of an element under an element atomic (R348): ADD, SCALED_ADD, MAX, MIN, UADD_SAT. -/
def elemResult (t ct : EType) (op old c w : Nat) : Nat :=
  let n := t.width
  let i := fun (x : Nat) => (BitVec.ofNat n x).toInt
  match op with
  | 0 => if t.isInt then (old + (BitVec.ofInt n (i c)).toNat) % 2 ^ n else t.rne ((t.val old).add (ct.val c))
  | 1 => t.rne ((t.val old).add ((EType.fp32.val w).mul (ct.val c)))
  | 2 => if t.isInt then (if i old < i c then c else old) else t.rne ((t.val old).maxnum false (t.val c))
  | 3 => if t.isInt then (if i c < i old then c else old) else t.rne ((t.val old).maxnum true (t.val c))
  | _ => if old + c ≤ 0xFFFFFFFF then old + c else 0xFFFFFFFF

/-- An element atomic whose contributions are `xs` has been applied: each element is the result, every other byte is as it was. -/
def ElemsApplied (s t : State) (c : Cell) (xs : List Nat) : Prop :=
  let o := aOff c.addr
  let n := (eaType c).width / 8
  (∀ j x, xs[j]? = some x → t.memNat (o + n * j) n = elemResult (eaType c) (eaFrom c) (eaOp c) (s.memNat (o + n * j) n) x c.weight % 2 ^ (8 * n)) ∧
  ∀ a, ¬(o ≤ a ∧ a < o + n * xs.length) → t.memByte a = s.memByte a

/-- The operand of an AMO. -/
def amoArg (c : Cell) : Nat := leNat (c.payload.take 8)

/-- The memory requests, each alone: type and command. -/
def memRequests (p : Fin 40) (c : Cell) : List (Nat × Instr) := [(0, .load p c []), (1, .store p c), (2, .amo p c []), (3, .eatomic p c [])]

/-- A message or request for another house that this room's door takes, within the hop limit (R364, R371). -/
def AtDoor (s : State) (p : Nat) (c : Cell) (ty : Nat) : Prop :=
  c.ty = ty ∧ c.dstHouse ≠ s.house ∧ s.portTakes p = true ∧ s.way (s.tableFor c).1 c.dstHouse c.dstRoom = .door ∧ c.hops < 63

/-- Nothing waits for an output. -/
def NoneWait (s : State) : Prop := s.waiting = [] ∧ s.reinj = [] ∧ s.reqs = []

/-- A pool message's answer has left for the room that asked (R327). -/
def PoolAnswers (t : State) (c : Cell) (m : Sys2Proof.PoolMsg) : Prop := Out.pool c.srcHouse c.srcRoom { m with op := 3 } ∈ t.out

end Sys2Proof.Claims

/-- R348, R361–R363, R375, R379, R380, R389, R392, R395, R398, R403, R405, R493: memory requests. A LOAD is answered with the bytes at its address and
leaves memory as it was; a STORE's bytes stand at its address; an AMO gives the old value and puts the new one there; an EATOMIC puts each element's
result there; no other byte changes. Two LOADs that combine are both answered, and counted; two atomics that combine are applied as one, the second AMO
getting the old value with the first applied. A request not admitted is refused, counted, and changes no memory; one applied before is answered again,
counted, and not applied; one that R17 cuts off, or that comes in a low-power state, is answered TARGET_DEAD. A request at the door for another house is
packed into a message, a LOAD or AMO refused. A cell whose checksum is wrong is counted and dropped, as is one that is not listed; one on a port that is
not in service does nothing. R327, R362, R505: a message is acknowledged, refused where its Sluices are all disabled; a pool operation of another room is
carried out and answered. R490: a management message wakes the part.
Choices of the model it rests on: log entries 10, 84 to 87, 92, 120, 122. -/
def Obligations.FabricServesRequests : Prop :=
  (∀ (p : Fin 40) (c : Cell) (s : State), Claims.Serves s p c 0 →
    ∃ t, exec (.load p c []) s = .next t ∧ t.mem = s.mem ∧
      Claims.Responds s t c 8 (Claims.readStatus s (aOff c.addr) (c.len + 1)) (s.memBytes (aOff c.addr) (c.len + 1))) ∧
  (∀ (p : Fin 40) (c : Cell) (s : State), Claims.Serves s p c 1 → Claims.OneToOne s → Claims.OnStacks s → Claims.Sound s (aOff c.addr) (c.len + 1) →
    ∃ t, exec (.store p c) s = .next t ∧ Claims.Stores s t (aOff c.addr) ((List.range (c.len + 1)).map fun i => c.payload.getD i 0) ∧
      Claims.Responds s t c 9 0 [] ∧ (c.srcHouse = s.house → t.wasApplied c = some 0)) ∧
  (∀ (p : Fin 40) (c : Cell) (s : State), Claims.Serves s p c 2 → Claims.OneToOne s → Claims.OnStacks s →
    let sub := bits c.aux 3 0
    let n := amoWidth sub
    let old := s.memNat (aOff c.addr) n
    Claims.Sound s (aOff c.addr) n →
    ∃ t, exec (.amo p c []) s = .next t ∧
      Claims.Stores s t (aOff c.addr) (leBytes n (Claims.amoResult sub old (Claims.amoArg c) (leNat ((c.payload.drop 8).take 8)))) ∧
      Claims.Responds s t c 9 0 (leBytes 8 old) ∧ (c.srcHouse = s.house → t.wasApplied c = some old)) ∧
  (∀ (p : Fin 40) (c : Cell) (s : State), Claims.Serves s p c 3 → Claims.OneToOne s → Claims.OnStacks s → (eaWide c = true → eaOp c ≤ 1) →
    Claims.Sound s (aOff c.addr) ((eaType c).width / 8 * (eaParts c).length) →
    ∃ t, exec (.eatomic p c []) s = .next t ∧ Claims.Responds s t c 9 0 [] ∧ Claims.ElemsApplied s t c (eaParts c) ∧
      (c.srcHouse = s.house → t.wasApplied c = some 0)) ∧
  (∀ (p q : Fin 40) (c d : Cell) (full : Bool) (s : State), s.dormant = false →
    (Claims.Serves s p c 0 → Claims.Serves s q d 0 → s.flag Reg.fabCtl 0 = true → s.combRoom (portDie p) = true → combines c d = true →
      ∃ t, exec (.load p c [⟨q, d, full⟩]) s = .next t ∧ t.mem = s.mem ∧ t.reg Reg.fabReadsCombined = (s.reg Reg.fabReadsCombined + 1) % 2 ^ 64 ∧
        ∀ x ∈ [c, d], Claims.Responds s t x 8 (Claims.readStatus s (aOff c.addr) (c.len + 1)) (s.memBytes (aOff c.addr) (c.len + 1))) ∧
    (Claims.Serves s p c 2 → Claims.Serves s q d 2 → s.flag Reg.fabCtl 0 = true → amoCombines c d = true → Claims.OneToOne s → Claims.OnStacks s →
      let sub := bits c.aux 3 0
      let n := amoWidth sub
      let old := s.memNat (aOff c.addr) n
      let mid := Claims.amoResult sub old (Claims.amoArg c) 0
      Claims.Sound s (aOff c.addr) n →
      ∃ t, exec (.amo p c [⟨q, d, full⟩]) s = .next t ∧ Claims.Stores s t (aOff c.addr) (leBytes n (Claims.amoResult sub mid (Claims.amoArg d) 0)) ∧
        Claims.Responds s t c 9 0 (leBytes 8 old) ∧ Claims.Responds s t d 9 0 (leBytes 8 mid) ∧
        t.reg Reg.fabAtomicsCombined = (s.reg Reg.fabAtomicsCombined + 1) % 2 ^ 64) ∧
    (∀ x y, Claims.Serves s p c 3 → Claims.Serves s q d 3 → s.flag Reg.fabCtl 0 = true → s.eaCombines c d = true → Claims.OneToOne s →
      Claims.OnStacks s → eaParts c = [x] → eaParts d = [y] → eaWide c = false → eaWide d = false → eaOp c = 0 →
      let o := aOff c.addr
      let n := (eaType c).width / 8
      Claims.Sound s o n →
      let both := if (eaType c).isInt then (s.memNat o n + x + y) % 2 ^ (8 * n)
        else EType.fp32.rne ((EType.fp32.val (s.memNat o n)).add (EType.fp32.val (EType.fp32.rne ((EType.fp32.val x).add (EType.fp32.val y)))))
      ∃ t, exec (.eatomic p c [⟨q, d, full⟩]) s = .next t ∧ Claims.Stores s t o (leBytes n both) ∧ Claims.Responds s t c 9 0 [] ∧
        Claims.Responds s t d 9 0 [] ∧ t.reg Reg.fabAtomicsCombined = (s.reg Reg.fabAtomicsCombined + 1) % 2 ^ 64)) ∧
  (∀ (p : Fin 40) (c : Cell) (s : State), ∀ r ∈ Claims.memRequests p c,
    (c.dstHouse = s.house → s.portTakes p = false ∨ c.dstRoom ≠ s.room → exec r.2 s = .next s) ∧
    (Claims.CellComes s p c r.1 →
      (s.dormant = true → ∃ t, exec r.2 s = .next t ∧ t.mem = s.mem ∧ Claims.Responds s t c 0xA 0x20 []) ∧
      (s.dormant = false → s.wasApplied c = none → s.refuses c = true → ∃ t, exec r.2 s = .next t ∧ t.mem = s.mem ∧
        Claims.Responds s t c 0xA 0x15 [] ∧ t.reg Reg.fabInboundRefused = (s.reg Reg.fabInboundRefused + 1) % 2 ^ 64) ∧
      (s.dormant = false → s.wasApplied c = none → s.refuses c = false → s.requestCut p c = true → ∃ t, exec r.2 s = .next t ∧ t.mem = s.mem ∧
        Claims.Responds s t c 0xA 0x20 [] ∧ t.reg Reg.fabTimeouts = (s.reg Reg.fabTimeouts + 1) % 2 ^ 64) ∧
      ∀ old, s.dormant = false → s.wasApplied c = some old → ∃ t, exec r.2 s = .next t ∧ t.mem = s.mem ∧
        Claims.Responds s t c 9 0 (if r.1 = 2 then leBytes 8 old else []) ∧
        t.reg Reg.fabDupRequests = (s.reg Reg.fabDupRequests + 1) % 2 ^ 64) ∧
    (Claims.AtDoor s p c r.1 → Claims.NoneWait s →
      (r.1 = 0 ∨ r.1 = 2 → ∃ t, exec r.2 s = .next t ∧ t.mem = s.mem ∧ Claims.Responds s t c 0xA 0x16 [] ∧
        t.reg Reg.doorLoadsRefused = (s.reg Reg.doorLoadsRefused + 1) % 2 ^ 64) ∧
      (r.1 = 1 ∨ r.1 = 3 → s.doorOff c = true → ∃ t, exec r.2 s = .next t ∧ t.mem = s.mem ∧ Claims.Responds s t c 0xA 0x13 []) ∧
      (r.1 = 1 ∨ r.1 = 3 → s.doorOff c = false → (∀ m ∈ s.doorMsgs, (m.closed = false → m.srcHouse = s.house) ∧ ∀ d ∈ m.cells, d.tag ≠ c.tag) →
        ∃ t, exec r.2 s = .next t ∧ t.mem = s.mem ∧ ∃ m ∈ t.doorMsgs, c ∈ m.cells ∧ m.house = c.dstHouse ∧ m.room = c.dstRoom ∧ m.kind = 0))) ∧
  (∀ (p : Fin 40) (c : Cell) (s : State), s.portTakes p = true → s.forHere c = true →
    ∀ r ∈ [Instr.load p c [], .store p c, .amo p c [], .eatomic p c [], .msg p c none, .mgmt p c, .data p c, .ack p c, .refused p c],
    (cellIntact c = false → ∃ t, exec r s = .next t ∧ t = { s with regs := t.regs } ∧ Claims.OnlyRegs s t [Reg.fabE2eErrors] ∧
      t.reg Reg.fabE2eErrors = (s.reg Reg.fabE2eErrors + 1) % 2 ^ 64) ∧
    (cellIntact c = true → badCell c = true → ∃ t, exec r s = .next t ∧ t = { s with regs := t.regs } ∧ Claims.OnlyRegs s t [Reg.fabBadCells] ∧
      t.reg Reg.fabBadCells = (s.reg Reg.fabBadCells + 1) % 2 ^ 64)) ∧
  (∀ (p : Fin 40) (c : Cell) (s : State), Claims.CellComes s p c 4 →
    let off := 1 ≤ c.dstUnit ∧ c.dstUnit ≤ 4 ∧ ∀ q < 4, s.unitOff (68 + q) = true
    (off → ∃ t, exec (.msg p c none) s = .next t ∧ Claims.Responds s t c 0xA 0x20 [] ∧ t.mem = s.mem) ∧
    (∀ old, ¬off → s.wasApplied c = some old → ∃ t, exec (.msg p c none) s = .next t ∧ Claims.Responds s t c 9 0 [] ∧ t.mem = s.mem ∧
      t.reg Reg.fabDupRequests = (s.reg Reg.fabDupRequests + 1) % 2 ^ 64) ∧
    (¬off → s.wasApplied c = none →
      (∃ t, exec (.msg p c none) s = .next t ∧ Claims.Responds s t c 9 0 [] ∧ t.mem = s.mem ∧ (c.srcHouse = s.house → t.wasApplied c = some 0)) ∧
      ∀ m, 13 ≤ c.dstUnit → c.dstUnit ≤ 16 →
        (∀ h, m.handles = [h] → s.poolOn (poolOf h) = true →
          let n := s.refOf (poolOf h) (bufOf h)
          (m.op = 1 → n ≠ 0 → n ≠ 65535 → ∃ t, exec (.msg p c (some m)) s = .next t ∧ t.refOf (poolOf h) (bufOf h) = n + 1 ∧ Claims.Responds s t c 9 0 [] ∧
            Claims.PoolAnswers t c { m with handles := [], addrs := [], applied := true }) ∧
          (m.op = 2 → n ≠ 0 → ∃ t, exec (.msg p c (some m)) s = .next t ∧ t.refOf (poolOf h) (bufOf h) = n - 1 ∧ Claims.Responds s t c 9 0 [] ∧
            Claims.PoolAnswers t c { m with handles := [], addrs := [], applied := true })) ∧
        (m.op = 0 → s.poolOn m.pool = true → s.unitOff (80 + m.pool % 4) = false → m.n ≤ s.poolFree m.pool →
          ∃ (t : State) (l : List Nat), exec (.msg p c (some m)) s = .next t ∧ l.length = m.n ∧ (∀ b ∈ l, Claims.FreeBuf s m.pool b ∧ t.refOf m.pool b = 1) ∧
            Claims.PoolAnswers t c { m with
              handles := l.map (handleOf m.pool), addrs := l.map fun b => s.localAddr (s.bufOff m.pool b), applied := true }) ∧
        (m.op = 0 → s.poolOn m.pool = false ∨ s.unitOff (80 + m.pool % 4) = true ∨ s.poolFree m.pool < m.n →
          ∃ t, exec (.msg p c (some m)) s = .next t ∧ Claims.PoolAnswers t c { m with handles := [], addrs := [], applied := false } ∧
            t.reg (Reg.panFails m.pool) = (s.reg (Reg.panFails m.pool) + 1) % 2 ^ 64) ∧
        (m.op = 3 →
          let v := s.slot m.id
          v.opcode = 11 → v.stage = .ready → v.step = 1 → v.poolNo = m.pool → aHouse (v.word 3) = c.srcHouse → aRoom (v.word 3) = c.srcRoom →
          ∃ t, exec (.msg p c (some m)) s = .next t ∧ (t.slot m.id).grant = true ∧ (t.slot m.id).idx = m.handles ∧ (t.slot m.id).addrs = m.addrs ∧
            Claims.Responds s t c 9 0 []))) ∧
  (∀ (p : Fin 40) (c : Cell) (s : State), Claims.CellComes s p c 0xF →
    (s.entry.isSome = true → exec (.mgmt p c) s = .next { s with abortDue := true }) ∧
    (s.entry = none →
      (s.fieldOf Reg.powerStatus 2 0 = 1 → ∃ t, exec (.mgmt p c) s = .next t ∧ t.fieldOf Reg.powerStatus 2 0 = 0) ∧
      (s.fieldOf Reg.powerStatus 2 0 = 2 → ∃ t, exec (.mgmt p c) s = .next t ∧ t.fieldOf Reg.powerStatus 2 0 = 6) ∧
      (s.fieldOf Reg.powerStatus 2 0 ∉ [1, 2] → exec (.mgmt p c) s = .next s)))

/-! ## The transaction tracker and the crossbar -/

namespace Sys2Proof.Claims

/-- Every request of the tracker has its tag, and none of a round's counts waits for a room. -/
def NoneHeld (s : State) : Prop := (∀ q ∈ s.reqs, q.held = false) ∧ s.services = []

/-- Request `r`, the one of its tag, stands at index `i` of the tracker, and is combined with no other. -/
def Stands (s : State) (i : Nat) (r : Req) : Prop :=
  s.reqs[i]? = some r ∧ r.held = false ∧ (∀ j q, s.reqs[j]? = some q → q.cell.tag = r.cell.tag → j = i) ∧ ∀ b ∈ s.combs, b.tag ≠ r.cell.tag

/-- Response `c` of type `ty` comes, and answers it. -/
def Answers (s : State) (p : Nat) (c : Cell) (ty i : Nat) (r : Req) : Prop :=
  CellComes s p c ty ∧ NoneHeld s ∧ Stands s i r ∧ r.cell.tag = c.tag ∧ r.cell.pass = c.pass

/-- It is the one request of an access of core `k`, in a program that goes on. -/
def Asks (s : State) (k id : Nat) (a : Access) (r : Req) : Prop :=
  r.who = .core k id ∧ (s.core k).outs.find? (fun b => b.id == id) = some a ∧ a.left = 1 ∧ a.got = [] ∧ a.bad = false ∧ a.refused = false ∧
  a.addr = mkAddr r.cell.dstHouse 0 r.cell.addr ∧ (a.kind = .sld → r.cell.ty = 0 ∧ a.size ∈ [1, 2, 4, 8]) ∧
  (a.kind = .amo → r.cell.ty = 2 ∧ a.sub < 16) ∧ (a.kind = .sst → r.cell.ty = 1) ∧ ∃ l, (s.core k).run = some l ∧ l.stopping = false

/-- An access of a core is over, and its request with it: of the core, the registers the list allows, and nothing else but its count of
instructions. -/
def AccessEnds (s t : State) (k i : Nat) (a : Access) (pends : List Nat) : Prop :=
  t = { s with cores := t.cores, regs := t.regs, runs := t.runs, reqs := s.reqs.eraseIdx i, faults := t.faults, heldFaults := t.heldFaults, out := t.out } ∧
  t.core k = { s.core k with regs := (t.core k).regs, pend := pends, outs := (s.core k).outs.filter (fun b => b.id ≠ a.id) } ∧
  (∀ j, j ≠ k → t.core j = s.core j) ∧ t.reg (Reg.coreInstrDone k) = (s.reg (Reg.coreInstrDone k) + 1) % 2 ^ 64

/-- The value an SLD of `n` bytes brings (R138): zero-extended, or sign-extended when `sub`[2] is set. -/
def loaded (sub n v : Nat) : Nat := if bit sub 2 then ((BitVec.ofNat (8 * n) v).signExtend 64).toNat else v

/-- The bytes of a DATA cell, each with its address, as they come to a descriptor. -/
def comeBytes (r : Req) (c : Cell) : Cells := c.payload.zipIdx.map fun e => (mkAddr r.cell.dstHouse 0 r.cell.addr + e.2, e.1)

/-- Between slots a room holds nothing back: no cell and no request waits for an output, and no output register is full. -/
def Clear (s : State) : Prop :=
  s.waiting = [] ∧ s.reinj = [] ∧ s.slowOut = [] ∧ ∀ r ∈ s.reqs, r.held = true ∨ r.sent = true ∨ r.door = true

/-- A cell for elsewhere arrives on a house port, alone, within the hop limit. -/
def Arrives (s : State) (p : Nat) (c : Cell) : Prop := p < 31 ∧ s.portTakes p = true ∧ s.forHere c = false ∧ c.hops < 63 ∧ Clear s

/-- No combining of reads touches the cell (R379). -/
def Plain (s : State) (c : Cell) : Prop :=
  c.ty ≠ 0 ∨ c.retry = true ∨ cellIntact c = false ∨ c.dstHouse ≠ s.house ∨ s.flag Reg.fabCtl 0 = false

/-- The cell spilled once more (R368). -/
def spilled (c : Cell) : Cell := { c with spills := min (c.spills + 1) 15, old := c.old || decide (8 ≤ min (c.spills + 1) 15) }

/-- The cell with one more link crossed. -/
def crossed (c : Cell) : Cell := { c with hops := c.hops + 1 }

/-- The port a spilling cell takes that arrived on port `p` (R368, R369): the first, from one above the last its die spilled to, that is not
port `p`, is open, and is not among those taken. -/
def spillsTo (s : State) (idle used : List Nat) (p : Nat) : Option Nat :=
  s.spillPort (portDie p) fun q => q != p && s.portOpen (portDie p) idle used q

/-- Nothing but the outputs and these counters changes. -/
def Moved (s t : State) (os : List Nat) : Prop :=
  t = { s with out := t.out, replay := t.replay, regs := t.regs, lastSpill := t.lastSpill, slowOut := t.slowOut } ∧ OnlyRegs s t os

/-- The counters of a crossbar. -/
def crossbarCounts : List Nat := [Reg.fabSpills, Reg.fabOldMarked, Reg.fabStaleEpoch, Reg.fabRouteMiss, Reg.fabEjectRefused, Reg.fabDrops]

/-- The order of R367 between two cells of this fabric: OLD, then hops, then spills, then the source and tag. -/
def Before (c d : Cell) : Prop :=
  c.srcRoom < 32 ∧ d.srcRoom < 32 ∧ c.tag < 131072 ∧ d.tag < 131072 ∧
  ((c.old = true ∧ d.old = false) ∨ (c.old = d.old ∧ (d.hops < c.hops ∨ (c.hops = d.hops ∧ (d.spills < c.spills ∨ (c.spills = d.spills ∧
    (c.srcHouse < d.srcHouse ∨ (c.srcHouse = d.srcHouse ∧ (c.srcRoom < d.srcRoom ∨ (c.srcRoom = d.srcRoom ∧ c.tag < d.tag))))))))))

end Sys2Proof.Claims

/-- R376, R392, R396: a response ends the request it answers. DATA brings a descriptor its bytes and a core's SLD its value, an ACK an AMO's old
value, and ends a store; the error value marks the descriptor, or the core's LAUNCH; REFUSED is ACCESS_DENIED for a descriptor and a program fault,
cause 0x05, for a core. A response that answers none is counted and dropped. R373: a request without a response is sent again, marked, and counted, and
waits on where it has no output. R399–R401, R542: a target that stays silent is dead: every request to its room ends so, with all ones for a core's read;
the room is marked and the record raised once; in another house only the request ends. R364, R367–R371, R382: a cell in transit leaves on its port with
one more hop, the earlier in R367's order before the other; or spills, is counted, and is OLD from eight spills on; or leaves on the port it came by,
where a slow one holds it until its slot; or is dropped after 63 hops, or where its house has no entry. R379: a LOAD in transit is absorbed by an open
combining, or goes on as this room's own, and its answer goes to all.
Choices of the model it rests on: log entries 4, 87, 88, 91, 117, 118. -/
def Obligations.FabricTracksRequests : Prop :=
  (∀ (p : Fin 40) (c : Cell) (i : Nat) (r : Req) (n : Nat) (s : State), r.who = .slot n →
    let u := { s with reqs := s.reqs.eraseIdx i }
    (Claims.Answers s p c 8 i r → exec (.data p c) s = .next (u.setSlot n (if c.aux = 0x20 then { s.slot n with dead := true }
      else { s.slot n with got := (s.slot n).got ++ Claims.comeBytes r c }))) ∧
    (Claims.Answers s p c 9 i r → r.cell.ty ≠ 2 → exec (.ack p c) s = .next (if c.aux = 0x20 then u.setSlot n { s.slot n with dead := true } else u)) ∧
    (Claims.Answers s p c 0xA i r → exec (.refused p c) s = .next (u.setSlot n (if c.aux = 0x20 then { s.slot n with dead := true }
      else if c.aux = 0x13 then { s.slot n with cancelled := true } else { s.slot n with refused := true })))) ∧
  (∀ (p : Fin 40) (c : Cell) (i : Nat) (r : Req) (k id : Nat) (a : Access) (s : State), Claims.Asks s k id a r →
    let unpend := (s.core k).pend.filter (· ≠ a.num)
    (Claims.Answers s p c 8 i r → a.kind = .sld → c.payload.length = a.size →
      ∃ t, exec (.data p c) s = .next t ∧ Claims.AccessEnds s t k i a unpend ∧ Claims.Writes s t k a.num (Claims.loaded a.sub a.size (leNat c.payload)) ∧
        ∀ l, (s.core k).run = some l → c.aux = 0x20 → (t.lrun l.launch).dead = true) ∧
    (Claims.Answers s p c 9 i r → a.kind = .amo → c.aux ≠ 0x20 → c.payload.length = 8 →
      ∃ t, exec (.ack p c) s = .next t ∧ Claims.AccessEnds s t k i a unpend ∧
        Claims.Writes s t k a.num (leNat (c.payload.take (amoWidth a.sub)))) ∧
    (Claims.Answers s p c 9 i r → a.kind = .sst → c.aux ≠ 0x20 →
      ∃ t, exec (.ack p c) s = .next t ∧ Claims.AccessEnds s t k i a (s.core k).pend ∧ (t.core k).regs = (s.core k).regs) ∧
    (Claims.Answers s p c 0xA i r → c.aux ≠ 0x20 → a.kind = .sld ∨ a.kind = .amo ∨ a.kind = .sst →
      exec (.refused p c) s =
        .next (((({ s with reqs := s.reqs.eraseIdx i } : State).setCore k ((s.core k).without id)).faultAt k 5 a.pc a.word).settle k))) ∧
  (∀ (p : Fin 40) (c : Cell) (s : State), ∀ r ∈ [(8, Instr.data p c), (9, Instr.ack p c), (0xA, Instr.refused p c)],
    (Claims.CellComes s p c r.1 → (∀ q ∈ s.reqs, ¬(q.held = false ∧ q.cell.tag = c.tag ∧ q.cell.pass = c.pass)) →
      exec r.2 s = .next (s.incReg Reg.fabStaleResp 1)) ∧
    (s.portTakes p = false ∨ s.forHere c = false → exec r.2 s = .next s)) ∧
  (∀ (p : Fin 40) (c m : Cell) (i : Nat) (r : Req) (b : Comb) (s : State), Claims.CellComes s p c 8 → Claims.NoneHeld s → s.reqs[i]? = some r →
    (∀ j q, s.reqs[j]? = some q → q.cell.tag = c.tag → j = i) → r.who = .comb → r.cell.tag = c.tag → r.cell.pass = c.pass → s.combs = [b] →
    b.tag = c.tag → b.members = [m] → m.srcRoom ≠ s.room →
    ∃ t, exec (.data p c) s = .next t ∧ t.reqs = s.reqs.eraseIdx i ∧ t.combs = [] ∧ t.mem = s.mem ∧ Claims.Responds s t m 8 c.aux c.payload) ∧
  (∀ (g : Fin 131072) (s : State),
    ((∀ r ∈ s.reqs, r.cell.tag = g.val → r.held = true ∨ r.sent = false ∨ r.door = true) → exec (.requestRetransmit g) s = .next s) ∧
    ((∀ r ∈ s.reqs, r.cell.tag = g.val → r.held = true ∨ r.cell.dstHouse ≠ s.house) → exec (.targetTimeout g) s = .next s) ∧
    ((∀ r ∈ s.reqs, r.cell.tag = g.val → r.held = true ∨ r.cell.dstHouse = s.house ∨ r.door = true) → exec (.houseRequestTimeout g) s = .next s) ∧
    ∀ (i : Nat) (r : Req), Claims.Stands s i r → r.cell.tag = g.val →
      (r.sent = true → r.door = false →
        let c := { r.cell with retry := true, epoch := s.activeB }
        let way := s.way s.activeB c.dstHouse (if c.dstHouse = s.house then s.firstHop c else c.dstRoom)
        let again := fun (t : State) => t = { s with
          out := t.out, replay := t.replay, reqs := s.reqs.set i { r with cell := c }, tagSent := t.tagSent, regs := t.regs, lastSpill := t.lastSpill } ∧
          Tbl.get 0 t.tagSent g = s.now + 1 ∧ t.reg Reg.fabRetries = (s.reg Reg.fabRetries + 1) % 2 ^ 64
        (∀ q, way = .port q → s.portShut housePorts q = false → ∃ t, exec (.requestRetransmit g) s = .next t ∧ again t ∧
          t.out = s.out ++ [.cell q (Claims.crossed c)] ∧ Claims.OnlyRegs s t [Reg.fabRetries]) ∧
        (∀ q, way = .spill → s.spillPort 0 (fun x => !s.portShut housePorts x) = some q → ∃ t, exec (.requestRetransmit g) s = .next t ∧ again t ∧
          t.out = s.out ++ [.cell q (Claims.crossed (Claims.spilled c))] ∧ t.reg Reg.fabSpills = (s.reg Reg.fabSpills + 1) % 2 ^ 64 ∧
          Claims.OnlyRegs s t [Reg.fabRetries, Reg.fabSpills, Reg.fabOldMarked]) ∧
        ((∀ q, way = .port q → s.portShut housePorts q = true) → (way = .spill → s.spillPort 0 (fun x => !s.portShut housePorts x) = none) →
          exec (.requestRetransmit g) s = .next s)) ∧
      (Claims.NoneHeld s → s.combs = [] → r.cell.dstHouse = s.house → r.cell.dstRoom < 32 →
        let away := fun (q : Req) => q.cell.dstHouse ≠ s.house ∨ q.cell.dstRoom ≠ r.cell.dstRoom
        ((∀ q ∈ s.reqs, ∃ n, q.who = .slot n) → ∃ t, exec (.targetTimeout g) s = .next t ∧ t.reqs = s.reqs.filter (fun q => decide (away q)) ∧
          t.mem = s.mem ∧ t.cores = s.cores ∧ t.roomDead r.cell.dstRoom = true ∧
          (∀ q ∈ s.reqs, ∀ n, q.who = .slot n → ¬away q → (t.slot n).dead = true) ∧
          (∀ n, (∀ q ∈ s.reqs, q.who = .slot n → away q) → t.slot n = s.slot n) ∧
          t.reg Reg.fabTimeouts = (s.reg Reg.fabTimeouts + (s.reqs.length - t.reqs.length)) % 2 ^ 64 ∧
          (s.roomDead r.cell.dstRoom = false → Claims.Recorded s t 0x20 14 0) ∧
          (s.roomDead r.cell.dstRoom = true → t.heldFaults = s.heldFaults ∧ t.faults = s.faults)) ∧
        (∀ k id a, s.reqs = [r] → Claims.Asks s k id a r → ∃ t, exec (.targetTimeout g) s = .next t ∧ t.reqs = [] ∧ t.mem = s.mem ∧
          t.roomDead r.cell.dstRoom = true ∧ (t.core k).outs = (s.core k).outs.filter (fun b => b.id ≠ a.id) ∧
          (a.kind = .sld → Claims.Writes s t k a.num (Claims.loaded a.sub a.size (2 ^ (8 * a.size) - 1)) ∧
            ∀ l, (s.core k).run = some l → (t.lrun l.launch).dead = true) ∧
          (a.kind = .amo → Claims.Writes s t k a.num (2 ^ (8 * amoWidth a.sub) - 1) ∧ ∀ l, (s.core k).run = some l → (t.lrun l.launch).dead = true) ∧
          (a.kind = .sst → (t.core k).regs = (s.core k).regs ∧ t.runs = s.runs)) ∧
        (∀ v, s.reqs = [r] → r.who = .unit v ∨ r.who = .msg v → ∃ t, exec (.targetTimeout g) s = .next t ∧ t.reqs = [] ∧
          (∀ x ∈ t.exchs, (s.house, r.cell.dstRoom) ∈ x.peers → (s.house, r.cell.dstRoom) ∈ x.dead) ∧
          (∀ x ∈ t.reds, (s.house, r.cell.dstRoom) ∈ x.members → (s.house, r.cell.dstRoom) ∈ x.dead))) ∧
      (Claims.NoneHeld s → r.cell.dstHouse ≠ s.house → r.door = false → ∀ n, r.who = .slot n →
        ∃ t, exec (.houseRequestTimeout g) s = .next t ∧ t.reqs = s.reqs.eraseIdx i ∧ t.slots = (s.setSlot n { s.slot n with dead := true }).slots ∧
          t.mem = s.mem ∧ t.cores = s.cores ∧ t.reg Reg.fabTimeouts = (s.reg Reg.fabTimeouts + 1) % 2 ^ 64 ∧
          t.reg Reg.fabRoomDead = s.reg Reg.fabRoomDead ∧ Claims.Recorded s t 0x20 14 0)) ∧
  (∀ (p : Fin 40) (c : Cell) (full : Bool) (idle : List Nat) (s : State),
    (p.val < 31 → s.portTakes p = true → Claims.Clear s →
      (s.forHere c = true → full = false → exec (.cellTransit [⟨p, c, full⟩] idle) s = .next s) ∧
      (s.forHere c = false → 63 ≤ c.hops → ∃ t, exec (.cellTransit [⟨p, c, full⟩] idle) s = .next t ∧ t = { s with regs := t.regs } ∧
        Claims.OnlyRegs s t [Reg.fabDrops] ∧ t.reg Reg.fabDrops = (s.reg Reg.fabDrops + 1) % 2 ^ 64)) ∧
    (31 ≤ p.val ∨ s.portTakes p = false → Claims.Clear s → exec (.cellTransit [⟨p, c, full⟩] idle) s = .next s) ∧
    (∀ q d, s.slowOut = [(q, [d])] → q ∉ idle → s.flag (Reg.fabPortStatus q) 0 = true → s.waiting = [] → s.reinj = [] → s.reqs = [] →
      ∃ t, exec (.cellTransit [] idle) s = .next t ∧ t.out = s.out ++ [.cell q (Claims.crossed d)] ∧ t.slowOut = [] ∧ t.regs = s.regs) ∧
    (Claims.Arrives s p c →
      let way := s.way (s.tableFor c).1 c.dstHouse c.dstRoom
      let stale := if (s.tableFor c).2 then 1 else 0
      let stray := if s.strayed c then 1 else 0
      (way = .miss → ∃ t, exec (.cellTransit [⟨p, c, full⟩] idle) s = .next t ∧ t = { s with regs := t.regs } ∧
        Claims.OnlyRegs s t [Reg.fabStaleEpoch, Reg.fabRouteMiss] ∧ t.reg Reg.fabRouteMiss = (s.reg Reg.fabRouteMiss + 1) % 2 ^ 64 ∧
        t.reg Reg.fabStaleEpoch = (s.reg Reg.fabStaleEpoch + stale) % 2 ^ 64) ∧
      (∀ q, Claims.Plain s c → way = .port q → s.portOpen (portDie p) idle [] q = true →
        ∃ t, exec (.cellTransit [⟨p, c, full⟩] idle) s = .next t ∧ Claims.Moved s t [Reg.fabStaleEpoch, Reg.fabRouteMiss] ∧
          t.out = s.out ++ [.cell q (Claims.crossed c)] ∧ t.lastSpill = s.lastSpill ∧ t.slowOut = [] ∧
          t.reg Reg.fabStaleEpoch = (s.reg Reg.fabStaleEpoch + stale) % 2 ^ 64 ∧ t.reg Reg.fabRouteMiss = (s.reg Reg.fabRouteMiss + stray) % 2 ^ 64) ∧
      (Claims.Plain s c → way = .spill ∨ (∃ q, way = .port q ∧ q ≠ p ∧ s.portOpen (portDie p) idle [] q = false) →
        (∀ q, Claims.spillsTo s idle [] p = some q → ∃ t, exec (.cellTransit [⟨p, c, full⟩] idle) s = .next t ∧ Claims.Moved s t Claims.crossbarCounts ∧
          t.out = s.out ++ [.cell q (Claims.crossed (Claims.spilled c))] ∧ t.slowOut = [] ∧ Tbl.get 30 t.lastSpill (portDie p) = q ∧
          t.reg Reg.fabSpills = (s.reg Reg.fabSpills + 1) % 2 ^ 64 ∧
          t.reg Reg.fabOldMarked = (s.reg Reg.fabOldMarked + if c.old = false ∧ c.spills = 7 then 1 else 0) % 2 ^ 64) ∧
        (Claims.spillsTo s idle [] p = none → ∃ t, exec (.cellTransit [⟨p, c, full⟩] idle) s = .next t ∧ Claims.Moved s t Claims.crossbarCounts ∧
          t.reg Reg.fabSpills = (s.reg Reg.fabSpills + 1) % 2 ^ 64 ∧
          (s.portShut idle p = false → t.out = s.out ++ [.cell p (Claims.crossed (Claims.spilled c))]) ∧
          (s.portShut idle p = true → t.out = s.out ∧ t.slowOut = [(p.val, [Claims.spilled c])]))) ∧
      (c.dstHouse = s.house → s.flag Reg.fabCtl 0 = true → c.ty = 0 → c.retry = false → cellIntact c = true →
        (∀ b m, s.combs = [b] → b.die = portDie p → s.now ≤ b.t0 + 64 → b.members = [m] → combines m c = true →
          ∃ t, exec (.cellTransit [⟨p, c, full⟩] idle) s = .next t ∧ t.out = s.out ∧ t.combs = [{ b with members := [m, c] }] ∧ t.mem = s.mem ∧
            t.reg Reg.fabReadsCombined = (s.reg Reg.fabReadsCombined + 1) % 2 ^ 64) ∧
        (∀ g q, s.combs = [] → s.freeTag = some g → way = .port q → s.portOpen (portDie p) idle [] q = true →
          ∃ t d, exec (.cellTransit [⟨p, c, full⟩] idle) s = .next t ∧ t.out = s.out ++ [.cell q (Claims.crossed d)] ∧ d.srcHouse = s.house ∧
            d.srcRoom = s.room ∧ d.tag = g ∧ d.addr = c.addr ∧ d.len = c.len ∧ d.dstRoom = c.dstRoom ∧ t.reqs = s.reqs ++ [⟨d, .comb, false, true, false⟩] ∧
            t.combs = [⟨portDie p, s.now, g, [c]⟩] ∧ t.mem = s.mem))) ∧
    (∀ q, p.val < 31 → s.portTakes p = true → Claims.Clear s → s.forHere c = true → Claims.spillsTo s idle [] p = some q →
      ∃ t, exec (.cellTransit [⟨p, c, true⟩] idle) s = .next t ∧ Claims.Moved s t Claims.crossbarCounts ∧
        t.out = s.out ++ [.cell q (Claims.crossed (Claims.spilled c))] ∧ t.reg Reg.fabEjectRefused = (s.reg Reg.fabEjectRefused + 1) % 2 ^ 64) ∧
    (∀ (x : Fin 40) (d : Cell) (q z : Nat), Claims.Arrives s p c → Claims.Arrives s x d → Claims.Plain s c → Claims.Plain s d → Claims.Before c d →
      s.way (s.tableFor c).1 c.dstHouse c.dstRoom = .port q → s.way (s.tableFor d).1 d.dstHouse d.dstRoom = .port q →
      s.portOpen (portDie p) idle [] q = true → Claims.spillsTo s idle [q] x = some z →
      ∃ t, exec (.cellTransit [⟨x, d, full⟩, ⟨p, c, full⟩] idle) s = .next t ∧ Claims.Moved s t Claims.crossbarCounts ∧
        t.out = s.out ++ [.cell q (Claims.crossed c), .cell z (Claims.crossed (Claims.spilled d))] ∧
        t.reg Reg.fabSpills = (s.reg Reg.fabSpills + 1) % 2 ^ 64))
/-! ## Ports and routes -/

namespace Sys2Proof.Claims

/-- The record of port `p`, an INTERNAL_FAULT whose info field holds its number, is the last raised (R358, R384). -/
def PortRecorded (s t : State) (p : Nat) : Prop :=
  ∃ f, t.heldFaults.getLast? = some f ∧ f.status = 0xFF ∧ f.info = p ∧ f.kind = 7 ∧ f.index = p ∧ f.fseq = nextSeq (s.fieldOf Reg.hostSeq 63 32)

/-- A port that reports house `h` and room `r` at its far end is miswired: a house port's far end is of another house, or this room (R358). -/
def Miswired (s : State) (p h r : Nat) : Prop := p < 31 ∧ (h ≠ s.house ∨ r = s.room)

/-- What port `p` shows. -/
def PortShows (t : State) (p : Nat) (up masked : Bool) : Prop :=
  t.flag (Reg.fabPortStatus p) 0 = up ∧ t.flag (Reg.fabPortStatus p) 1 = masked ∧ t.flag Reg.fabPortMask p = masked ∧
  t.flag Reg.geomPortsUp p = (up && !masked)

end Sys2Proof.Claims

/-- R358, R359: a port that trains tells its far end this room's house, room and port, shows what the far end reported, and whether it is slow; it is
miswired, and recorded, where a house port's far end is of another house or this room. R34: new coordinates at the far end are shown, and judged again.
R363, R384: a link sends again what failed its check; the third failure in a row, and a loss of signal, take the port down: masked, recorded, and every
cell not acknowledged, which is counted, spills to another port, or waits where there is none. R386: the operator's mask, which is not cleared for a port that is
down or miswired. R382, R383: a swap exchanges the tables unless one drains. R401: a write clears the marks of dead rooms. R17: three retries of a transfer that
fail take its link down, which is recorded; a compute die without links to memory has its cores retired; an access with no way left ends as one to a dead
target.
Choices of the model it rests on: log entries 20, 93, 117, 120. -/
def Obligations.PortsAndRoutes : Prop :=
  (∀ (p : Fin 40) (house : Fin 65536) (room : Fin 32) (port : Fin 40) (slow : Bool) (s : State),
    let st := s.fieldOf Reg.powerStatus 2 0
    (s.ready = false ∨ st ∈ [3, 4, 6] → exec (.portTrained p house room port slow) s = .next s) ∧
    (s.ready = true → st ∉ [3, 4, 6] →
      ∃ t, exec (.portTrained p house room port slow) s = .next t ∧ Claims.PortShows t p true (s.flag Reg.fabPortMask p) ∧
        t.fieldOf (Reg.fabPortStatus p) 63 48 = house ∧ t.fieldOf (Reg.fabPortStatus p) 44 40 = room ∧
        t.fieldOf (Reg.fabPortStatus p) 37 32 = port ∧ t.flag (Reg.fabPortStatus p) 2 = slow ∧
        (t.flag (Reg.fabPortStatus p) 3 = true ↔ Claims.Miswired s p house room) ∧ Out.hello p s.house s.room ∈ t.out.drop s.out.length ∧
        (Claims.Miswired s p house room → Claims.PortRecorded s t p))) ∧
  (∀ (p : Fin 40) (house : Fin 65536) (room : Fin 32) (s : State),
    (s.flag (Reg.fabPortStatus p) 0 = false → exec (.farEndCoordinates p house room) s = .next s) ∧
    (s.flag (Reg.fabPortStatus p) 0 = true → ∃ t, exec (.farEndCoordinates p house room) s = .next t ∧
      t.fieldOf (Reg.fabPortStatus p) 63 48 = house ∧ t.fieldOf (Reg.fabPortStatus p) 44 40 = room ∧
      (t.flag (Reg.fabPortStatus p) 3 = true ↔ Claims.Miswired s p house room) ∧
      (Claims.Miswired s p house room → s.flag (Reg.fabPortStatus p) 3 = false → Claims.PortRecorded s t p))) ∧
  (∀ (p : Fin 40) (n : Nat) (s : State),
    let left := (Tbl.get [] s.replay p.val).drop n
    (s.flag (Reg.fabPortStatus p) 0 = true → ∃ t, exec (.portDown p n) s = .next t ∧ Claims.PortShows t p false true ∧ Claims.PortRecorded s t p ∧
      Tbl.get [] t.replay p.val = [] ∧ Tbl.get [] t.slowOut p.val = [] ∧
      t.reg Reg.fabReinjected = (s.reg Reg.fabReinjected + if p.val < 31 then left.length else 0) % 2 ^ 64 ∧
      ∀ c, p.val < 31 → left = [c] → s.reinj = [] → Tbl.get [] s.slowOut p.val = [] →
        let via := s.spillPort (portDie p) fun q => q != p && !s.portShut housePorts q
        (∀ q, via = some q → Out.cell q (Claims.crossed (Claims.spilled c)) ∈ t.out.drop s.out.length) ∧ (via = none → t.reinj = [(p.val, c)])) ∧
    (s.flag (Reg.fabPortStatus p) 0 = false → ∃ t, exec (.portDown p n) s = .next t ∧ t = { s with replay := t.replay }) ∧
    (0 < n ∨ Tbl.get 0 s.linkFails p.val < 2 → ∃ t, exec (.linkReplay p n) s = .next t ∧ t.out = s.out ++ left.head?.toList.map (Out.cell p) ∧
      t = { s with replay := t.replay, linkFails := t.linkFails, out := t.out } ∧ Tbl.get [] t.replay p.val = left ∧
      Tbl.get 0 t.linkFails p.val = (if n = 0 then Tbl.get 0 s.linkFails p.val + 1 else 1)) ∧
    (2 ≤ Tbl.get 0 s.linkFails p.val → s.flag (Reg.fabPortStatus p) 0 = true → ∃ t, exec (.linkReplay p 0) s = .next t ∧
      Claims.PortShows t p false true ∧ Claims.PortRecorded s t p) ∧
    (2 ≤ Tbl.get 0 s.linkFails p.val → s.flag (Reg.fabPortStatus p) 0 = false → ∃ t, exec (.linkReplay p 0) s = .next t ∧
      t = { s with replay := t.replay, linkFails := t.linkFails })) ∧
  (∀ (v : Word) (s : State), ∃ t, exec (.portMaskWrite v) s = .next t ∧ t.mem = s.mem ∧ t.cores = s.cores ∧ t.slots = s.slots ∧ ∀ p < 40,
    t.flag (Reg.fabPortStatus p) 0 = s.flag (Reg.fabPortStatus p) 0 ∧
    (bit v.toNat p = true → Claims.PortShows t p (s.flag (Reg.fabPortStatus p) 0) true) ∧
    (bit v.toNat p = false → s.flag (Reg.fabPortStatus p) 0 = true → s.flag (Reg.fabPortStatus p) 3 = false → Claims.PortShows t p true false) ∧
    (bit v.toNat p = false → s.flag (Reg.fabPortStatus p) 0 = false ∨ s.flag (Reg.fabPortStatus p) 3 = true →
      t.flag Reg.fabPortMask p = s.flag Reg.fabPortMask p ∧ t.reg (Reg.fabPortStatus p) = s.reg (Reg.fabPortStatus p))) ∧
  (∀ (v : Word) (s : State), ∃ t, exec (.swap v) s = .next t ∧
    (bit v.toNat 1 = true → s.flag Reg.fabEpoch 2 = false → t.activeB = !s.activeB ∧ t.flag Reg.fabEpoch 2 = true) ∧
    (bit v.toNat 1 = false ∨ s.flag Reg.fabEpoch 2 = true →
      t.activeB = s.activeB ∧ t.flag Reg.fabEpoch 2 = s.flag Reg.fabEpoch 2 ∧ t = { s with regs := t.regs } ∧ Claims.OnlyRegs s t [Reg.fabEpoch]) ∧
    t.fieldOf Reg.fabEpoch 31 16 = (if 1 ≤ bits v.toNat 31 16 ∧ bits v.toNat 31 16 ≤ 10000 then bits v.toNat 31 16 else s.fieldOf Reg.fabEpoch 31 16)) ∧
  (∀ s : State, ∃ t, exec .drainEnd s = .next t ∧ t = { s with regs := t.regs } ∧ t.flag Reg.fabEpoch 2 = false ∧ t.activeB = s.activeB ∧
    Claims.OnlyRegs s t [Reg.fabEpoch]) ∧
  (∀ (v : Word) (s : State), ∃ t, exec (.roomDeadClear v) s = .next t ∧ t = { s with regs := t.regs } ∧ Claims.OnlyRegs s t [Reg.fabRoomDead] ∧
    ∀ r < 32, t.roomDead r = (s.roomDead r && !bit v.toNat r)) ∧
  (∀ (a b : Fin 25) (s : State),
    let key := 32 * min a.val b.val + max a.val b.val
    let n := Tbl.get 0 s.pkgFails key
    let counts := fun (x : Instr) (m : Nat) => ∃ t, exec x s = .next t ∧ t = { s with pkgFails := t.pkgFails } ∧ Tbl.get 0 t.pkgFails key = m
    (pkgLink a b = false ∨ s.pkgUp a b = false → exec (.onpkgLinkDown a b) s = .next s ∧ counts (.onpkgLinkRetry a b true) (n + 1)) ∧
    counts (.onpkgLinkRetry a b false) 0 ∧
    (n < 2 → counts (.onpkgLinkRetry a b true) (n + 1)) ∧
    (pkgLink a b = true → s.pkgUp a b = true → ∀ x, x = Instr.onpkgLinkDown a b ∨ (x = .onpkgLinkRetry a b true ∧ 2 ≤ n) →
      ∃ t, exec x s = .next t ∧ t.pkgUp a b = false ∧ (∀ c d, s.pkgUp c d = false → t.pkgUp c d = false) ∧
        (16 ≤ min a.val b.val ∨ (∃ m < 4, 16 + m ≠ max a.val b.val ∧ s.pkgUp (min a.val b.val) (16 + m) = true) → Claims.Recorded s t 0xFF 0 0) ∧
        (min a.val b.val < 16 → (∀ m < 4, 16 + m ≠ max a.val b.val → s.pkgUp (min a.val b.val) (16 + m) = false) → s.fuses.length ≤ 4000 →
          ∀ i < 16, s.inService (16 * min a.val b.val + i) = true → t.flag (Reg.arrayStatus (16 * min a.val b.val + i)) 3 = true))) ∧
  (∀ (k : Fin 256) (n : Nat) (a : Access) (r : Run) (s : State), (s.core k).outs[n]? = some a → a.remote = false → a.refused = false →
    (s.core k).mustWait a = false → (s.core k).run = some r → r.stopping = false → s.coreCut k (aOff a.addr) = true →
    let ends := fun (t : State) => exec (.pendingValueArrives k n) s = .next t ∧ t.mem = s.mem ∧
      (t.core k).outs = (s.core k).outs.filter (fun b => b.id ≠ a.id) ∧ t.reg Reg.fabTimeouts = (s.reg Reg.fabTimeouts + 1) % 2 ^ 64
    (a.kind = .sld → a.size ∈ [1, 2, 4, 8] →
      ∃ t, ends t ∧ Claims.Writes s t k a.num (Claims.loaded a.sub a.size (2 ^ (8 * a.size) - 1)) ∧ (t.lrun r.launch).dead = true) ∧
    (a.kind = .amo → a.sub < 16 → ∃ t, ends t ∧ Claims.Writes s t k a.num (2 ^ (8 * amoWidth a.sub) - 1) ∧ (t.lrun r.launch).dead = true) ∧
    (a.kind = .sst → a.bad = false → ∃ t, ends t ∧ (t.core k).regs = (s.core k).regs ∧ t.runs = s.runs))
/-! ## Doors -/

namespace Sys2Proof.Claims

/-- A bulk message of this kind comes on a port that takes cells, for this room, with its checksum and count right (R406, R408). -/
def BulkComes (s : State) (m : BulkMsg) (kind : Nat) : Prop :=
  m.kind = kind ∧ s.portTakes m.port = true ∧ m.dstHouse = s.house ∧ m.dstRoom = s.room ∧ msgSound m = true

/-- What this room's door engine holds of the message's source engine (R408). -/
def sideOf (s : State) (m : BulkMsg) : DoorIn := s.doorSide (doorKey m.srcHouse m.srcRoom m.engine)

/-- It is next in order, none being held. -/
def NextBulk (s : State) (m : BulkMsg) (kind : Nat) : Prop :=
  BulkComes s m kind ∧ m.reset = false ∧ sideOf s m = ⟨m.seq - 1, []⟩ ∧ 1 ≤ m.seq

/-- The buffer a message took is free again (R407); one that came over the house mesh took none. -/
def freed (s : State) (m : BulkMsg) : State := if m.port < 31 then s else { s with out := s.out ++ [.credits m.port (m.cells.length + 1)] }

/-- Cells have left on one port, each with its hops, spills and mark as its way makes them. -/
def LeftOn (s t : State) (cs : List Cell) : Prop :=
  ∃ q, ∀ c ∈ cs, ∃ y, Out.cell q y ∈ t.out.drop s.out.length ∧ y = { c with hops := y.hops, spills := y.spills, old := y.old }

/-- The acknowledgement of a bulk message, with the responses it carries back, has left whole or waits for a path. -/
def AcksBulk (s t : State) (m : BulkMsg) (back : List Cell → Prop) : Prop :=
  ∃ d : DoorMsg, d.kind = 4 ∧ d.engine = m.engine ∧ d.house = m.srcHouse ∧ d.room = m.srcRoom ∧ d.arg0 = m.seq ∧ back d.cells ∧
    (d ∈ t.doorMsgs ∨ LeftOn s t (d.wire s.activeB))

/-- A message applied: its source's count of messages goes on, it is counted, and its buffer is free. -/
def AppliesBulk (s t : State) (m : BulkMsg) : Prop :=
  sideOf t m = ⟨m.seq, []⟩ ∧ t.reg Reg.doorMsgsApplied = (s.reg Reg.doorMsgsApplied + 1) % 2 ^ 64 ∧
  (31 ≤ m.port → Out.credits m.port (m.cells.length + 1) ∈ t.out.drop s.out.length)

/-- The one REFUSED cell that goes back for request `c`. -/
def RefusedBack (c : Cell) (status : Nat) (l : List Cell) : Prop :=
  ∃ b, l = [b] ∧ b.ty = 0xA ∧ b.aux = status ∧ b.tag = c.tag ∧ b.pass = c.pass ∧ b.dstRoom = c.srcRoom

/-- The messages this room's door engines keep have numbers of their own. -/
def DoorIds (s : State) : Prop := ∀ x ∈ s.doorMsgs, x.id < s.nextMsg

/-- A message of another room as it is passed on (R407). -/
def onward (s : State) (m : BulkMsg) : DoorMsg :=
  ⟨s.nextMsg, m.engine, m.dstHouse, m.dstRoom, m.srcHouse, m.srcRoom, m.kind, m.seq, m.reset, m.cells, m.arg0, m.arg1, true, false, false, none⟩

/-- The commands by which a bulk message comes: kind and command. -/
def bulkKinds (m : BulkMsg) (asks : List ShardAsk) (shards : List ShardData) : List (Nat × Instr) :=
  [(0, .write m), (1, .getReq m), (2, .getData m), (3, .unit m asks shards)]

/-- The tensor a GET_REQ names, as the far room reads it. -/
def gotten (d : TDesc) : Tensor := ⟨d, 0, [⟨d.base, 0, d.size.headD 0, 0, d.scaleBase, 0⟩]⟩

end Sys2Proof.Claims

/-- R392, R406–R408, R410, R414: bulk messages that arrive. One that is next in order is applied, counted and acknowledged, and its buffer is free again; a STORE of
a WRITE puts its bytes, an EATOMIC its results, and one not admitted is refused, its REFUSED cell going back. A GET_REQ's data goes back in a message, or
the refusal; the last GET_DATA of a bulk get writes its destination and ends its MOVE, and one before it is kept. A GATHER's asking is answered with the bytes, or
refused; what answers this room's GATHER reaches its slot. One ahead of a gap is held, 64 at most, and applied when the gap is filled; RESET is applied as the
next in order. A duplicate is acknowledged again, counted, and changes no memory; one whose checksum fails is dropped; one for elsewhere is passed on whole.
Choices of the model it rests on: log entries 89, 90. -/
def Obligations.DoorsApplyInOrder : Prop :=
  (∀ (m : BulkMsg) (c : Cell) (s : State), Claims.NextBulk s m 0 → m.cells = [c] →
    (badCell c = true ∨ (c.ty ≠ 1 ∧ c.ty ≠ 3) → ∃ t, exec (.write m) s = .next t ∧ Claims.AppliesBulk s t m ∧ t.mem = s.mem ∧
      Claims.AcksBulk s t m (· = []) ∧ t.reg Reg.fabBadCells = (s.reg Reg.fabBadCells + 1) % 2 ^ 64) ∧
    (badCell c = false → s.refuses c = false → Claims.OneToOne s → Claims.OnStacks s →
      (c.ty = 1 → Claims.Sound s (aOff c.addr) (c.len + 1) → ∃ t, exec (.write m) s = .next t ∧ Claims.AppliesBulk s t m ∧
        Claims.Stores s t (aOff c.addr) ((List.range (c.len + 1)).map fun i => c.payload.getD i 0) ∧ Claims.AcksBulk s t m (· = [])) ∧
      (c.ty = 3 → (eaWide c = true → eaOp c ≤ 1) → Claims.Sound s (aOff c.addr) ((eaType c).width / 8 * (eaParts c).length) →
        ∃ t, exec (.write m) s = .next t ∧ Claims.AppliesBulk s t m ∧ Claims.ElemsApplied s t c (eaParts c) ∧ Claims.AcksBulk s t m (· = []))) ∧
    (badCell c = false → c.ty = 1 ∨ c.ty = 3 → s.refuses c = true → ∃ t, exec (.write m) s = .next t ∧ Claims.AppliesBulk s t m ∧ t.mem = s.mem ∧
      t.reg Reg.fabInboundRefused = (s.reg Reg.fabInboundRefused + 1) % 2 ^ 64 ∧ Claims.AcksBulk s t m (Claims.RefusedBack c 0x15) ∧
      Claims.Recorded s t 0x15 7 m.port)) ∧
  (∀ (m : BulkMsg) (s : State) (asks : List ShardAsk) (shards : List ShardData), ∀ r ∈ Claims.bulkKinds m asks shards,
    (m.kind ≠ r.1 ∨ s.portTakes m.port = false → exec r.2 s = .next s) ∧
    (m.kind = r.1 → s.portTakes m.port = true → m.dstHouse ≠ s.house ∨ m.dstRoom ≠ s.room →
      (m.dstHouse = s.house → ∃ t, exec r.2 s = .next t ∧ t.mem = s.mem ∧ t.doorMsgs = s.doorMsgs ∧ ∀ c ∈ (Claims.onward s m).wire s.activeB,
        c ∈ t.waiting.drop s.waiting.length ∨
        ∃ q y, Out.cell q y ∈ t.out.drop s.out.length ∧ y = { c with epoch := s.activeB, hops := y.hops, spills := y.spills, old := y.old }) ∧
      (∀ p, m.dstHouse ≠ s.house → m.srcHouse ≠ s.house → s.way s.activeB m.dstHouse m.dstRoom = .door → Claims.DoorIds s →
        s.bestDoor (bits (s.houseRoute s.activeB m.dstHouse) 8 0) = some p → m.cells.length + 1 ≤ s.credits p →
        ∃ t, exec r.2 s = .next t ∧ t.mem = s.mem ∧ t.doorMsgs = s.doorMsgs ∧ t.credits p = s.credits p - (m.cells.length + 1) ∧
          t.out = (Claims.freed s m).out ++ ((Claims.onward s m).wire s.activeB).map fun c => .cell p (Claims.crossed c))) ∧
    (m.kind = r.1 → s.portTakes m.port = true → m.dstHouse = s.house → m.dstRoom = s.room → msgSound m = false →
      exec r.2 s = .next (Claims.freed s m)) ∧
    (Claims.BulkComes s m r.1 → m.reset = false → m.seq ≤ (Claims.sideOf s m).last →
      let backs := (Tbl.get [] s.doorBacks (doorKey m.srcHouse m.srcRoom m.engine)).filter fun e => e.1 == m.seq
      ∃ t, exec r.2 s = .next t ∧ t.mem = s.mem ∧ t.doorIn = s.doorIn ∧ t.reg Reg.doorDupMsgs = (s.reg Reg.doorDupMsgs + 1) % 2 ^ 64 ∧
        (backs = [] → Claims.AcksBulk s t m (· = [])) ∧ ∀ l, backs = [(m.seq, l)] → Claims.AcksBulk s t m (· = l))) ∧
  (∀ (m : BulkMsg) (s : State), ∀ r ∈ Claims.bulkKinds m [] [], Claims.BulkComes s m r.1 → m.reset = false → (Claims.sideOf s m).last + 1 < m.seq →
    let d := Claims.sideOf s m
    (d.held.length < 64 → (∀ x ∈ d.held, x.seq ≠ m.seq) → ∃ t, exec r.2 s = .next t ∧ t = { Claims.freed s m with doorIn := t.doorIn } ∧
      Claims.sideOf t m = ⟨d.last, d.held ++ [m]⟩) ∧
    (64 ≤ d.held.length ∨ (∃ x ∈ d.held, x.seq = m.seq) → exec r.2 s = .next (Claims.freed s m))) ∧
  (∀ (m : BulkMsg) (s : State), Claims.BulkComes s m 3 → m.reset = true → ∃ t, exec (.unit m [] []) s = .next t ∧ Claims.AppliesBulk s t m ∧
    Claims.AcksBulk s t m (· = []) ∧ t.mem = s.mem) ∧
  (∀ (m x : BulkMsg) (s : State), Claims.BulkComes s m 3 → m.reset = false → Claims.sideOf s m = ⟨m.seq - 1, [x]⟩ → 1 ≤ m.seq → x.kind = 3 →
    x.seq = m.seq + 1 → x.srcHouse = m.srcHouse → x.srcRoom = m.srcRoom → x.engine = m.engine → Claims.DoorIds s →
    ∃ t, exec (.unit m [] []) s = .next t ∧ Claims.sideOf t m = ⟨x.seq, []⟩ ∧ Claims.AcksBulk s t m (· = []) ∧ Claims.AcksBulk s t x (· = []) ∧
      t.reg Reg.doorMsgsApplied = (s.reg Reg.doorMsgsApplied + 2) % 2 ^ 64) ∧
  (∀ (m : BulkMsg) (c : Cell) (d : TDesc) (n w : Nat) (s : State), Claims.NextBulk s m 1 → m.cells = [c] → parseTD c.payload = some d →
    let a := Claims.gotten d
    (d.ok false = true → Claims.Flat s a n w → 1 ≤ n → n * w ≤ 65408 → m.arg0 = 0 → m.arg1 = n → s.mappedMem (aOff d.base) (n * w) = true →
      s.inAdmits m.srcHouse m.srcRoom (aOff d.base) (n * w) .read = true → Claims.DoorIds s →
      ∃ t, exec (.getReq m) s = .next t ∧ Claims.AppliesBulk s t m ∧ Claims.AcksBulk s t m (· = []) ∧ t.mem = s.mem ∧
        ∃ x ∈ t.doorMsgs, x.kind = 2 ∧ x.house = m.srcHouse ∧ x.room = m.srcRoom ∧ x.arg0 = 0 ∧
          (∀ y ∈ x.cells, y.ty = 8 ∧ y.tag = c.tag ∧ y.aux = if s.elemsDead Slot.none a (allIdx d.size) then 0x20 else 0) ∧
          x.cells.flatMap Cell.payload = (List.range n).flatMap fun j => leBytes w (Claims.item s Slot.none a j)) ∧
    (d.owned = true ∨ d.ok false = false ∨ (∃ e ∈ a.extents, s.isLocal e.1 = false ∨ s.mappedMem (aOff e.1) e.2 = false ∨
        s.inAdmits m.srcHouse m.srcRoom (aOff e.1) e.2 .read = false) →
      ∃ t, exec (.getReq m) s = .next t ∧ Claims.AppliesBulk s t m ∧ Claims.AcksBulk s t m (Claims.RefusedBack c 0x15) ∧ t.mem = s.mem ∧
        t.reg Reg.fabInboundRefused = (s.reg Reg.fabInboundRefused + 1) % 2 ^ 64 ∧ Claims.Recorded s t 0x15 7 m.port)) ∧
  (∀ (m : BulkMsg) (d : DoorMsg) (g : Get) (n w : Nat) (s : State), Claims.NextBulk s m 2 → s.doorMsgs = [d] → d.kind = 1 → d.house = m.srcHouse →
    d.room = m.srcRoom → d.get = some g → g.got = [] → g.bad = false → m.cells ≠ [] → (∀ c ∈ m.cells, c.tag = d.id % 131072) → m.arg0 = 0 →
    (s.slot g.slot).stage = .started → (s.slot g.slot).mvBad g.src.d g.dst.d = false → g.src.d.ty = g.dst.d.ty → g.src.d.block = .none →
    g.src.d.size = g.dst.d.size → Claims.Flat s g.dst n w → 1 ≤ n →
    let bs := m.cells.flatMap Cell.payload
    (bs.length = n * w → Claims.Writable s (s.slot g.slot) g.dst.d.base (n * w) → ∃ t, exec (.getData m) s = .next t ∧ Claims.AppliesBulk s t m ∧
      Claims.AcksBulk s t m (· = []) ∧ (t.slot g.slot).stage = .ended 0 0 ∧ Claims.Stores s t (aOff g.dst.d.base) bs ∧
      ((∃ c ∈ m.cells, c.aux = 0x20) → (t.slot g.slot).dead = true)) ∧
    (bs.length < n * w → d.id < s.nextMsg → ∃ t g', exec (.getData m) s = .next t ∧ Claims.AppliesBulk s t m ∧ Claims.AcksBulk s t m (· = []) ∧ t.mem = s.mem ∧
      t.slots = s.slots ∧ { d with get := some g' } ∈ t.doorMsgs ∧ g'.got.map Prod.snd = bs)) ∧
  (∀ (m : BulkMsg) (q : ShardAsk) (s : State), Claims.NextBulk s m 3 → Claims.DoorIds s →
    (s.mappedMem q.off q.len = true → s.inAdmits q.house q.room q.off q.len .read = true →
      ∃ t, exec (.unit m [q] []) s = .next t ∧ Claims.AppliesBulk s t m ∧ Claims.AcksBulk s t m (· = []) ∧ t.mem = s.mem ∧
        Out.shard q.house q.room q.off (s.memBytes q.off q.len) ∈ t.out.drop s.out.length) ∧
    (s.mappedMem q.off q.len = false ∨ s.inAdmits q.house q.room q.off q.len .read = false →
      ∃ t, exec (.unit m [q] []) s = .next t ∧ Claims.AppliesBulk s t m ∧ Claims.AcksBulk s t m (· = []) ∧ t.mem = s.mem ∧
        t.reg Reg.fabInboundRefused = (s.reg Reg.fabInboundRefused + 1) % 2 ^ 64)) ∧
  (∀ (m : BulkMsg) (q : ShardData) (s : State), Claims.NextBulk s m 3 →
    ∃ t, exec (.unit m [] [q]) s = .next t ∧ Claims.AppliesBulk s t m ∧ Claims.AcksBulk s t m (· = []) ∧ t.mem = s.mem ∧
      ∀ n, let v := s.slot n
        let asked := v.opcode = 6 ∧ v.stage = .started ∧ ∃ r ∈ v.asks, r.1 ≤ q.addr ∧ q.addr < r.1 + r.2
        (¬asked → t.slot n = v) ∧ (asked → t.slot n = match q.bytes with
          | some bs => { v with got := v.got ++ bs.zipIdx.map fun b => (q.addr + b.2, b.1) }
          | none => { v with refused := true }))
namespace Sys2Proof.Claims

/-- The one message kept, closed or not, of this room's own; it contains one request `c`, which `r`, of the descriptor in slot `n`, stands for at index `i`. -/
def Contains (s : State) (d : DoorMsg) (c : Cell) (i : Nat) (r : Req) (n : Nat) : Prop :=
  s.doorMsgs = [d] ∧ d.cells = [c] ∧ d.srcHouse = s.house ∧ d.get = none ∧ (d.kind = 0 ∨ d.kind = 3) ∧ c.srcHouse = s.house ∧ c.srcRoom = s.room ∧
  NoneHeld s ∧ Stands s i r ∧ r.who = .slot n ∧ r.cell.tag = c.tag ∧ r.cell.pass = c.pass

/-- An ACK for this room comes on a port that takes cells, and is sound. -/
def AckComes (s : State) (m : BulkMsg) : Prop := BulkComes s m 4

/-- It acknowledges message `d`. -/
def AckOf (s : State) (m : BulkMsg) (d : DoorMsg) : Prop :=
  d.sent = true ∧ d.engine = m.engine ∧ d.house = m.srcHouse ∧ d.room = m.srcRoom ∧ d.seq = m.arg0 ∧ d.kind ≠ 4 ∧ d.srcHouse = s.house

/-- A message leaves on door port `p`: it is for a house behind this room's doors, that port has the most credits, and enough (R407). -/
def DoorWay (s : State) (d : DoorMsg) (p : Nat) : Prop :=
  s.way s.activeB d.house d.room = .door ∧ s.bestDoor (bits (s.houseRoute s.activeB d.house) 8 0) = some p ∧ d.cells.length + 1 ≤ s.credits p

/-- It leaves over the house mesh, towards the room its entry names, by house port `p`. -/
def MeshWay (s : State) (d : DoorMsg) (p : Nat) : Prop := s.way s.activeB d.house d.room = .port p ∧ Tbl.get [] s.slowOut p = []

/-- It cannot leave: no door port of its entry is in service, or none holds the credits for all its cells (R407, R409). -/
def NoWay (s : State) (d : DoorMsg) : Prop :=
  s.way s.activeB d.house d.room = .door ∧ ∀ p, s.bestDoor (bits (s.houseRoute s.activeB d.house) 8 0) = some p → s.credits p < d.cells.length + 1

/-- The cells of a message on port `p`. -/
def cellsOn (s : State) (d : DoorMsg) (p : Nat) : List Out := (d.wire s.activeB).map fun c => .cell p (crossed c)

/-- A message closed: with the next number of its room, and RESET where one is due (R405, R408). -/
def closing (s : State) (d : DoorMsg) : DoorMsg :=
  let k := doorKey d.house d.room d.engine
  { d with closed := true, seq := (Tbl.get 0 s.doorSeq k + 1) % 2 ^ 32, reset := s.doorReset.contains k }

end Sys2Proof.Claims

/-- R405, R407, R409, R410: bulk messages that leave. A message closes with the next number of its room, and RESET where one is due; it leaves whole where credits
allow, each cell using one, or over the house mesh where its entry names a relay; one that cannot leave is held, and leaves when its path is up or credits come
back. An ACK ends the request the message contained, as its REFUSED cell says, or is passed on; for a GET_REQ it stops the resends, or refuses the MOVE. A
message without one is sent again whole and counted; one that gets none in time is dropped, its room's count to be reset, its request ending as to a dead target,
with the record; a bulk get's destination then holds the error value. A bulk get reads its descriptors, ends at once where its checks fail or no way leads to its
house, and else sends its GET_REQ and waits.
Choices of the model it rests on: log entries 4, 89 to 91. -/
def Obligations.DoorsSendAndResend : Prop :=
  (∀ (m : BulkMsg) (s : State),
    (m.kind ≠ 4 ∨ s.portTakes m.port = false → exec (.bulkAck m) s = .next s) ∧
    (m.kind = 4 → s.portTakes m.port = true → m.dstHouse = s.house → m.dstRoom = s.room → msgSound m = false →
      exec (.bulkAck m) s = .next (Claims.freed s m)) ∧
    (Claims.AckComes s m → (∀ d ∈ s.doorMsgs, ¬Claims.AckOf s m d) → exec (.bulkAck m) s = .next (Claims.freed s m)) ∧
    (∀ p, m.kind = 4 → s.portTakes m.port = true → m.dstHouse ≠ s.house → s.way s.activeB m.dstHouse m.dstRoom = .door → Claims.DoorIds s →
      s.bestDoor (bits (s.houseRoute s.activeB m.dstHouse) 8 0) = some p → m.cells.length + 1 ≤ s.credits p →
      ∃ t, exec (.bulkAck m) s = .next t ∧ t.mem = s.mem ∧ t.reqs = s.reqs ∧ t.doorMsgs = s.doorMsgs ∧
        t.out = (Claims.freed s m).out ++ Claims.cellsOn s (Claims.onward s m) p)) ∧
  (∀ (m : BulkMsg) (d : DoorMsg) (c : Cell) (i : Nat) (r : Req) (n : Nat) (s : State), Claims.AckComes s m → Claims.Contains s d c i r n → Claims.AckOf s m d →
    let u := { Claims.freed s m with doorMsgs := [], reqs := s.reqs.eraseIdx i }
    (m.cells = [] → exec (.bulkAck m) s = .next u) ∧
    (∀ b, m.cells = [b] → b.tag = c.tag → b.dstRoom = c.srcRoom → b.pass = c.pass →
      exec (.bulkAck m) s = .next (u.setSlot n (if b.aux = 0x20 then { s.slot n with dead := true }
        else if b.aux = 0x13 then { s.slot n with cancelled := true } else { s.slot n with refused := true })))) ∧
  (∀ (m : BulkMsg) (d : DoorMsg) (g : Get) (s : State), Claims.AckComes s m → s.doorMsgs = [d] → Claims.AckOf s m d → d.get = some g →
    (m.cells = [] → exec (.bulkAck m) s = .next { Claims.freed s m with doorMsgs := [{ d with acked := true }] }) ∧
    (m.cells ≠ [] → (s.slot g.slot).stage = .started → exec (.bulkAck m) s = .next
      (({ Claims.freed s m with doorMsgs := [] } : State).setSlot g.slot { s.slot g.slot with refused := true, stage := .ended 0 0 }))) ∧
  (∀ (m : BulkMsg) (d : DoorMsg) (c : Cell) (s : State), Claims.AckComes s m → s.doorMsgs = [d] → d.cells = [c] → d.get = none → d.kind = 0 ∨ d.kind = 3 →
    Claims.AckOf s m d → c.srcHouse = s.house → c.srcRoom ≠ s.room →
    (m.cells = [] → ∃ t, exec (.bulkAck m) s = .next t ∧ t.doorMsgs = [] ∧ t.mem = s.mem ∧ Claims.Responds s t c 9 0 []) ∧
    (∀ b, m.cells = [b] → b.tag = c.tag → b.dstRoom = c.srcRoom → b.pass = c.pass →
      ∃ t, exec (.bulkAck m) s = .next t ∧ t.doorMsgs = [] ∧ t.mem = s.mem ∧ Claims.Responds s t c 0xA b.aux [])) ∧
  (∀ (id : Nat) (s : State),
    ((∀ d ∈ s.doorMsgs, d.id = id → d.closed = false ∨ d.kind = 4 ∨ d.srcHouse ≠ s.house) → exec (.doorTargetTimeout id) s = .next s) ∧
    ((∀ d ∈ s.doorMsgs, d.id = id → d.closed = false ∨ d.sent = false ∨ d.acked = true) → exec (.doorRetry id) s = .next s) ∧
    ((∀ d ∈ s.doorMsgs, d.id = id → d.closed = true) → exec (.bulkMessageClose id) s = .next s) ∧
    ((∀ d ∈ s.doorMsgs, d.closed = false ∨ d.sent = true) → exec .doorPathUp s = .next s)) ∧
  (∀ (d : DoorMsg) (s : State), s.doorMsgs = [d] → d.closed = true → d.srcHouse = s.house → d.kind ≠ 4 →
    let key := doorKey d.house d.room d.engine
    let endsSo := fun (t : State) => exec (.doorTargetTimeout d.id) s = .next t ∧ t.doorMsgs = [] ∧ key ∈ t.doorReset ∧
      t.reg Reg.doorTimeouts = (s.reg Reg.doorTimeouts + 1) % 2 ^ 64 ∧ t.reg Reg.fabRoomDead = s.reg Reg.fabRoomDead
    (∀ c i r n, Claims.Contains s d c i r n → ∃ t, endsSo t ∧ t.reqs = s.reqs.eraseIdx i ∧ t.slots = (s.setSlot n { s.slot n with dead := true }).slots ∧
      t.mem = s.mem ∧ t.reg Reg.fabTimeouts = (s.reg Reg.fabTimeouts + 1) % 2 ^ 64 ∧ Claims.Recorded s t 0x20 6 d.engine) ∧
    (∀ g n w, d.get = some g → (s.slot g.slot).stage = .started → (s.slot g.slot).mvBad g.src.d g.dst.d = false → g.src.d.ty = g.dst.d.ty →
      g.src.d.block = .none → g.got = [] → Claims.Flat s g.dst n w → 1 ≤ n → Claims.Writable s (s.slot g.slot) g.dst.d.base (n * w) →
      ∃ t, endsSo t ∧ (t.slot g.slot).stage = .ended 0 0 ∧ (t.slot g.slot).dead = true ∧
        Claims.Stores s t (aOff g.dst.d.base) (List.replicate (n * w) 0xFF))) ∧
  (∀ (d : DoorMsg) (p : Nat) (s : State), s.doorMsgs = [d] →
    (Claims.DoorWay s d p → d.kind ≠ 4 → d.srcHouse = s.house →
      let uses := fun (t : State) => t.credits p = s.credits p - (d.cells.length + 1) ∧ t.mem = s.mem ∧ t.slots = s.slots ∧ t.reqs = s.reqs
      (d.closed = true → d.sent = true → d.acked = false → ∃ t, exec (.doorRetry d.id) s = .next t ∧ uses t ∧ t.doorMsgs = [d] ∧
        t.reg Reg.doorRetransmits = (s.reg Reg.doorRetransmits + 1) % 2 ^ 64 ∧ t.out = s.out ++ Claims.cellsOn s d p) ∧
      (d.closed = true → d.sent = false → ∃ t, exec .doorPathUp s = .next t ∧ uses t ∧ t.doorMsgs = [{ d with sent := true }] ∧
        t.out = s.out ++ Claims.cellsOn s d p ∧ t.reg Reg.doorMsgsSent = (s.reg Reg.doorMsgsSent + 1) % 2 ^ 64) ∧
      (d.closed = false → d.sent = false →
        let k := doorKey d.house d.room d.engine
        ∃ t, exec (.bulkMessageClose d.id) s = .next t ∧ uses t ∧ t.doorMsgs = [{ Claims.closing s d with sent := true }] ∧ k ∉ t.doorReset ∧
          Tbl.get 0 t.doorSeq k = Tbl.get 0 s.doorSeq k + 1 ∧ t.out = s.out ++ Claims.cellsOn s (Claims.closing s d) p ∧
          t.reg Reg.doorMsgsSent = (s.reg Reg.doorMsgsSent + 1) % 2 ^ 64)) ∧
    (Claims.MeshWay s d p → d.kind ≠ 4 → d.srcHouse = s.house → d.closed = true →
      (d.sent = true → d.acked = false → ∃ t, exec (.doorRetry d.id) s = .next t ∧ t.out = s.out ++ Claims.cellsOn s d p ∧
        t.reg Reg.doorRetransmits = (s.reg Reg.doorRetransmits + 1) % 2 ^ 64) ∧
      (d.sent = false → ∃ t, exec .doorPathUp s = .next t ∧ t.doorMsgs = [{ d with sent := true }] ∧ t.out = s.out ++ Claims.cellsOn s d p)) ∧
    (Claims.NoWay s d → d.kind ≠ 4 →
      (d.closed = true → exec (.doorRetry d.id) s = .next s ∧ exec .doorPathUp s = .next s) ∧
      (d.closed = false → ∃ t, exec (.bulkMessageClose d.id) s = .next t ∧ t.doorMsgs = [Claims.closing s d] ∧ t.out = s.out))) ∧
  (∀ (p : Fin 40) (n : Nat) (s : State),
    let u := { s with doorUsed := Tbl.set 0 s.doorUsed p.val (Tbl.get 0 s.doorUsed p.val - n) }
    u.credits p = 32768 - (Tbl.get 0 s.doorUsed p.val - n) ∧ (∀ q, q ≠ p.val → u.credits q = s.credits q) ∧
    ((∀ d ∈ s.doorMsgs, d.closed = false ∨ d.sent = true) → exec (.doorCreditReturn p n) s = .next u) ∧
    ∀ d q, s.doorMsgs = [d] → d.closed = true → d.sent = false → d.kind ≠ 4 → d.srcHouse = s.house → Claims.DoorWay u d q →
      ∃ t, exec (.doorCreditReturn p n) s = .next t ∧ t.doorMsgs = [{ d with sent := true }] ∧ t.out = s.out ++ Claims.cellsOn s d q) ∧
  (∀ (i : Nat) (s u : State) (a b : Tensor),
    let l := [(s.slot i).word 2, (s.slot i).word 3]
    let v := u.slot i
    let ra := u.readTensor v false (v.word 2)
    let rb := u.readTensor v true (v.word 3)
    (s.moverReady i 2 = false ∨ (s.slot i).mvGet = false → exec (.bulkGet i) s = .next s) ∧
    (s.moverReady i 2 = true → (s.slot i).mvGet = true →
      (s.moverOff i = true → ∃ t, exec (.bulkGet i) s = .next t ∧ Claims.Ends s t i 0x13 0) ∧
      (s.moverOff i = false → s.fetchTensors i l = (u, false) → exec (.bulkGet i) s = .next u) ∧
      (s.moverOff i = false → s.fetchTensors i l = (u, true) →
        (v.refused = true → ∃ t, exec (.bulkGet i) s = .next t ∧ Claims.Ends u t i 0x15 0) ∧
        (∀ st, v.refused = false → u.getChecks v ra rb = some st → ∃ t, exec (.bulkGet i) s = .next t ∧ Claims.Ends u t i st 0) ∧
        (v.refused = false → ra = .ok a → rb = .ok b → u.getChecks v (.ok a) (.ok b) = none →
          let h := aHouse a.d.base
          let r := aRoom a.d.base
          let off := u.way u.activeB h r = .door ∧ u.unitOff (76 + doorEngineOf (bits (u.houseRoute u.activeB h) 8 0)) = true
          (0 ∈ a.d.size → ∃ t, exec (.bulkGet i) s = .next t ∧ Claims.Ends u t i 0 0) ∧
          (0 ∉ a.d.size → off → ∃ t, exec (.bulkGet i) s = .next t ∧ Claims.Ends u t i 0x13 0) ∧
          (0 ∉ a.d.size → u.way u.activeB h r = .miss → ∃ t, exec (.bulkGet i) s = .next t ∧ (t.slot i).stage = .ended 0 0 ∧ (t.slot i).dead = true ∧
            ∀ n w, Claims.Flat u b n w → 1 ≤ n → a.d.ty = b.d.ty → a.d.block = .none → Claims.Writable u v b.d.base (n * w) →
              t.reg Reg.fabRouteMiss = (u.reg Reg.fabRouteMiss + 1) % 2 ^ 64 ∧ Claims.Stores u t (aOff b.d.base) (List.replicate (n * w) 0xFF)) ∧
          (0 ∉ a.d.size → u.way u.activeB h r ≠ .miss → ¬off → ∃ t, exec (.bulkGet i) s = .next t ∧ t.slot i = { v with stage := .started } ∧
            t.mem = u.mem ∧ ∃ m ∈ t.doorMsgs, m.kind = 1 ∧ m.get = some ⟨i, a, b, [], false⟩ ∧ m.house = h ∧ m.room = r ∧ m.arg0 = 0 ∧
              m.arg1 = sizeOf_ a.d.size ∧ m.closed = true ∧ m.cells.map Cell.payload = [a.d.raw])))))
/-! ## Memory, power, supply, clocks and heat -/

namespace Sys2Proof.Claims

/-- How many channels of a stack are pending for map-out (R354). -/
def pendingOf (s : State) (st : Nat) : Nat := popCount (s.reg (Reg.memChanPending (2 * st))) 64 + popCount (s.reg (Reg.memChanPending (2 * st + 1))) 64

/-- A channel has been made pending; its stack is to be retired where the pending ones outnumber its remaining map-outs (R354). -/
def MadePending (s t : State) (st c : Nat) : Prop :=
  t.flag (Reg.memChanPending (2 * st + c / 64)) (c % 64) = true ∧
  t.flag (Reg.memStackStatus st) 2 = (s.flag (Reg.memStackStatus st) 2 || decide (8 - s.fieldOf (Reg.memStackStatus st) 11 8 < pendingOf t st))

/-- The registers by which a change of a protection is known: the register itself, measurement 4, and the count of keeper firmware's changes (R520, R521). -/
def ProtRegs (s t : State) (o : Nat) : Prop := ∀ x, x ≠ o → x ≠ Reg.secKeeperChanges → (∀ w < 8, x ≠ Reg.secMeas (32 + w)) → t.reg x = s.reg x

end Sys2Proof.Claims

/-- R352–R354: a patrol scrub access counts its bytes; a corrected error is counted; an uncorrectable one stays, is counted, raises the record at every
read, and makes its channel pending at the limit. R340: the throttle stage, with its hysteresis. R353, R354: a channel declared failed gives the error value
from then on, is pending, and is recorded; its first access raises the record, later ones only count; the pending channels of a stack may be more than it can map
out. The operator's request makes a channel pending, is refused where its stack is spent, and changes nothing for a channel mapped out or pending, or before
keeper firmware runs. R2, R337, R344, R521: the operator changes placement and pinned sizes only while no job owns the part, keeper firmware at any time, and its changes
are counted; a slice whose pinned size changes has undefined contents there and no line in its cache.
Choices of the model it rests on: log entries 9, 10, 12, 32, 37, 125, 126. -/
def Obligations.MemoryIsLookedAfter : Prop :=
  (∀ (stack : Fin 16) (chan : Fin 128) (byte : Fin (2 ^ 30)) (err : Fin 3) (s : State),
    let p := dramPlace chan.val (byte.val / 64 * 64) + stack.val * 2 ^ 37
    let cls := Reg.memClassBytes (4 * stack + s.fieldOf Reg.memClassMap 15 14)
    let ce := Reg.memCe (128 * stack + chan)
    let ue := Reg.memUe (128 * stack + chan)
    let off := s.flag Reg.memCtl 2 = false ∨ s.fieldOf Reg.memScrub 15 0 = 0 ∨ s.shedLevel ≠ 0 ∨ s.chanIn stack chan = false
    (off → exec (.patrolScrub stack chan byte err) s = .next s) ∧
    (¬off → s.failed p = false → s.bad p = false → err.val = 0 → ∃ t, exec (.patrolScrub stack chan byte err) s = .next t ∧
      t = { s with regs := t.regs } ∧ Claims.OnlyRegs s t [cls] ∧ t.reg cls = (s.reg cls + 64) % 2 ^ 64) ∧
    (¬off → s.failed p = false → s.bad p = false → err.val = 1 → ∃ t, exec (.patrolScrub stack chan byte err) s = .next t ∧
      t = { s with regs := t.regs } ∧ Claims.OnlyRegs s t [cls, ce] ∧ t.reg ce = (s.reg ce + 1) % 2 ^ 32) ∧
    (¬off → s.failed p = false → s.bad p = true ∨ err.val = 2 → ∃ t, exec (.patrolScrub stack chan byte err) s = .next t ∧ t.bad p = true ∧
      t.reg ue = (s.reg ue + 1) % 2 ^ 32 ∧ t.mem = s.mem ∧ Claims.Recorded s t 0xFF 8 stack ∧
      let lim := s.fieldOf Reg.memErrCfg 7 0
      (lim ≠ 0 → lim ≤ (s.reg ue + 1) % 2 ^ 32 → Claims.MadePending s t stack chan)) ∧
    (¬off → s.failed p = true → ∃ t, exec (.patrolScrub stack chan byte err) s = .next t ∧ t.reg ue = (s.reg ue + 1) % 2 ^ 32 ∧ t.mem = s.mem ∧
      (Tbl.get false s.chanNoted (128 * stack + chan) = false → Tbl.get false t.chanNoted (128 * stack + chan) = true ∧ Claims.Recorded s t 0xFF 8 stack) ∧
      (Tbl.get false s.chanNoted (128 * stack + chan) = true → t = { s with regs := t.regs } ∧ Claims.OnlyRegs s t [cls, ue]))) ∧
  (∀ (stack : Fin 16) (x : Fin 256) (s : State),
    let g := s.fieldOf (Reg.memStackStatus stack) 17 16
    ∃ t, exec (.stackThrottle stack x) s = .next t ∧ t = { s with regs := t.regs } ∧ Claims.OnlyRegs s t [Reg.memStackStatus stack] ∧
      t.fieldOf (Reg.memStackStatus stack) 39 32 = x ∧
      t.fieldOf (Reg.memStackStatus stack) 17 16 =
        (if 105 ≤ x.val then 2 else if 102 < x.val ∧ g = 2 then 2 else if 95 ≤ x.val then 1 else if 92 < x.val ∧ g ≠ 0 then 1 else 0)) ∧
  (∀ (stack : Fin 16) (chan : Fin 128) (s : State),
    let failed := Reg.memChanFailed (2 * stack + chan / 64)
    (s.flag failed (chan % 64) = false → s.chanIn stack chan = true → ∃ t, exec (.channelFailed stack chan) s = .next t ∧
      t.flag failed (chan % 64) = true ∧ Claims.MadePending s t stack chan ∧ t.mem = s.mem ∧ Claims.Recorded s t 0xFF 8 stack ∧
      ∀ o p, t.place o = some p → p < 2 ^ 41 → stackOf p = stack → chanOf p = chan → t.memByte o = 0xFF) ∧
    (s.flag failed (chan % 64) = true ∨ s.chanIn stack chan = false → exec (.channelFailed stack chan) s = .next s)) ∧
  (∀ (v : Word) (s : State),
    let st := bits v.toNat 3 0
    let c := bits v.toNat 14 8
    let pend := Reg.memChanPending (2 * st + c / 64)
    let spent := s.flag (Reg.memStackStatus st) 1 = true ∨ s.flag (Reg.memStackStatus st) 2 = true
    (s.keeperRuns = false → exec (.memMapoutReq v) s = .next s) ∧
    (s.keeperRuns = true → spent → ∃ t, exec (.memMapoutReq v) s = .next t ∧ Claims.Recorded s t 0x15 0 0 ∧ t.mem = s.mem ∧ t.reg pend = s.reg pend) ∧
    (s.keeperRuns = true → ¬spent → s.chanIn st c = false ∨ s.flag pend (c % 64) = true → exec (.memMapoutReq v) s = .next s) ∧
    (s.keeperRuns = true → ¬spent → s.chanIn st c = true → s.flag pend (c % 64) = false → ∃ t, exec (.memMapoutReq v) s = .next t ∧
      t = { s with regs := t.regs } ∧ Claims.MadePending s t st c ∧ Claims.OnlyRegs s t [pend, Reg.memStackStatus st])) ∧
  (∀ (keeper : Bool) (v : Word) (s : State),
    let may := keeper = true ∨ s.owned = false
    (keeper = true → s.keeperRuns = false → exec (.placementWrite keeper v) s = .next s ∧ exec (.larderCfgWrite keeper v) s = .next s) ∧
    ((keeper = true → s.keeperRuns = true) →
      (∃ t, exec (.placementWrite keeper v) s = .next t ∧ t = { s with regs := t.regs } ∧ Claims.ProtRegs s t Reg.memCtl ∧
        t.flag Reg.memCtl 2 = (if keeper then s.flag Reg.memCtl 2 else bit v.toNat 2) ∧ (may → t.flag Reg.memCtl 0 = bit v.toNat 0) ∧
        (¬may → t.flag Reg.memCtl 0 = s.flag Reg.memCtl 0) ∧
        t.reg Reg.secKeeperChanges = (s.reg Reg.secKeeperChanges + if keeper ∧ s.flag Reg.memCtl 0 ≠ bit v.toNat 0 then 1 else 0) % 2 ^ 64) ∧
      (¬may → exec (.larderCfgWrite keeper v) s = .next s) ∧
      (may → ∃ t, exec (.larderCfgWrite keeper v) s = .next t ∧ t.mem = s.mem ∧
        t.reg Reg.secKeeperChanges = (s.reg Reg.secKeeperChanges + if keeper ∧ t.reg Reg.memLarderCfg ≠ s.reg Reg.memLarderCfg then 1 else 0) % 2 ^ 64 ∧
        ∀ m < 4,
          let old := s.fieldOf Reg.memLarderCfg (4 * m + 3) (4 * m)
          let new := bits v.toNat (4 * m + 3) (4 * m)
          t.fieldOf Reg.memLarderCfg (4 * m + 3) (4 * m) = (if new ≤ 12 then new else old) ∧
          (new ≤ 12 → new ≠ old → s.free < Tbl.get 0 t.pinGen m ∧ ∀ e ∈ t.lines, stackOf (128 * e.1) / 4 ≠ m) ∧
          (new = old ∨ 12 < new → Tbl.get 0 t.pinGen m = Tbl.get 0 s.pinGen m))))
namespace Sys2Proof.Claims

/-- The three requests of the operator, by their target (R486). -/
def powerReqs : List (Nat × Instr) := [(0, .powerReqActive), (2, .powerReqNap), (3, .powerReqDeep)]

/-- POWER_STATUS.STATE (R494). -/
def power (s : State) : Nat := s.fieldOf Reg.powerStatus 2 0

/-- A wake begins: its cause is shown and counted, and the cores run on the fast oscillator until the root PLL locks (R490, R491). -/
def WakesUp (s t : State) (cause : Nat) : Prop :=
  power t = 6 ∧ t.fieldOf Reg.powerStatus 31 24 = cause ∧ t.reg Reg.powerWakes = (s.reg Reg.powerWakes + 1) % 2 ^ 64 ∧ t.flag Reg.clkStatus 0 = false ∧
  t.flag Reg.powerStatus 20 = false ∧ t.mem = s.mem ∧ t.wakeHeld = none

/-- The fuse log is within its size, with room for what one command may add, and its entries name what there is. -/
def FusesSound (s : State) : Prop :=
  s.fuses.length ≤ 2000 ∧ ∀ f ∈ s.fuses, (f.kind = 3 → f.target < 2048) ∧ (f.kind = 4 → f.target < 16) ∧ (f.kind = 5 → f.target < 256)

/-- What a wake from DEEP or protected off returns to its reset value, and what it keeps (R254, R487, R492). -/
def DeepWake (s t : State) : Prop :=
  FusesSound s → t.flag Reg.memCtl 0 = s.flag Reg.memCtl 0 ∧ t.reg Reg.fabCoord = s.reg Reg.fabCoord ∧ t.reg Reg.memLarderCfg = s.reg Reg.memLarderCfg ∧
  (∀ r < 4096, t.flag (Reg.ringCfg r) 63 = false) ∧ (∀ r < 32, t.roomDead r = false) ∧ t.hists = []

/-- A source with number `cause` wakes the part from state `st`: from IDLE it is ACTIVE at once; a wake from protected off is held until that may be left
(R479, R490). -/
def Woken (s t : State) (cause : Nat) : Prop :=
  (power s = 1 → power t = 0 ∧ t.fieldOf Reg.powerStatus 31 24 = cause ∧ t = { s with regs := t.regs } ∧
    t.reg Reg.powerWakes = (s.reg Reg.powerWakes + 1) % 2 ^ 64) ∧
  (power s = 2 ∨ power s = 3 ∨ (power s = 4 ∧ s.offOver = true) → WakesUp s t cause) ∧
  (power s = 3 ∨ (power s = 4 ∧ s.offOver = true) → DeepWake s t) ∧
  (power s = 4 → s.offOver = false → t = { s with wakeHeld := some (s.wakeHeld.getD cause) })

end Sys2Proof.Claims

/-- R4, R485–R492: NAP and DEEP are entered at the quiet point of a request that nothing forbids; what each keeps of memory and of the rest stays, what it does not is
lost; a privileged source that occurs meanwhile abandons the entry; a request made meanwhile, or during a wake, is held and acted on afterwards; none is before keeper
firmware runs. IDLE is entered when its event is set and every core is idle. A request of ACTIVE, the board's write and the timer wake the states that R490 names for
them, each wake named and counted; in protected off a wake is held until that may be left. A wake is complete once the root PLL is locked and, from DEEP, stacks and
ports have trained; a stack that fails leaves the table as an epoch of its own, its contents lost.
Choices of the model it rests on: log entries 4, 35, 37, 40, 94, 95. -/
def Obligations.PowerStatesChange : Prop :=
  (∀ s : State, ∀ r ∈ Claims.powerReqs,
    let only := fun (t : State) (h : Option Nat) => t = { s with regs := t.regs, heldReq := h } ∧ Claims.OnlyRegs s t [Reg.powerReq] ∧
      t.fieldOf Reg.powerReq 2 0 = r.1
    (s.keeperRuns = false → ∃ t, exec r.2 s = .next t ∧ only t s.heldReq) ∧
    (s.keeperRuns = true → s.entry ≠ none ∨ Claims.power s = 6 → ∃ t, exec r.2 s = .next t ∧ only t (some r.1)) ∧
    (s.keeperRuns = true → s.entry = none → Claims.power s ≠ 6 →
      (r.1 = Claims.power s ∨ (r.1 = 0 ∧ Claims.power s ∉ [2, 3, 4]) → ∃ t, exec r.2 s = .next t ∧ only t s.heldReq) ∧
      (r.1 = 0 → Claims.power s = 2 ∨ Claims.power s = 3 → ∃ t, exec r.2 s = .next t ∧ Claims.WakesUp s t 6 ∧ (Claims.power s = 3 → Claims.DeepWake s t)) ∧
      (r.1 = 0 → Claims.power s = 4 → s.offOver = true → ∃ t, exec r.2 s = .next t ∧ Claims.WakesUp s t 6 ∧ Claims.DeepWake s t) ∧
      (r.1 = 0 → Claims.power s = 4 → s.offOver = false → ∃ t, exec r.2 s = .next t ∧
        t = { s with regs := t.regs, wakeHeld := some (s.wakeHeld.getD 6) } ∧ Claims.OnlyRegs s t [Reg.powerReq]) ∧
      (let forbidden := s.owned = true ∨ s.anyBusy = true ∨ s.shedLevel ≠ 0 ∨ Claims.power s = 4 ∨ s.flag Reg.fltLatch 0 = true
       (r.1 ≠ 0 → r.1 ≠ Claims.power s → ¬forbidden → ∃ t, exec r.2 s = .next t ∧ t.entry = some r.1 ∧ t.abortDue = false ∧ Claims.power t = 5 ∧
          t.flag Reg.powerStatus 22 = false ∧ t.flag Reg.hostStatus 4 = true ∧ t.fieldOf Reg.powerReq 2 0 = r.1 ∧
          t = { s with regs := t.regs, entry := t.entry, abortDue := t.abortDue }) ∧
       (r.1 ≠ 0 → r.1 ≠ Claims.power s → forbidden → ∃ t, exec r.2 s = .next t ∧ t = { s with regs := t.regs } ∧
          Claims.OnlyRegs s t [Reg.powerReq, Reg.powerStatus] ∧ Claims.power t = Claims.power s ∧ t.flag Reg.powerStatus 22 = true)))) ∧
  (∀ s : State,
    (s.flag Reg.powerTimer 63 = false → exec .cellarTimer s = .next s) ∧
    (s.flag Reg.powerTimer 63 = true → s.entry ≠ none → exec .cellarTimer s = .next { s with abortDue := true }) ∧
    (s.flag Reg.powerTimer 63 = true → s.entry = none → Claims.power s ∈ [1, 2, 3, 4] → ∃ t, exec .cellarTimer s = .next t ∧ Claims.Woken s t 5) ∧
    (s.entry = none → Claims.power s ∉ [1, 2, 3, 4] → exec .cellarTimer s = .next s) ∧
    (s.entry = none → Claims.power s = 2 ∨ Claims.power s = 3 → ∃ t, exec .i3cPrivateWrite s = .next t ∧ Claims.Woken s t 7) ∧
    (s.entry ≠ none ∨ Claims.power s ∉ [2, 3] → exec .i3cPrivateWrite s = .next s)) ∧
  (∀ s : State,
    (s.entry = none ∨ s.quiet = false → exec .stateEntryQuiet s = .next s) ∧
    (s.quiet = true → s.abortDue = false →
      (s.entry = some 2 → s.heldReq = none → ∃ t, exec .stateEntryQuiet s = .next t ∧ t.entry = none ∧ Claims.power t = 2 ∧ t.slots = [] ∧
        (∀ k < 256, (t.core k).run = none ∧ (t.core k).regs = Core.init.regs) ∧ t.ready = s.ready ∧ t.sync = s.sync ∧ t.hists = s.hists ∧ t.refs = s.refs ∧
        (∀ p < 40, t.flag (Reg.fabPortStatus p) 0 = s.flag (Reg.fabPortStatus p) 0) ∧
        ∀ p, Tbl.get 0 t.mem p = if onCompute p then 0 else Tbl.get 0 s.mem p) ∧
      (s.entry = some 3 → s.heldReq = none → ∃ t, exec .stateEntryQuiet s = .next t ∧ t.entry = none ∧ Claims.power t = 3 ∧ t.ready = false ∧
        t.sync = ⟨[], [], [], []⟩ ∧ t.hists = [] ∧ (∀ p < 40, t.flag (Reg.fabPortStatus p) 0 = false ∧ t.flag Reg.geomPortsUp p = false) ∧
        ∀ p, Tbl.get 0 t.mem p = if s.survives p then Tbl.get 0 s.mem p else 0) ∧
      (s.entry = some 2 ∨ s.entry = some 3 → s.heldReq = some 0 → ∃ t, exec .stateEntryQuiet s = .next t ∧ t.entry = none ∧ t.heldReq = none ∧
        Claims.power t = 6 ∧ t.fieldOf Reg.powerStatus 31 24 = 6)) ∧
    (∀ x, s.entry = some x → s.quiet = true → s.abortDue = true → s.heldReq = none → ∃ t, exec .stateEntryQuiet s = .next t ∧
      t = { s with entry := none, abortDue := false, regs := t.regs } ∧ Claims.power t = 0 ∧
      t.reg Reg.powerAborts = (s.reg Reg.powerAborts + 1) % 2 ^ 64)) ∧
  (∀ s : State,
    let may := s.flag Reg.powerCtl 16 = true ∧ s.sync.event (s.fieldOf Reg.powerCtl 9 0) = true ∧ Claims.power s = 0 ∧ s.entry = none ∧
      ∀ e ∈ s.cores, e.2.run = none ∧ e.2.queue = []
    (may → ∃ t, exec .idleEntry s = .next t ∧ t = { s with regs := t.regs } ∧ Claims.power t = 1) ∧
    (¬may → exec .idleEntry s = .next s)) ∧
  (∀ (failed : List (Fin 16)) (ports : List PortUp) (s : State),
    (Claims.power s ≠ 6 ∨ s.flag Reg.clkStatus 0 = false → exec (.wakeComplete failed ports) s = .next s) ∧
    (Claims.power s = 6 → s.flag Reg.clkStatus 0 = true →
      (s.ready = true → s.heldReq = none → ∃ t, exec (.wakeComplete failed ports) s = .next t ∧ t = { s with regs := t.regs } ∧ Claims.power t = 0) ∧
      (s.ready = false → s.heldReq = none → (∀ x ∈ failed, s.flag Reg.geomStacks x = false) → ∃ t, exec (.wakeComplete failed ports) s = .next t ∧
        t.ready = true ∧ Claims.power t = 0 ∧ t.mem = s.mem ∧
        ∀ p ∈ ports, t.flag (Reg.fabPortStatus p.port) 0 = true ∧ Out.coords p.port s.house s.room s.rooms ∈ t.out.drop s.out.length) ∧
      (∀ x : Fin 16, s.ready = false → s.heldReq = none → s.flag Reg.geomStacks x = true → ∃ t, exec (.wakeComplete [x] []) s = .next t ∧ t.ready = true ∧
        Claims.power t = 0 ∧ t.flag Reg.geomStacks x = false ∧ t.reg (Reg.geomStackMib x) = 0 ∧ t.flag (Reg.memStackStatus x) 2 = true ∧
        t.reg Reg.geomEpoch = (s.fieldOf Reg.geomEpoch 31 0 + 2) % 2 ^ 32 ∧ Claims.Recorded s t 0 0 0 ∧
        ∀ p, Tbl.get 0 t.mem p = if p < 2 ^ 41 ∧ stackOf p = x.val then 0 else Tbl.get 0 s.mem p) ∧
      (s.ready = true → s.heldReq = some 2 → s.owned = false → s.anyBusy = false → s.shedLevel = 0 → s.flag Reg.fltLatch 0 = false →
        ∃ t, exec (.wakeComplete failed ports) s = .next t ∧ t.entry = some 2 ∧ Claims.power t = 5 ∧ t.heldReq = none)))
namespace Sys2Proof.Claims

/-- A record of source kind 12, the supply, with this status and info (R475, R497). -/
def SupplyRecorded (s t : State) (status info : Nat) : Prop :=
  ∃ f, t.heldFaults.getLast? = some f ∧ f.status = status ∧ f.info = info ∧ f.kind = 12 ∧ f.fseq = nextSeq (s.fieldOf Reg.hostSeq 63 32)

/-- The record of a thermal trip is the last; where the same reading raised the alarm, the alarm's came before it (R502). -/
def TripRecorded (s t : State) (alarm : Bool) : Prop :=
  ∃ f, t.heldFaults.getLast? = some f ∧ f.status = 0xFF ∧ f.kind = 0 ∧ f.index = 0 ∧
    f.fseq = (if alarm then nextSeq (nextSeq (s.fieldOf Reg.hostSeq 63 32)) else nextSeq (s.fieldOf Reg.hostSeq 63 32))

/-- A change of shed level wakes the part, with cause 4, or abandons an entry (R489, R490); `deep` says that it wakes DEEP too. -/
def ShedWakes (s t : State) (deep : Bool) : Prop :=
  (s.entry ≠ none → t.abortDue = true ∧ power t = power s) ∧
  (s.entry = none →
    (power s = 1 → power t = 0 ∧ t.fieldOf Reg.powerStatus 31 24 = 4) ∧ (power s = 2 → WakesUp s t 4) ∧
    (power s = 3 → deep = true → WakesUp s t 4) ∧
    (power s = 3 → deep = false → power t = 3 ∧ t.fieldOf Reg.powerStatus 31 24 = 4 ∧ t.reg Reg.powerWakes = (s.reg Reg.powerWakes + 1) % 2 ^ 64))

/-- Protected off has been entered (R478): every port is down, what R487 does not keep is lost, every ring is disabled, and start-up is to come. -/
def ProtectedOff (s t : State) : Prop :=
  power t = 4 ∧ t.ready = false ∧ t.entry = none ∧ (∀ p, Tbl.get 0 t.mem p = if s.survives p then Tbl.get 0 s.mem p else 0) ∧
  (∀ r < 4096, t.flag (Reg.ringCfg r) 63 = false) ∧ ∀ p < 40, t.flag (Reg.fabPortStatus p) 0 = false ∧ t.flag Reg.geomPortsUp p = false

/-- What a write of CLK_CTL does (R480, R481, R491). -/
def ClkWritten (s t : State) (v : Nat) : Prop :=
  t = { s with regs := t.regs } ∧ t.flag Reg.clkCtl 8 = bit v 8 ∧
  t.fieldOf Reg.clkCtl 2 0 = (if s.flag Reg.geomClockSteps (bits v 2 0) ∧ bits v 2 0 ≤ 4 then bits v 2 0 else s.fieldOf Reg.clkCtl 2 0) ∧
  t.flag Reg.powerStatus 20 = ((bit v 16 && s.flag Reg.clkStatus 0) || s.flag Reg.powerStatus 20) ∧
  t.fieldOf Reg.powerStatus 18 16 = t.effStep % 8

end Sys2Proof.Claims

/-- R472–R475, R478–R483, R490, R491, R502, R503: the supply's samples, averaged and accumulated; the shed level with its counts, its records and the wakes it
makes; protected off at the fifth threshold; the power cap's and the heat's steps, and the heat's alarm and trip; telemetry's record, or its count where the ring
is full; the core clock's step, reference and source; the root PLL and the loss of its reference; the fault latch with its record, and protected off at the loss of
root lock, no descriptor then being cancelled. R471: a close of the hot-swap stage is a power-up; an open stage loses all contents.
Choices of the model it rests on: log entries 95 to 99. -/
def Obligations.SupplyClocksAndHeat : Prop :=
  (∀ (x : Fin 5) (s : State),
    (bit s.tripped x = true → exec (.shedTrip x) s = .next s) ∧
    (bit s.tripped x = false → exec (.shedClear x) s = .next s) ∧
    (bit s.tripped x = false → s.shedLevel < 4 → ∃ t, exec (.shedTrip x) s = .next t ∧ bit t.tripped x = true ∧ t.shedLevel = s.shedLevel + 1 ∧
      t.fieldOf Reg.powerStatus 10 8 = s.shedLevel + 1 ∧ t.fieldOf Reg.powerStatus 18 16 = t.effStep % 8 ∧ t.flag Reg.dipStatus 0 = true ∧
      (s.shedLevel = 3 → t.flag Reg.hostStatus 4 = true) ∧ Claims.SupplyRecorded s t 0 (s.shedLevel + 9) ∧ Claims.ShedWakes s t false ∧
      t.reg (Reg.powerShedCount s.shedLevel) = (s.reg (Reg.powerShedCount s.shedLevel) + 1) % 2 ^ 64) ∧
    (bit s.tripped x = false → s.shedLevel = 4 → ∃ t, exec (.shedTrip x) s = .next t ∧ Claims.ProtectedOff s t ∧ Claims.SupplyRecorded s t 0x30 13 ∧
      t.reg (Reg.powerShedCount 4) = (s.reg (Reg.powerShedCount 4) + 1) % 2 ^ 64 ∧
      (s.flag Reg.fltLatch 0 = false → ∀ e ∈ s.slots, (t.slot e.1).stage = .ended 0x13 0)) ∧
    (bit s.tripped x = true → s.wakeHeld = none → ∃ t, exec (.shedClear x) s = .next t ∧ bit t.tripped x = false ∧
      t.fieldOf Reg.powerStatus 10 8 = s.shedLevel - 1 ∧ Claims.SupplyRecorded s t 0 (s.shedLevel - 1) ∧ (Claims.power s ≠ 4 → Claims.ShedWakes s t true) ∧
      (s.entry = none → Claims.power s = 4 → s.shedLevel = 1 → s.tooHot = false → Claims.WakesUp s t 4)) ∧
    (∀ c, bit s.tripped x = true → s.wakeHeld = some c → s.entry = none → Claims.power s = 4 → s.shedLevel = 2 →
      ∃ t, exec (.shedClear x) s = .next t ∧ Claims.power t = 4 ∧ t.wakeHeld = some c)) ∧
  (∀ (v i p : Fin 65536) (s : State), ∃ t, exec (.inputSample v i p) s = .next t ∧ t.inputs = ((v.val, i.val, p.val) :: s.inputs).take 10000 ∧
    t.energy = s.energy + p ∧ t.reg Reg.powerEnergy = (s.energy + p) / 100000 % 2 ^ 64 ∧ Claims.OnlyRegs s t [Reg.powerInput, Reg.powerEnergy] ∧
    t = { s with inputs := t.inputs, energy := t.energy, regs := t.regs, free := t.free } ∧
    let l := ((v.val, i.val, p.val) :: s.inputs).take 10
    ∀ a b c, (l.map fun x => x.1).sum = l.length * a → (l.map fun x => x.2.1).sum = l.length * b → (l.map fun x => x.2.2).sum = l.length * c →
      t.reg Reg.powerInput = (c * 2 ^ 48 + b * 2 ^ 16 + a) % 2 ^ 64) ∧
  (∀ s : State,
    let w := s.fieldOf Reg.powerCap 23 16
    let l := (s.inputs.take (100 * w)).map fun x => x.2.2
    let cap := s.fieldOf Reg.powerCap 12 0
    let above := cap * l.length < l.sum
    let low := 100 * l.sum < 97 * cap * l.length
    let below := if low then s.capBelow + 1 else 0
    let step := if above then s.slower s.capStep
      else if 10 * w ≤ below ∧ s.fieldOf Reg.clkCtl 2 0 ≤ s.faster s.capStep then s.faster s.capStep else s.capStep
    ∃ t, exec .capCheck s = .next t ∧ t = { s with capStep := step, capBelow := below, regs := t.regs } ∧
      (t.flag Reg.powerStatus 21 = true ↔ above ∧ s.slower s.capStep = s.capStep) ∧
      t.reg Reg.powerCapSteps = (s.reg Reg.powerCapSteps + if step = s.capStep then 0 else 1) % 2 ^ 64) ∧
  (∀ s : State,
    let may := s.flag Reg.telemCfg 63 = true ∧ s.fieldOf Reg.powerCtl 63 48 ≠ 0 ∧ s.shedLevel = 0 ∧ s.linkUp = true
    let free := s.ringFree Reg.telemCfg Reg.telemTail Reg.telemHead
    (¬may → exec .telemetryRecord s = .next s) ∧
    (may → free = false → ∃ t, exec .telemetryRecord s = .next t ∧ t = { s with tlost := s.tlost + 1, regs := t.regs } ∧
      Claims.OnlyRegs s t [Reg.telemLost] ∧ t.reg Reg.telemLost = (s.reg Reg.telemLost + 1) % 2 ^ 64) ∧
    (may → free = true → ∃ t, exec .telemetryRecord s = .next t ∧
      let a := s.reg Reg.telemBase + 64 * s.reg Reg.telemTail
      t.hostRead a 40 = leBytes 8 s.now ++ leBytes 4 (nextSeq s.tseq) ++ leBytes 4 s.tlost ++ leBytes 8 (s.reg Reg.powerInput) ++
        leBytes 8 (s.reg Reg.powerEnergy) ++ leBytes 8 (s.reg Reg.powerStatus) ∧
      t.hostRead (a + 0x28) 4 = leBytes 2 (s.hottest.1 / 4 * 2 ^ 8 + s.hottest.2) ++ leBytes 2 (s.hotStack.1 * 2 ^ 8 + s.hotStack.2) ∧
      t.hostRead (a + 0x2E) 18 = leBytes 2 (s.fieldOf Reg.powerCap 12 0) ++ leBytes 16 0 ∧
      (∀ x, ¬(a ≤ x ∧ x < a + 64) → t.hostByte x = s.hostByte x) ∧
      t.reg Reg.telemTail = (s.reg Reg.telemTail + 1) % s.ringSize Reg.telemCfg ∧ t.tseq = nextSeq s.tseq ∧ t.tlost = 0 ∧ t.mem = s.mem)) ∧
  (∀ (l : List (Fin 256)) (s : State),
    let alarm := s.fieldOf Reg.thermCfg 15 8
    let trip := s.fieldOf Reg.thermCfg 23 16
    (l.length ≠ 100 → exec (.thermalSample l) s = .fault .malformed) ∧
    (l.length = 100 → s.temps = [] →
      (s.wakeHeld = none → (∀ x ∈ l, x.val ≤ alarm ∧ x.val ≤ trip) → ∃ t, exec (.thermalSample l) s = .next t ∧ t.alarmed = false ∧
        ∀ n < 100, t.fieldOf (Reg.thermC n) 7 0 = (l.getD n 0).val) ∧
      ((∀ x ∈ l, x.val ≤ trip) → (∃ x ∈ l, alarm < x.val) → ∃ t, exec (.thermalSample l) s = .next t ∧ t.alarmed = true ∧ t.thermStep = 4 ∧
        (s.alarmed = false → Claims.Recorded s t 0xFF 0 0 ∧ (s.entry ≠ none → t.abortDue = true) ∧
          (s.entry = none → Claims.power s = 1 → Claims.power t = 0) ∧ (s.entry = none → Claims.power s = 2 ∨ Claims.power s = 3 → Claims.power t = 6))) ∧
      (Claims.power s ≠ 4 → (∃ x ∈ l, trip < x.val) → ∃ t, exec (.thermalSample l) s = .next t ∧ Claims.ProtectedOff s t ∧ t.tooHot = true ∧
        Claims.TripRecorded s t (!s.alarmed && l.any fun x => decide (alarm < x.val))) ∧
      (Claims.power s = 4 → (∃ x ∈ l, trip < x.val) → ∃ t, exec (.thermalSample l) s = .next t ∧ Claims.power t = 4 ∧ t.tooHot = true ∧ t.mem = s.mem))) ∧
  (∀ s : State,
    let hot := s.hottest.2
    let step := if s.fieldOf Reg.thermCfg 7 0 < hot then s.slower s.thermStep
      else if hot + 3 ≤ s.fieldOf Reg.thermCfg 7 0 then s.faster s.thermStep else s.thermStep
    (hot ≤ s.fieldOf Reg.thermCfg 15 8 → hot ≤ s.fieldOf Reg.thermCfg 23 16 → s.wakeHeld = none → ∃ t, exec .thermalStep s = .next t ∧
      t.thermStep = step ∧ t.fieldOf Reg.powerStatus 18 16 = t.effStep % 8 ∧ t = { s with thermStep := step, alarmed := false, regs := t.regs }) ∧
    (s.fieldOf Reg.thermCfg 15 8 < hot → hot ≤ s.fieldOf Reg.thermCfg 23 16 → s.alarmed = true → ∃ t, exec .thermalStep s = .next t ∧
      t = { s with thermStep := 4, regs := t.regs })) ∧
  (∀ (v : Word) (s : State), (∃ t, exec (.coreStepWrite v) s = .next t ∧ Claims.ClkWritten s t v.toNat) ∧
    ∃ t, exec (.coreSrc v) s = .next t ∧ Claims.ClkWritten s t (setBits v.toNat 16 16 1)) ∧
  (∀ s : State,
    let may := s.flag Reg.clkStatus 0 = false ∧ s.flag Reg.fltLatch 0 = false ∧ s.powered = true
    (¬may → exec .rootPllLock s = .next s) ∧
    (may → ∃ t, exec .rootPllLock s = .next t ∧ t.flag Reg.clkStatus 0 = true ∧ (Claims.power s ≠ 6 → t.flag Reg.powerStatus 20 = true) ∧
      (Claims.power s = 6 → t.flag Reg.powerStatus 20 = s.flag Reg.powerStatus 20) ∧
      t.flag Reg.clkStatus 1 = (if s.ready then s.flag Reg.clkStatus 1 else s.flag Reg.clkCtl 8 && s.flag Reg.clkStatus 2) ∧
      (s.reg Reg.secBootStatus = 0 → s.linkUp = true → t.reg Reg.secBootStatus = 1) ∧
      (s.reg Reg.secBootStatus ≠ 0 ∨ s.linkUp = false → t.reg Reg.secBootStatus = s.reg Reg.secBootStatus))) ∧
  (∀ s : State,
    (s.flag Reg.clkStatus 1 = true → ∃ t, exec .refclkLoss s = .next t ∧ t.flag Reg.clkStatus 2 = false ∧ t.flag Reg.clkStatus 1 = false ∧
      t.flag Reg.clkStatus 0 = s.flag Reg.clkStatus 0 ∧ Claims.Recorded s t 0xFF 12 0) ∧
    (s.flag Reg.clkStatus 1 = false → ∃ t, exec .refclkLoss s = .next t ∧ t = { s with regs := t.regs } ∧ t.flag Reg.clkStatus 2 = false ∧
      Claims.OnlyRegs s t [Reg.clkStatus]) ∧
    ∃ t, exec .refclkReturn s = .next t ∧ t = { s with regs := t.regs } ∧ t.flag Reg.clkStatus 2 = true ∧ t.flag Reg.clkStatus 1 = s.flag Reg.clkStatus 1 ∧
      Claims.OnlyRegs s t [Reg.clkStatus]) ∧
  (∀ (x : Word) (s : State), s.flag Reg.fltLatch 0 = false →
    (∀ r ∈ [(2, Instr.heartbeatMiss x), (1, Instr.lockstepMismatch x)], ∃ t, exec r.2 s = .next t ∧ t.flag Reg.fltLatch 0 = true ∧
      t.flag Reg.fltLatch r.1 = true ∧ t.flag Reg.hostStatus 4 = true ∧ t.mem = s.mem ∧ t.slots = s.slots ∧ Claims.Recorded s t 0xFF 0 0) ∧
    (s.flag Reg.clkStatus 0 = true → ∃ t, exec .rootLockLoss s = .next t ∧ t.flag Reg.fltLatch 0 = true ∧ t.flag Reg.fltLatch 3 = true ∧
      Claims.ProtectedOff s t ∧ t.slots = s.slots ∧ t.flag Reg.clkStatus 0 = false ∧ t.flag Reg.powerStatus 20 = false ∧ Claims.Recorded s t 0xFF 0 0) ∧
    (s.flag Reg.clkStatus 0 = false → exec .rootLockLoss s = .next s)) ∧
  (∀ (x : Word) (s : State), s.flag Reg.fltLatch 0 = true →
    ∀ r ∈ [Instr.heartbeatMiss x, .lockstepMismatch x, .rootLockLoss, .rootPllLock], exec r s = .next s) ∧
  (∀ s : State,
    let outside := fun (t : State) => t.fuses = s.fuses ∧ t.hostMem = s.hostMem ∧ t.pending = s.pending ∧ t.out = s.out ∧ t.production = s.production
    (s.power = true → exec .powerUp s = .next s) ∧
    (s.power = false → ∃ t, exec .powerUp s = .next t ∧ t.power = true ∧ t.mem = [] ∧ t.cores = [] ∧ t.slots = [] ∧ outside t) ∧
    ∃ t, exec .hotSwapOpen s = .next t ∧ t.power = false ∧ t.mem = [] ∧ t.cores = [] ∧ t.slots = [] ∧ outside t)
/-! ## Units, register writes, start-up, security, sideband -/

namespace Sys2Proof.Claims

/-- Measurement register `r` has been extended with data (R520). -/
def Measured (s t : State) (r : Nat) (d : List Byte) : Prop :=
  ∀ w < 8, t.reg (Reg.secMeas (8 * r + w)) = leNat (((shake256 (s.meas r ++ d)).drop (8 * w)).take 8)

/-- A protection at offset `o` has gone from `old` to `new` (R520, R521): a change extends measurement 4 and, where keeper firmware makes it, is
counted; nothing else of the registers changes but the register `o` or `r` itself. -/
def ProtChanged (s t : State) (keeper : Bool) (r o old new : Nat) : Prop :=
  ProtRegs s t r ∧ t.reg Reg.secKeeperChanges = (s.reg Reg.secKeeperChanges + if keeper ∧ old ≠ new then 1 else 0) % 2 ^ 64 ∧
  (old = new → ∀ w < 8, t.reg (Reg.secMeas (32 + w)) = s.reg (Reg.secMeas (32 + w))) ∧
  (old ≠ new → Measured s t 4 (leBytes 8 o ++ leBytes 8 old ++ leBytes 8 new ++ leBytes 8 s.now))

/-- Registers whose write of 8 bytes is a command of its own (R95, R337, R344, R354, R383, R386, R401, R464, R467, R473, R491, R504, R515, R518, R520, R524). -/
def IsCommand (v : Word) (r : Nat × Instr) : Prop :=
  r ∈ [(Reg.geomCtl, .advance v), (Reg.clkCtl, .coreStepWrite v), (Reg.fabPortMask, .portMaskWrite v), (Reg.fabEpoch, .swap v)] ++
  [(Reg.fabRoomDead, .roomDeadClear v), (Reg.fabCoord, .fabCoordWrite v), (Reg.memCtl, .placementWrite false v), (Reg.memLarderCfg, .larderCfgWrite false v)] ++
  [(Reg.memMapoutReq, .memMapoutReq v), (Reg.dipCtl, .dipCtlWrite false v), (Reg.fltAlert, .fltAlertClear v), (Reg.secRollbackReq, .secRollbackReq v)] ++
  [(Reg.secAttest, .secAttestGo v), (Reg.secExtend, .secExtend v), (Reg.secFwGo, .secFwGo v []), (Reg.irqPending, .irqPendingClear v)] ++
  [(Reg.irqMask, .irqMaskWrite v), (Reg.telemHead, .telemHeadWrite v), (Reg.fltCfg, .cqCfgWrite 256 v), (Reg.fltHead, .cqHeadWrite 256 v)]

/-- Registers that keep what is written in their fields: offset, how many, the bits that are fields (R96, R257, R274, R330, R331, R356, R387, R470, R494, R525). -/
def plainRegs : List (Nat × Nat × Nat) :=
  [(Reg.cqBase 0, 256, 0x3FFFFFFFF000), (Reg.fltBase, 1, 0x3FFFFFFFF000), (Reg.cqShadow 0, 256, 0x3FFFFFFFFFF8), (Reg.fltShadow, 1, 0x3FFFFFFFFFF8)] ++
  [(Reg.powerRetain, 1, 0xFFFFF), (Reg.powerTimer, 1, 0x80000000FFFFFFFF), (Reg.powerRetainCores 0, 4, 0xFFFFFFFFFFFFFFFF), (Reg.telemBase, 1, 0x3FFFFFFFF000)] ++
  [(Reg.dipSeed, 1, 0xFFFFFFFFFFFFFFFF), (Reg.dipTStatic 0, 8, 0xFFFFFFFF), (Reg.dipTFloor 0, 8, 0xFFFFFFFF), (Reg.fabCtl, 1, 3)] ++
  [(Reg.memClassMap, 1, 0xFFFF), (Reg.memScrub, 1, 0xFFFF), (Reg.memErrCfg, 1, 0xFF), (Reg.sclCfg 0, 1024, 0x73F), (Reg.panLowWater 0, 64, 0x3FF000FFFFF)] ++
  [(Reg.sluRrBase, 1, 0x1FFFFFFFFC0), (Reg.sluLayerBase, 1, 0x1FFFFFFFFC0), (Reg.sluRrCount, 1, 0xFFFFFF), (Reg.sluRrWater, 1, 0x3FF00FFFFFF)] ++
  [(Reg.sluPools 0, 256, 0x3F3F), (Reg.sluLayerCount, 1, 0x1FF), (Reg.secFwAddr, 1, 0x3FFFFFFFF000), (Reg.secAttestAddr, 1, 0x3FFFFFFFF000)] ++
  [(Reg.secFwLen, 1, 0xFFFFFF), (Reg.secNonce 0, 4, 0xFFFFFFFFFFFFFFFF), (Reg.secExtData 0, 8, 0xFFFFFFFFFFFFFFFF)]

/-- Windows of R390 and R444: offset, how many, the bits that are fields. -/
def windowRegs : List (Nat × Nat × Nat) :=
  [(Reg.hwinLo 0, 8, 0xE0003FFFFFFFF000), (Reg.hwinHi 0, 8, 0x3FFFFFFFF000), (Reg.owinScope 0, 32, 0xFFFFFFFFFFFFFFFF)] ++
  [(Reg.owinRange 0, 32, 0xF3FFFFFFFFFFFFFF), (Reg.iwinScope 0, 32, 0xFFFFFFFFFFFFFFFF), (Reg.iwinRange 0, 32, 0xF3FFFFFFFFFFFFFF)]

/-- Fields that take only what lies in their range: offset, highest bit (the lowest is 0), least, greatest (R299, R373, R399, R470). -/
def rangedRegs : List (Nat × Nat × Nat × Nat) :=
  [(Reg.linkCtl, 15, 10, 60000), (Reg.fabRetry, 15, 10, 1000), (Reg.fabTarget, 15, 20, 10000), (Reg.sluGenHold, 13, 20, 10000)] ++
  [(Reg.sluCountTimeout, 13, 20, 10000)]

/-- Routing tables: whether of table B, offset, how many entries, the bits that are fields (R364, R387). -/
def routeRegs : List (Bool × Nat × Nat × Nat) :=
  [(false, Reg.roomRouteA 0, 32, 0x11F), (false, Reg.houseRouteA 0, 65536, 0x31F01FF), (true, Reg.roomRouteB 0, 32, 0x11F)] ++
  [(true, Reg.houseRouteB 0, 65536, 0x31F01FF)]

/-- Registers that are read-only: offset, how many. -/
def readOnlyRegs : List (Nat × Nat) :=
  [(Reg.geomId, 2), (Reg.geomCause, 12), (Reg.geomCoreMap 0, 256), (Reg.geomChanMap 0, 32), (Reg.geomStackMib 0, 16), (Reg.geomFuseLog 0, 8192)] ++
  [(Reg.hostStatus, 1), (Reg.hostSeq, 1), (Reg.linkStatus, 1), (Reg.dbDropped, 4), (Reg.ringHead 0, 4096), (Reg.ringTail 0, 4096), (Reg.cqTail 0, 256)] ++
  [(Reg.fltTail, 1), (Reg.qeCtx 0, 512), (Reg.powerStatus, 1), (Reg.clkStatus, 1), (Reg.powerInput, 2), (Reg.powerShedCount 0, 5), (Reg.powerAborts, 3)] ++
  [(Reg.telemTail, 1), (Reg.telemLost, 1), (Reg.fltLatch, 1), (Reg.unitState 0, 84), (Reg.thermC 0, 100), (Reg.sramCe 0, 260), (Reg.sramUe 0, 260)] ++
  [(Reg.dipStatus, 1), (Reg.dipCount 0, 128), (Reg.dipMean 0, 128), (Reg.dipVar 0, 128), (Reg.dipQerr 0, 128), (Reg.dipMismatches 0, 256)] ++
  [(Reg.fabPortStatus 0, 40), (Reg.fabSpills, 14), (Reg.fabTimeouts, 8), (Reg.colDone, 12), (Reg.memStackStatus 0, 16), (Reg.memChanFailed 0, 32)] ++
  [(Reg.memChanPending 0, 32), (Reg.memClassBytes 0, 64), (Reg.larderHits 0, 16), (Reg.memCe 0, 2048), (Reg.memUe 0, 2048), (Reg.moverStatus 0, 28)] ++
  [(Reg.sclState 0, 1024), (Reg.sclCur 0, 1024), (Reg.sclSat 0, 1024), (Reg.sclFlush 0, 1024), (Reg.sclNonfinite 0, 1024), (Reg.sclRing 0, 65536)] ++
  [(Reg.rngStep, 1), (Reg.rngConv 0, 96), (Reg.updDone, 7), (Reg.panFree 0, 64), (Reg.panAllocs 0, 256), (Reg.sluRrLive, 1), (Reg.sluRound 0, 64)] ++
  [(Reg.sluTried, 11), (Reg.sluRetries, 5), (Reg.secBootStatus, 1), (Reg.secRollback, 1), (Reg.secKeys, 1), (Reg.secDebug, 1), (Reg.secKeeperChanges, 1)] ++
  [(Reg.secIdPk 0, 8), (Reg.secMeas 0, 64)]

/-- Registers of every CORE block that are read-only (R121, R159, R181, R240). -/
def readOnlyCore : List (Nat × Nat) := [(0x8, 4), (0x100, 5), (0x3000, 2), (0x3018, 6), (0x3100, 6), (0x3200, 3), (0x3220, 8)]

/-- A write of 8 bytes at `off` has left the register there with `x`, and changed nothing else. -/
def Takes (v : Word) (off : Fin 67108864) (s : State) (x : Nat) : Prop :=
  ∃ t, exec (.registerWrite false off 8 v) s = .next t ∧ t = { s with regs := t.regs } ∧ t.reg off.val = x ∧ OnlyRegs s t [off.val]

end Sys2Proof.Claims

/-- R505, R520, R521: disabling a unit makes it drain and cancels what it executes, its rings and their descriptors or its own descriptors; one that has failed is
marked, by keeper firmware; drained, it is disabled; only one disabled without failure is enabled; each change extends measurement 4. R2, R3, R441: a write of
a set-up register is of 8 or of 4 bytes, aligned, and one of 4 bytes changes one half; read-only and unmapped registers take none, reserved bits stay 0, and
fields outside their range stay; many registers are commands of their own; a ring's base is kept while the ring is enabled, a pool's while it is in service, and an
entry of the draining table stays. Keeper firmware, once it runs, changes each protection, and no other register in this way.
Choices of the model it rests on: log entries 41 to 46, 125. -/
def Obligations.UnitsAndRegisterWrites : Prop :=
  (∀ (u : Fin 128) (failed : Bool) (s : State),
    let r := Reg.unitState u
    (83 < u.val → exec (.unitDisable u failed) s = .next s ∧ exec (.unitEnable u) s = .next s) ∧
    (u.val ≤ 83 → s.unitOff u = false → ∃ t, exec (.unitDisable u failed) s = .next t ∧ t.fieldOf r 1 0 = 1 ∧
      t.flag r 2 = (failed || s.flag r 2) ∧ t.reg Reg.secKeeperChanges = (s.reg Reg.secKeeperChanges + if failed then 1 else 0) % 2 ^ 64 ∧
      Claims.Measured s t 4 (leBytes 8 Reg.unitCmd ++ leBytes 8 u.val ++ leBytes 8 (u.val + 2 ^ 16) ++ leBytes 8 s.now) ∧
      (u.val < 64 → (∀ e ∈ s.slots, e.1 < s.nextSlot) → ∀ n ∈ s.ringsOf u, n ∉ s.ringStop → t.flag (Reg.ringCfg n) 63 = false ∧
        ∀ i, (s.slot i).ring = n → (s.slot i).words ≠ [] → (∀ st info, (s.slot i).stage ≠ .ended st info) →
          (t.slot i).cancelled = true ∧ ((s.slot i).opcode ≠ 1 ∨ (s.slot i).step = 0 → ∃ info, (t.slot i).stage = .ended 0x13 info)) ∧
      (64 ≤ u.val → ∀ i, (s.slot i).onUnit u = true → (s.slot i).stage = .started ∨ ((s.slot i).stage = .ready ∧ (s.slot i).step ≠ 0) →
        ∃ info, (t.slot i).stage = .ended 0x13 info) ∧
      (76 ≤ u.val → t = { s with regs := t.regs } ∧ Claims.ProtRegs s t r)) ∧
    (u.val ≤ 83 → s.unitOff u = true → exec (.unitDisable u false) s = .next s ∧ ∃ t, exec (.unitDisable u true) s = .next t ∧
      t = { s with regs := t.regs } ∧ t.flag r 2 = true ∧ t.fieldOf r 1 0 = s.fieldOf r 1 0 ∧ Claims.OnlyRegs s t [r]) ∧
    (u.val ≤ 83 → s.fieldOf r 2 0 = 2 → ∃ t, exec (.unitEnable u) s = .next t ∧ t = { s with regs := t.regs } ∧ t.unitOff u = false ∧
      Claims.ProtChanged s t false r Reg.unitCmd (u.val + 2 ^ 16) u.val) ∧
    (s.fieldOf r 2 0 ≠ 2 → exec (.unitEnable u) s = .next s)) ∧
  (∀ (u : Fin 84) (s : State),
    (s.fieldOf (Reg.unitState u) 1 0 = 1 → s.unitIdle u = true → ∃ t, exec (.unitDrained u) s = .next t ∧ t = { s with regs := t.regs } ∧
      t.fieldOf (Reg.unitState u) 1 0 = 2 ∧ t.flag (Reg.unitState u) 2 = s.flag (Reg.unitState u) 2 ∧ Claims.OnlyRegs s t [Reg.unitState u]) ∧
    (s.fieldOf (Reg.unitState u) 1 0 ≠ 1 ∨ s.unitIdle u = false → exec (.unitDrained u) s = .next s)) ∧
  (∀ (off : Fin 67108864) (size : Nat) (v : Word) (s : State),
    let wr := exec (.registerWrite false off size v) s
    let low := v.toNat % 2 ^ 32
    let w1c := off.val = Reg.irqPending ∨ off.val = Reg.fltAlert ∨ off.val = Reg.fabRoomDead ∨ ∃ n < 128, off.val = Reg.dipWorst n
    (size ≠ 8 → size ≠ 4 → wr = .next s) ∧ (off.val % size ≠ 0 → wr = .next s) ∧
    (∀ x : Word, size = 4 → off.val % 8 = 0 → (¬w1c → x.toNat = s.readReg off.val / 2 ^ 32 * 2 ^ 32 + low) → (w1c → x.toNat = low) →
      wr = exec (.registerWrite false off 8 x) s) ∧
    (∀ (o : Fin 67108864) (x : Word), size = 4 → off.val = o.val + 4 → o.val % 8 = 0 →
      let whole := o.val = Reg.hostCancel ∨ o.val = Reg.powerReq ∨ o.val = Reg.unitCmd ∨ o.val = Reg.memMapoutReq ∨ o.val = Reg.secFwGo ∨ o.val = Reg.secReset ∨
        o.val = Reg.secRollbackReq ∨ o.val = Reg.secAttest ∨ o.val = Reg.secExtend
      let w1c := o.val = Reg.irqPending ∨ o.val = Reg.fltAlert ∨ o.val = Reg.fabRoomDead ∨ ∃ n < 128, o.val = Reg.dipWorst n
      (whole → wr = .next s) ∧
      (∀ h : Fin 1024, o.val = Reg.sclSeed h → wr = if bit v.toNat 31 then exec (.sclSeedClear h) s else .next s) ∧
      (¬whole → (∀ h < 1024, o.val ≠ Reg.sclSeed h) → (¬w1c → x.toNat = low * 2 ^ 32 + s.readReg o.val % 2 ^ 32) → (w1c → x.toNat = low * 2 ^ 32) →
        wr = exec (.registerWrite false o 8 x) s))) ∧
  (∀ (off : Fin 67108864) (v : Word) (s : State),
    let wr := exec (.registerWrite false off 8 v) s
    let x := v.toNat
    let field := fun (hi lo a b : Nat) => if a ≤ bits x hi lo ∧ bits x hi lo ≤ b then bits x hi lo else s.fieldOf off.val hi lo
    (regMapped off = false → wr = .next s) ∧
    (∀ e ∈ Claims.readOnlyRegs, ∀ n < e.2, off.val = e.1 + 8 * n → wr = .next s) ∧
    (∀ k < 256, ∀ e ∈ Claims.readOnlyCore, ∀ n < e.2, off.val = Reg.coreBlock k + e.1 + 8 * n → wr = .next s) ∧
    (∀ r, Claims.IsCommand v r → off.val = r.1 → wr = exec r.2 s) ∧
    (∀ n : Fin 4096, off.val = Reg.ringCfg n → wr = exec (.ringCfgWrite false n v) s) ∧
    (∀ m : Fin 257, m.val < 256 → (off.val = Reg.cqCfg m → wr = exec (.cqCfgWrite m v) s) ∧ (off.val = Reg.cqHead m → wr = exec (.cqHeadWrite m v) s)) ∧
    (∀ k : Fin 256, (off.val = Reg.coreCtl k → wr = exec (.halt k v) s) ∧ (off.val = Reg.arrayCtl k → wr = exec (.testNow k v) s)) ∧
    (∀ h : Fin 1024, off.val = Reg.sclSeed h → wr = if bit x 63 then exec (.sclSeedClear h) s else exec (.sclSeedValue h (v.setWidth 32)) s) ∧
    (∀ p : Fin 64, off.val = Reg.panCfg p → wr = if bit x 63 then exec (.poolEnable p v) s else exec (.poolDisable p v) s) ∧
    (off.val = Reg.hostJob → wr = if bit x 63 then exec (.jobAssign v) s else exec .jobRelease s) ∧
    (∀ n : Fin 4096, off.val = Reg.hostCancel → n.val = bits x 11 0 → wr = if bit x 12 then exec .cancelAll s else exec (.cancelRing n) s) ∧
    (∀ u : Fin 128, off.val = Reg.unitCmd → u.val = bits x 6 0 → wr = if bit x 16 then exec (.unitDisable u false) s else exec (.unitEnable u) s) ∧
    (off.val = Reg.powerReq → (∀ r ∈ Claims.powerReqs, bits x 2 0 = r.1 → wr = exec r.2 s) ∧ (bits x 2 0 ∉ [0, 2, 3] → wr = .next s)) ∧
    (off.val = Reg.secReset → (bits x 1 0 = 1 → wr = exec .deviceReset s) ∧ (bits x 1 0 = 2 → wr = exec .maintenanceReset s) ∧
      (bits x 1 0 ∉ [1, 2] → wr = .next s)) ∧
    (∀ e ∈ Claims.plainRegs, ∀ n < e.2.1, off.val = e.1 + 8 * n → Claims.Takes v off s (Nat.land x e.2.2)) ∧
    (∀ e ∈ Claims.windowRegs, ∀ n < e.2.1, off.val = e.1 + 8 * n → ∃ t, wr = .next t ∧ t = { s with regs := t.regs } ∧ t.reg off.val = Nat.land x e.2.2 ∧
      Claims.ProtChanged s t false off off (s.reg off.val) (t.reg off.val)) ∧
    (∀ e ∈ Claims.rangedRegs, off.val = e.1 →
      Claims.Takes v off s (if e.2.2.1 ≤ bits x e.2.1 0 ∧ bits x e.2.1 0 ≤ e.2.2.2 then setBits (s.reg off.val) e.2.1 0 (bits x e.2.1 0) else s.reg off.val)) ∧
    (∀ e ∈ Claims.routeRegs, ∀ n < e.2.2.1, off.val = e.2.1 + 8 * n →
      (s.flag Reg.fabEpoch 2 = true → e.1 ≠ s.activeB → wr = .next s) ∧
      (s.flag Reg.fabEpoch 2 = false ∨ e.1 = s.activeB → ∃ t, wr = .next t ∧ t.reg off.val = Nat.land x e.2.2.2 ∧
        (Claims.NoneWait s → t = { s with regs := t.regs } ∧ Claims.OnlyRegs s t [off.val]))) ∧
    (∀ n < 4096, off.val = Reg.ringBase n →
      (s.flag (Reg.ringCfg n) 63 = true → wr = .next s) ∧ (s.flag (Reg.ringCfg n) 63 = false → Claims.Takes v off s (Nat.land x 0x3FFFFFFFF000))) ∧
    (∀ p < 64, ∀ e ∈ [(Reg.panBase p, 0x1FFFFFFF000), (Reg.panRingBase p, 0x1FFFFFFFFC0)], off.val = e.1 →
      (s.poolOn p = true → wr = .next s) ∧ (s.poolOn p = false → Claims.Takes v off s (Nat.land x e.2))) ∧
    (∀ n < 128, off.val = Reg.dipWorst n → Claims.Takes v off s (Nat.land (s.reg off.val) (2 ^ 64 - 1 - x % 2 ^ 32))) ∧
    (off.val = Reg.memShare → Claims.Takes v off s (if bits x 21 16 + bits x 13 8 + bits x 5 0 ≤ 48 then Nat.land x 0x3F3F3F else s.reg off.val)) ∧
    (off.val = Reg.thermCfg → Claims.Takes v off s
      (if bits x 7 0 < bits x 15 8 ∧ bits x 15 8 < bits x 23 16 ∧ bits x 23 16 ≤ 115 then x % 2 ^ 24 else s.reg off.val)) ∧
    (off.val = Reg.telemCfg → Claims.Takes v off s ((if bit x 63 ∧ 6 ≤ bits x 4 0 ∧ bits x 4 0 ≤ 16 then 2 ^ 63 else 0) + bits x 4 0)) ∧
    (off.val = Reg.powerCap → ∃ t, wr = .next t ∧ t = { s with regs := t.regs } ∧ Claims.OnlyRegs s t [off.val] ∧
      t.fieldOf off.val 12 0 = field 12 0 1000 5400 ∧ t.fieldOf off.val 23 16 = field 23 16 1 100) ∧
    (off.val = Reg.powerCtl → ∃ t, wr = .next t ∧ t = { s with regs := t.regs } ∧ Claims.OnlyRegs s t [off.val] ∧
      t.fieldOf off.val 63 48 = (if bits x 63 48 = 0 then 0 else field 63 48 100 60000) ∧ t.fieldOf off.val 47 32 = bits x 47 32 ∧
      t.fieldOf off.val 16 16 = bits x 16 16 ∧ t.fieldOf off.val 9 0 = bits x 9 0) ∧
    (off.val = Reg.doorCtl → ∃ t, wr = .next t ∧ t = { s with regs := t.regs } ∧ Claims.OnlyRegs s t [off.val] ∧
      t.fieldOf off.val 47 32 = field 47 32 200 60000 ∧ t.fieldOf off.val 15 0 = field 15 0 50 10000)) ∧
  (∀ (off : Fin 67108864) (size : Nat) (v : Word) (s : State),
    let wr := exec (.registerWrite true off size v) s
    let x := v.toNat
    (s.keeperRuns = false ∨ off.val % 8 ≠ 0 → wr = .next s) ∧
    (off.val ≠ Reg.hostJob → (∀ n < 4096, off.val ≠ Reg.ringCfg n) → (∀ e ∈ Claims.windowRegs, ∀ n < e.2.1, off.val ≠ e.1 + 8 * n) → off.val ≠ Reg.dipCtl →
      off.val ≠ Reg.unitCmd → off.val ≠ Reg.memCtl → off.val ≠ Reg.memLarderCfg → wr = .next s) ∧
    (s.keeperRuns = true →
      (∀ n : Fin 4096, off.val = Reg.ringCfg n → wr = exec (.ringCfgWrite true n v) s) ∧
      (off.val = Reg.memCtl → wr = exec (.placementWrite true v) s) ∧ (off.val = Reg.memLarderCfg → wr = exec (.larderCfgWrite true v) s) ∧
      (∀ e ∈ Claims.windowRegs, ∀ n < e.2.1, off.val = e.1 + 8 * n → ∃ t, wr = .next t ∧ t = { s with regs := t.regs } ∧ t.reg off.val = Nat.land x e.2.2 ∧
        Claims.ProtChanged s t true off off (s.reg off.val) (t.reg off.val)) ∧
      (off.val = Reg.hostJob → ∃ t, wr = .next t ∧ t = { s with regs := t.regs } ∧ t.owned = bit x 63 ∧ t.flag Reg.hostStatus 2 = bit x 63 ∧
        t.fieldOf Reg.hostJob 62 0 = s.fieldOf Reg.hostJob 62 0 ∧
        t.reg Reg.secKeeperChanges = (s.reg Reg.secKeeperChanges + if s.owned = bit x 63 then 0 else 1) % 2 ^ 64) ∧
      (off.val = Reg.dipCtl → ∃ t, wr = .next t ∧ t = { s with regs := t.regs } ∧ t.flag Reg.dipCtl 0 = bit x 0 ∧
        t.reg Reg.secKeeperChanges = (s.reg Reg.secKeeperChanges + if s.flag Reg.dipCtl 0 = bit x 0 then 0 else 1) % 2 ^ 64) ∧
      (∀ u : Fin 128, off.val = Reg.unitCmd → u.val = bits x 6 0 →
        (bit x 16 = true → wr = exec (.unitDisable u true) s) ∧
        (bit x 16 = false → 83 < u.val ∨ s.fieldOf (Reg.unitState u) 2 0 ≠ 2 → wr = .next s) ∧
        (bit x 16 = false → u.val ≤ 83 → s.fieldOf (Reg.unitState u) 2 0 = 2 → ∃ t, wr = .next t ∧ t = { s with regs := t.regs } ∧ t.unitOff u = false ∧
          Claims.ProtChanged s t true (Reg.unitState u) Reg.unitCmd (u.val + 2 ^ 16) u.val))))

namespace Sys2Proof.Claims

/-- What a device or maintenance reset leaves (R355, R511): all is as at power-up, but for the POWER block and what it reports of, the time, the pending marks of
channels and stacks, the failed channels, the fuses, and what lies outside the Criaro. -/
def WasReset (s t : State) (kind : Nat) (held : Bool) : Prop :=
  t = { State.reset with
    regs := t.regs, pending := s.pending, free := s.free, hostMem := s.hostMem, fuses := s.fuses, production := s.production, out := s.out, now := s.now,
    centi := s.centi, tripped := s.tripped, capStep := s.capStep, thermStep := s.thermStep, inputs := s.inputs, energy := s.energy, capBelow := s.capBelow,
    tseq := s.tseq, tlost := s.tlost, alert := s.alert, chanDead := s.chanDead, chanNoted := s.chanNoted, resetHeld := held,
    resetKind := if s.reg Reg.secBootStatus = 5 then kind else max kind s.resetKind } ∧
  (∀ o, 0x200000 ≤ o → o < 0x300000 → o ≠ Reg.powerStatus → o ≠ Reg.clkStatus → t.reg o = s.reg o) ∧ t.fieldOf Reg.powerStatus 2 0 = 0 ∧
  t.flag Reg.clkStatus 0 = false ∧ t.flag Reg.clkStatus 1 = false ∧ t.flag Reg.powerStatus 20 = false ∧
  (∀ n < 32, t.reg (Reg.memChanPending n) = s.reg (Reg.memChanPending n)) ∧
  (∀ st < 16, t.flag (Reg.memStackStatus st) 2 = s.flag (Reg.memStackStatus st) 2 ∧
    (t.flag (Reg.memStackStatus st) 1 = true ↔ ∃ f ∈ s.fuses, f.kind = 4 ∧ f.target = st)) ∧
  t.reg Reg.geomFuseCount = s.fuses.length ∧ t.reg Reg.secRollback = (s.fuses.filter fun f => f.kind == 6).length ∧
  ∀ o, (o < 0x200000 ∨ 0x300000 ≤ o) → (∀ n < 32, o ≠ Reg.memChanPending n) → (∀ st < 16, o ≠ Reg.memStackStatus st) → o ≠ Reg.hostStatus →
    o ≠ Reg.dipStatus → o ≠ Reg.geomFuseCount → (∀ i < 8192, o ≠ Reg.geomFuseLog i) → o ≠ Reg.secRollback → o ≠ Reg.secKeys → o ≠ Reg.secDebug →
    t.reg o = (regReset o).toNat

/-- Port `p` is in service and reaches room `r` (R366). -/
def Reaches (t : State) (p r : Nat) : Prop :=
  t.flag (Reg.fabPortStatus p) 0 = true ∧ t.flag (Reg.fabPortStatus p) 3 = false ∧ t.fieldOf (Reg.fabPortStatus p) 44 40 = r

/-- A stack is in service with the channels that no fuse maps out, or is out of service (R28). -/
def StackShows (t : State) (st : Nat) (inService : Prop) : Prop :=
  (inService → t.flag Reg.geomStacks st = true ∧ (∀ c < 128, t.chanIn st c = !t.chanGone st c) ∧
    t.reg (Reg.geomStackMib st) = 576 * ((List.range 128).filter fun c => !t.chanGone st c).length) ∧
  (¬inService → t.flag Reg.geomStacks st = false ∧ (∀ c < 128, t.chanIn st c = false) ∧ t.reg (Reg.geomStackMib st) = 0)

end Sys2Proof.Claims

/-- R355, R366, R511–R517, R531: a reset begins start-up: all is as at power-up, but for the POWER block, the pending marks, the fuses and what lies outside; of two
kinds the stronger applies. The boot ROM measures itself, the fuses and the security state. The host's GO starts a load; an image that fails a check is named by the code of the first; one that passes is measured and starts, its
versions shown, and the keys it names are revoked with a fuse each. Training brings each stack in with the channels that fuses leave; a maintenance reset first fuses
what is pending, and a stack that fails training is out, marked or retired. At the end of start-up the part is ready, at epoch 2, without job or window, its
protections set, table A filled from its ports and every house entry invalid; the cores that fuses retire or that fail are out, and the others are numbered densely.
Choices of the model it rests on: log entries 22 to 36, 126. -/
def Obligations.PartStartsUp : Prop :=
  (∀ s : State, s.power = true → Claims.FusesSound s →
    (∃ t, exec .deviceReset s = .next t ∧ Claims.WasReset s t 1 s.resetHeld) ∧ (∃ t, exec .maintenanceReset s = .next t ∧ Claims.WasReset s t 2 s.resetHeld) ∧
    ∃ t, exec .resetN s = .next t ∧ Claims.WasReset s t 1 true) ∧
  (∀ s : State, exec .resetNRelease s = .next { s with resetHeld := false }) ∧
  (∀ s : State, s.power = false →
    exec .deviceReset s = .next s ∧ exec .maintenanceReset s = .next s ∧ exec .resetN s = .next { s with resetHeld := true }) ∧
  (∀ s : State, s.flag Reg.clkStatus 0 = false → s.flag Reg.fltLatch 0 = false → s.powered = true → s.boot = 0 →
    let log := s.fuses.flatMap fun x => leBytes 8 x.words.1 ++ leBytes 8 x.words.2
    ∃ t, exec .rootPllLock s = .next t ∧ t.boot = 1 ∧ Claims.Measured s t 0 Sys2Proof.Config.bootRom ∧
      Claims.Measured s t 2 (Sys2Proof.Config.fuseArray log ++ log) ∧
      Claims.Measured s t 3 (Sys2Proof.Config.securityState (s.fieldOf Reg.secKeys 4 0) (s.fieldOf Reg.secRollback 6 0) (s.reg Reg.secDebug)) ∧
      ∀ i < 8, t.reg (Reg.secIdPk i) = (Sys2Proof.Config.identityKey i).toNat) ∧
  (∀ (v : Word) (host : Cells) (s : State),
    let b := s.reg Reg.secBootStatus
    (bit v.toNat 0 = true → b = 1 ∨ 0x10 ≤ b → ∃ t, exec (.secFwGo v host) s = .next t ∧ t = { s.hostCells host with regs := t.regs } ∧
      t.reg Reg.secBootStatus = 2 ∧ Claims.OnlyRegs s t [Reg.secBootStatus]) ∧
    (bit v.toNat 0 = false ∨ (b ≠ 1 ∧ b < 0x10) → exec (.secFwGo v host) s = .next (s.hostCells host))) ∧
  (∀ s : State,
    let len := s.fieldOf Reg.secFwLen 23 0
    let bs := s.hostRead (s.fieldOf Reg.secFwAddr 45 12 * 4096) len
    let L := imageField bs 0x10 4
    let key := imageField bs 0x06 1
    let mask := imageField bs 0x07 1
    let svn := imageField bs 0x0C 4
    let form := (len = L ∧ 30048 ≤ L ∧ L ≤ 8388608 ∧ L % 4 = 0) ∧ imageField bs 0 4 = 0x5746564F ∧ imageField bs 4 2 = 1 ∧ imageField bs 0x14 2 = 0x2548 ∧
      imageField bs 0x16 1 = 0xA1 ∧ imageField bs 0x17 233 = 0 ∧ bits mask 7 5 = 0 ∧ bit mask key = false
    let valid := bit (s.fieldOf Reg.secKeys 4 0) key = false
    let fresh := s.fieldOf Reg.secRollback 6 0 ≤ svn ∧ svn ≤ 64
    let signed := key ≤ 4 ∧ Sys2Proof.Config.vendorVerify key (bs.take (L - 29792)) (bs.drop (L - 29792)) = true
    let fails := fun (c : Nat) => ∃ t, exec .firmwareVerify s = .next t ∧ t = { s with regs := t.regs } ∧ t.reg Reg.secBootStatus = c ∧
      Claims.OnlyRegs s t [Reg.secBootStatus]
    (s.reg Reg.secBootStatus ≠ 2 ∨ s.linkUp = false → exec .firmwareVerify s = .next s) ∧
    (s.reg Reg.secBootStatus = 2 → s.linkUp = true →
      (¬form → fails 0x10) ∧ (form → ¬valid → fails 0x11) ∧ (form → valid → ¬fresh → fails 0x12) ∧ (form → valid → fresh → ¬signed → fails 0x13) ∧
      (form → valid → fresh → signed → Claims.FusesSound s → ∃ t, exec .firmwareVerify s = .next t ∧ t = { s with regs := t.regs, fuses := t.fuses } ∧
        t.reg Reg.secBootStatus = 4 ∧ t.reg Reg.geomFw = imageField bs 0x08 4 ∧ t.fieldOf Reg.secRollback 14 8 = svn ∧ t.fieldOf Reg.secKeys 10 8 = key ∧
        Claims.Measured s t 1 bs ∧ (s.production = true → t.flag Reg.secDebug 1 = true) ∧
        (∀ k < 5, t.flag Reg.secKeys k = (s.flag Reg.secKeys k || bit mask k)) ∧
        ∃ l : List Fuse, t.fuses = s.fuses ++ l ∧ (∀ f ∈ l, f.kind = 7) ∧
          ∀ k, k ∈ l.map (fun f => f.target) ↔ k < 5 ∧ bit mask k = true ∧ s.flag Reg.secKeys k = false))) ∧
  (∀ (failed : List (Fin 16)) (chans : List (Fin 2048)) (s : State),
    let out := fun (st : Nat) => s.flag (Reg.memStackStatus st) 1 = true ∨ ∃ x ∈ failed, x.val = st
    let pends := fun (st c : Nat) => s.flag (Reg.memChanPending (2 * st + c / 64)) (c % 64) = true
    (s.reg Reg.secBootStatus ≠ 4 ∨ s.boot ≠ 1 → exec (.stackTrainingDone failed chans) s = .next s) ∧
    (s.reg Reg.secBootStatus = 4 → s.boot = 1 → s.resetKind ≠ 2 → ∃ t, exec (.stackTrainingDone failed chans) s = .next t ∧ t.boot = 4 ∧
      t.fuses = s.fuses ∧ t.mem = s.mem ∧ t.reg Reg.geomDram = ((List.range 16).map fun st => t.reg (Reg.geomStackMib st)).sum % 2 ^ 64 ∧
      (∀ st < 16, Claims.StackShows t st (¬out st) ∧
        ((∃ x ∈ failed, x.val = st) → s.flag (Reg.memStackStatus st) 1 = false → t.flag (Reg.memStackStatus st) 2 = true)) ∧
      ∀ c ∈ chans, t.chanIn (c / 128) (c % 128) = true → t.flag (Reg.memChanFailed (2 * (c / 128) + c % 128 / 64)) (c % 64) = true) ∧
    (s.reg Reg.secBootStatus = 4 → s.boot = 1 → s.resetKind = 2 → Claims.FusesSound s → ∃ t, exec (.stackTrainingDone failed chans) s = .next t ∧ t.boot = 4 ∧
      t.mem = s.mem ∧ s.fuses <+: t.fuses ∧
      t.reg Reg.geomDram = ((List.range 16).map fun st => t.reg (Reg.geomStackMib st)).sum % 2 ^ 64 ∧
      ∀ st < 16, Claims.StackShows t st (¬out st ∧ s.flag (Reg.memStackStatus st) 2 = false) ∧
        (s.flag (Reg.memStackStatus st) 1 = false → s.flag (Reg.memStackStatus st) 2 = true ∨ (∃ x ∈ failed, x.val = st) →
          t.flag (Reg.memStackStatus st) 1 = true ∧ ∃ f ∈ t.fuses, f.kind = 4 ∧ f.target = st) ∧
        (s.flag (Reg.memStackStatus st) 1 = false → s.flag (Reg.memStackStatus st) 2 = false →
          ∀ c < 128, pends st c → t.chanGone st c = true ∧ ∃ f ∈ t.fuses, f.kind = 3 ∧ f.target = 128 * st + c) ∧
        (chans = [] → t.reg (Reg.memChanPending (2 * st)) = 0 ∧ t.reg (Reg.memChanPending (2 * st + 1)) = 0 ∧
          ∀ c < 128, Tbl.get false t.chanDead (128 * st + c) = false))) ∧
  (∀ (cores : List (Fin 256)) (ports : List PortUp) (bad : Nat) (s : State),
    (s.reg Reg.secBootStatus ≠ 4 ∨ s.boot ≠ 4 → exec (.startupComplete cores ports bad) s = .next s) ∧
    (s.reg Reg.secBootStatus = 4 → s.boot = 4 → Claims.FusesSound s → ∃ t, exec (.startupComplete cores ports bad) s = .next t ∧ t.boot = 8 ∧
      t.ready = true ∧ t.reg Reg.secBootStatus = 5 ∧ t.reg Reg.geomEpoch = 2 ∧ t.owned = false ∧ t.fuses = s.fuses ∧
      (∀ n < 4096, t.flag (Reg.ringCfg n) 62 = false) ∧
      (∀ n < 32, t.flag (Reg.owinRange n) 63 = false ∧ t.flag (Reg.iwinRange n) 63 = false) ∧ (∀ n < 8, t.flag (Reg.hwinLo n) 63 = false) ∧
      t.flag Reg.dipCtl 0 = true ∧ t.flag Reg.memCtl 0 = false ∧ t.reg Reg.memLarderCfg = 0 ∧
      (∀ u < 84, s.flag (Reg.unitState u) 2 = false → t.unitOff u = false) ∧
      (∀ q ∈ ports, t.flag (Reg.fabPortStatus q.port) 0 = true) ∧ t.fieldOf Reg.fabEpoch 2 0 = 0 ∧
      (∀ n < 65536, t.flag (Reg.houseRouteA n) 25 = false ∧ t.flag (Reg.houseRouteB n) 25 = false) ∧
      (∀ r < 32, (∀ p < 31, Claims.Reaches t p r → (∀ q < p, ¬Claims.Reaches t q r) → t.reg (Reg.roomRouteA r) = 256 + p) ∧
        ((∀ p < 31, ¬Claims.Reaches t p r) → t.reg (Reg.roomRouteA r) = 0)) ∧
      (∀ k < 256, (t.coreRetired k = true ↔
          s.coreRetired k = true ∨ (∃ f ∈ s.fuses, f.kind = 5 ∧ f.target = k) ∨ ∃ x ∈ cores, x.val = k) ∧
        (t.coreRetired k = false → t.fieldOf (Reg.arrayStatus k) 47 16 = (s.fieldOf (Reg.arrayStatus k) 47 16 + 1) % 2 ^ 32)) ∧
      let l := (List.range 256).filter fun k => !t.coreRetired k
      t.fieldOf Reg.geomCores 8 0 = l.length ∧ t.fieldOf Reg.geomCores 37 32 = (s.fuses.filter fun f => f.kind == 5).length % 64 ∧
      (∀ i, ∀ k, l[i]? = some k → t.reg (Reg.geomCoreMap i) = 2 ^ 31 + k) ∧ (∀ i < 256, l[i]? = none → t.reg (Reg.geomCoreMap i) = i) ∧
      (Claims.NoneWait s → t.mem = s.mem ∧ t.slots = s.slots)))

namespace Sys2Proof.Claims

/-- What a report says, by offset (R524), of the state at the moment of GO. -/
def reportFields (s : State) : List (Nat × List Byte) :=
  let f := s.reg Reg.geomFuseCount
  [(0x000, leBytes 4 1), (0x004, leBytes 4 (50544 + 16 * f)), (0x008, leBytes 8 (s.reg Reg.geomId)), (0x010, deviceId)] ++
  [(0x020, (List.range 4).flatMap fun i => leBytes 8 (s.reg (Reg.secNonce i))), (0x040, leBytes 8 s.now), (0x048, leBytes 4 (s.reg Reg.geomFw))] ++
  [(0x04C, leBytes 4 (s.fieldOf Reg.secRollback 14 8)), (0x050, leBytes 1 (s.fieldOf Reg.secRollback 6 0)), (0x051, leBytes 1 (s.fieldOf Reg.secKeys 4 0))] ++
  [(0x052, leBytes 1 (s.fieldOf Reg.secKeys 10 8))] ++
  [(0x053, leBytes 1 (b2n s.owned + 2 * b2n (s.flag Reg.dipCtl 0) + 4 * b2n s.production + 8 * b2n (s.flag Reg.fltLatch 0)))] ++
  [(0x054, leBytes 4 (s.fieldOf Reg.hostJob 31 0)), (0x058, leBytes 8 (s.reg Reg.geomEpoch)), (0x060, identityPk), (0x0A0, (List.range 8).flatMap s.meas)] ++
  [(0x2A0, leBytes 4 f), (0x2A4, leBytes 12 0), (0x2B0, s.fuses.flatMap fun x => leBytes 8 x.words.1 ++ leBytes 8 x.words.2)]

/-- The instructions that the test access port offers (R523). -/
def Offered (s : State) (op : TapOp) : Prop :=
  op = .bypass ∨ op = .idcode ∨ ((op = .sample ∨ op = .extest) ∧ s.flag Reg.secDebug 1 = false) ∨ (op = .other ∧ s.production = false)

end Sys2Proof.Claims

/-- R10, R518, R520, R523, R524: the anti-rollback counter rises to what is asked, no further than the running firmware's, a fuse for each step; a
target out of range is refused with a record that names the request. A report is taken when it is asked for, field by field, and is written to host memory, signed,
when signing is over. SEC_EXTEND extends measurement 6 alone. The test port takes the instructions the part offers, and IDCODE answers the part's code.
Choices of the model it rests on: log entries 37 to 39. -/
def Obligations.SecurityIsKept : Prop :=
  (∀ (v : Word) (s : State),
    let want := bits v.toNat 6 0
    let n := min want (s.fieldOf Reg.secRollback 14 8)
    let cur := s.fieldOf Reg.secRollback 6 0
    (s.keeperRuns = false → exec (.secRollbackReq v) s = .next s) ∧
    (s.keeperRuns = true → 64 < want → ∃ t, exec (.secRollbackReq v) s = .next t ∧ t.fuses = s.fuses ∧ t.mem = s.mem ∧
      t.reg Reg.secRollback = s.reg Reg.secRollback ∧ ∃ f, t.heldFaults.getLast? = some f ∧ f.status = 0x15 ∧ f.kind = 0 ∧ f.detail = Reg.secRollbackReq ∧
        f.detail2 = 0xFFFF) ∧
    (s.keeperRuns = true → want ≤ 64 → n ≤ cur → exec (.secRollbackReq v) s = .next s) ∧
    (s.keeperRuns = true → want ≤ 64 → cur < n → Claims.FusesSound s → ∃ t, exec (.secRollbackReq v) s = .next t ∧
      t = { s with regs := t.regs, fuses := t.fuses } ∧ t.fieldOf Reg.secRollback 6 0 = n ∧ t.fieldOf Reg.secRollback 14 8 = s.fieldOf Reg.secRollback 14 8 ∧
      t.fuses = s.fuses ++ (List.range (n - cur)).map fun i => ⟨6, cur + 1 + i, cur + 1 + i, 0, s.reg Reg.geomFw⟩)) ∧
  (∀ (v : Word) (s : State),
    (bit v.toNat 0 = false ∨ s.flag Reg.secAttest 1 = true ∨ s.keeperRuns = false → exec (.secAttestGo v) s = .next s) ∧
    (bit v.toNat 0 = true → s.flag Reg.secAttest 1 = false → s.keeperRuns = true → ∃ t bs, exec (.secAttestGo v) s = .next t ∧
      t = { s with regs := t.regs, report := some (s.fieldOf Reg.secAttestAddr 45 12 * 4096, bs) } ∧ t.reg Reg.secAttest = 2 ∧
      Claims.OnlyRegs s t [Reg.secAttest] ∧ bs.length = 0x2B0 + 16 * s.fuses.length ∧
      ∀ e ∈ Claims.reportFields s, (bs.drop e.1).take e.2.length = e.2)) ∧
  (∀ (a : Nat) (bs : List Byte) (s : State), s.report = some (a, bs) → s.linkUp = true → ∃ t, exec .attestDone s = .next t ∧
    t = { s with report := none, regs := t.regs, hostMem := t.hostMem, free := t.free } ∧ t.reg Reg.secAttest = 4 ∧ Claims.OnlyRegs s t [Reg.secAttest] ∧
    t.hostRead a bs.length = bs ∧ t.hostRead (a + bs.length) 49856 = (List.range 49856).map (fun i => Sys2Proof.Config.identitySign s.free bs i) ∧
    (∀ x, x < a ∨ a + bs.length + 49856 ≤ x → t.hostByte x = s.hostByte x)) ∧
  (∀ s : State, s.report = none ∨ s.linkUp = false → exec .attestDone s = .next s) ∧
  (∀ (v : Word) (s : State),
    (bit v.toNat 0 = false → exec (.secExtend v) s = .next s) ∧
    (bit v.toNat 0 = true → ∃ t, exec (.secExtend v) s = .next t ∧ t = { s with regs := t.regs } ∧
      Claims.OnlyRegs s t ((List.range 8).map fun w => Reg.secMeas (48 + w)) ∧
      Claims.Measured s t 6 ((List.range 8).flatMap fun i => leBytes 8 (s.reg (Reg.secExtData i))))) ∧
  (∀ (op : TapOp) (s : State),
    (s.power = true → Claims.Offered s op → exec (.tapInstruction op) s =
      .next { s with tapIr := op, out := s.out ++ [.tap (if op = .idcode then some 0x1254856F else none)] }) ∧
    (s.power = false ∨ ¬Claims.Offered s op → exec (.tapInstruction op) s = .next s))

namespace Sys2Proof.Claims

/-- A vendor-defined response of the sideband: the in-band interrupt, then the enterprise number, the command, the completion code, data (R536). -/
def vendor (cmd code : Byte) (data : List Byte) : List Out := [.ibi, .sideband ([0x6C, 0x80, 0x01, 0x00, cmd, code] ++ data)]

/-- The registers that READ_REG serves (R536). -/
def Served (o : Nat) : Prop :=
  regMapped o = true ∧ (o < 0x100000 ∨ (0x200000 ≤ o ∧ o < 0x400000) ∨ 0x2000000 ≤ o ∨ o = Reg.hostStatus ∨ o = Reg.linkStatus)

end Sys2Proof.Claims

/-- R504, R511, R534–R537: the sideband. The Criaro takes its dynamic address, giving its provisional ID, and its endpoint ID. READ_REG, WRITE_REG,
READ_FAULTS and RESET are answered with their completion codes and data, and answer busy before keeper firmware runs, but for two registers; a read of the alert
causes ends the alert, a write of them clears those written 1; held records are returned from a sequence upward, one to four; a reset is answered before it begins; a
message of another type is answered unsupported. Without power nothing answers.
Choices of the model it rests on: log entries 47 to 49. -/
def Obligations.SidebandServes : Prop :=
  (∀ (a : Fin 128) (s : State), s.power = true → ∃ t p, exec (.entdaa a) s = .next t ∧ t = { s with dynAddr := some a.val, out := s.out ++ [.pid p] } ∧
    p / 2 ^ 33 = 0x0D35 ∧ bits p 32 12 = 0x25480 ∧ bits p 11 0 = leNat deviceId % 2 ^ 12) ∧
  (∀ (e : Fin 256) (s : State), s.power = true →
    exec (.setEndpointId e) s = .next { s with endpoint := some e.val, out := s.out ++ [.ibi, .control true] }) ∧
  (∀ (off : Fin 4294967296) (s : State), s.power = true →
    let early := off.val = Reg.secBootStatus ∨ off.val = Reg.hostStatus
    (s.keeperRuns = false → ¬early → exec (.readReg off) s = .next { s with out := s.out ++ Claims.vendor 1 3 [] }) ∧
    (s.keeperRuns = true → off.val % 8 ≠ 0 → exec (.readReg off) s = .next { s with out := s.out ++ Claims.vendor 1 2 [] }) ∧
    (s.keeperRuns = true → off.val % 8 = 0 → ¬Claims.Served off →
      exec (.readReg off) s = .next { s with out := s.out ++ Claims.vendor 1 1 [] }) ∧
    (s.keeperRuns = true ∨ early → Claims.Served off → off.val ≠ Reg.fltAlert →
      exec (.readReg off) s = .next { s with out := s.out ++ Claims.vendor 1 0 (leBytes 8 (s.readReg off)) }) ∧
    (s.keeperRuns = true → off.val = Reg.fltAlert →
      exec (.readReg off) s = .next { s with
        alert := false, out := s.out ++ Claims.vendor 1 0 (leBytes 8 (s.reg Reg.fltAlert)) ++ if s.alert then [.alert false] else [] })) ∧
  (∀ (off : Fin 4294967296) (v : Word) (s : State), s.power = true →
    (s.keeperRuns = false → exec (.writeReg off v) s = .next { s with out := s.out ++ Claims.vendor 2 3 [] }) ∧
    (s.keeperRuns = true → off.val ≠ Reg.fltAlert → off.val ≠ Reg.powerCap →
      exec (.writeReg off v) s = .next { s with out := s.out ++ Claims.vendor 2 1 [] }) ∧
    (s.keeperRuns = true → off.val = Reg.powerCap → ∃ t, exec (.writeReg off v) s = .next t ∧
      t = { s with regs := t.regs, out := s.out ++ Claims.vendor 2 0 [] } ∧ Claims.OnlyRegs s t [Reg.powerCap] ∧
      t.fieldOf Reg.powerCap 12 0 = (if 1000 ≤ bits v.toNat 12 0 ∧ bits v.toNat 12 0 ≤ 5400 then bits v.toNat 12 0 else s.fieldOf Reg.powerCap 12 0) ∧
      t.fieldOf Reg.powerCap 23 16 =
        (if 1 ≤ bits v.toNat 23 16 ∧ bits v.toNat 23 16 ≤ 100 then bits v.toNat 23 16 else s.fieldOf Reg.powerCap 23 16)) ∧
    (s.keeperRuns = true → off.val = Reg.fltAlert → ∃ t, exec (.writeReg off v) s = .next t ∧
      t = { s with regs := t.regs, out := s.out ++ Claims.vendor 2 0 [] } ∧ Claims.OnlyRegs s t [Reg.fltAlert] ∧
      ∀ n < 4, t.flag Reg.fltAlert n = (s.flag Reg.fltAlert n && !bit v.toNat n))) ∧
  (∀ (first : Fin 4294967296) (count : Fin 256) (s : State), s.power = true →
    (s.keeperRuns = false → exec (.readFaults first count) s = .next { s with out := s.out ++ Claims.vendor 3 3 [] }) ∧
    (s.keeperRuns = true → count.val = 0 ∨ 4 < count.val → exec (.readFaults first count) s = .next { s with out := s.out ++ Claims.vendor 3 2 [] }) ∧
    (s.keeperRuns = true → 1 ≤ count.val → count.val ≤ 4 →
      let l := (s.heldFaults.filter fun r => decide (first.val ≤ r.fseq)).take count
      exec (.readFaults first count) s =
        .next { s with out := s.out ++ Claims.vendor 3 0 (leBytes 1 l.length ++ l.flatMap fun r => r.bytes false) })) ∧
  (∀ (kind : Fin 256) (s : State), s.power = true →
    (s.keeperRuns = false → exec (.reset kind) s = .next { s with out := s.out ++ Claims.vendor 4 3 [] }) ∧
    (s.keeperRuns = true → kind.val ≠ 1 → kind.val ≠ 2 → exec (.reset kind) s = .next { s with out := s.out ++ Claims.vendor 4 2 [] }) ∧
    (s.keeperRuns = true → kind.val = 1 ∨ kind.val = 2 → Claims.FusesSound s →
      ∃ t, exec (.reset kind) s = .next t ∧ Claims.WasReset { s with out := s.out ++ Claims.vendor 4 0 [] } t kind s.resetHeld)) ∧
  (∀ (ty : Fin 128) (s : State),
    (s.power = true → ty.val ≠ 0 → ty.val ≠ 0x7F → exec (.unsupportedMctpType ty) s = .next { s with out := s.out ++ [.ibi, .control false] }) ∧
    (ty.val = 0 ∨ ty.val = 0x7F → exec (.unsupportedMctpType ty) s = .next s)) ∧
  (∀ (a : Fin 128) (e : Fin 256) (off : Fin 4294967296) (v : Word) (s : State), s.power = false →
    ∀ r ∈ [Instr.entdaa a, .setEndpointId e, .readReg off, .writeReg off v, .readFaults off e, .reset e, .unsupportedMctpType a], exec r s = .next s)
end

