-- ==== Sys2Proof/Laws/Tbl.lean ====
section
/-! SUPPORT. Reading and writing a sparse table: a read after a write, and that a write keeps the canonical form. -/

namespace Sys2Proof.Tbl

variable {α : Type}

theorem get_erase (d : α) (t : Tbl α) (k j : Nat) : get d (erase t k) j = if j = k then d else get d t j := by
  induction t with
  | nil => simp [erase, get]
  | cons e t ih => obtain ⟨i, a⟩ := e; simp only [erase, get]; split <;> simp_all [get] <;> grind

theorem get_insert (d : α) (t : Tbl α) (k : Nat) (v : α) (j : Nat) :
    get d (insert t k v) j = if j = k then v else get d t j := by
  induction t with
  | nil => simp [insert, get]; grind
  | cons e t ih =>
    obtain ⟨i, a⟩ := e
    simp only [insert]
    split
    · simp only [get]; grind
    · split
      · simp only [get]; grind
      · simp only [get, ih]; grind

theorem rising_le {lo lo' : Nat} {t : Tbl α} (h : rising lo t = true) (hl : lo' ≤ lo) : rising lo' t = true := by
  cases t with
  | nil => rfl
  | cons e t => obtain ⟨i, a⟩ := e; simp only [rising, Bool.and_eq_true, decide_eq_true_eq] at *; exact ⟨by omega, h.2⟩

theorem rising_erase {lo : Nat} {t : Tbl α} (k : Nat) (h : rising lo t = true) : rising lo (erase t k) = true := by
  induction t generalizing lo with
  | nil => rfl
  | cons e t ih =>
    obtain ⟨i, a⟩ := e
    simp only [rising, Bool.and_eq_true, decide_eq_true_eq] at h
    simp only [erase]; split
    · exact rising_le (ih h.2) (by omega)
    · simp only [rising, Bool.and_eq_true, decide_eq_true_eq]; exact ⟨h.1, ih h.2⟩

theorem rising_insert {lo : Nat} {t : Tbl α} {k : Nat} (v : α) (h : rising lo t = true) (hk : lo ≤ k) :
    rising lo (insert t k v) = true := by
  induction t generalizing lo with
  | nil => simp [insert, rising, hk]
  | cons e t ih =>
    obtain ⟨i, a⟩ := e
    simp only [rising, Bool.and_eq_true, decide_eq_true_eq] at h
    simp only [insert]; split
    · simp only [rising, Bool.and_eq_true, decide_eq_true_eq]; exact ⟨hk, by omega, h.2⟩
    · split
      · simp only [rising, Bool.and_eq_true, decide_eq_true_eq]; subst_vars; exact ⟨h.1, h.2⟩
      · simp only [rising, Bool.and_eq_true, decide_eq_true_eq]; exact ⟨h.1, ih h.2 (by omega)⟩

theorem mem_erase {t : Tbl α} {k : Nat} {e : Nat × α} (h : e ∈ erase t k) : e ∈ t := by
  induction t with
  | nil => simp [erase] at h
  | cons x t ih => obtain ⟨i, a⟩ := x; simp only [erase] at h; split at h <;> simp_all <;> grind

theorem mem_insert {t : Tbl α} {k : Nat} {v : α} {e : Nat × α} (h : e ∈ insert t k v) : e = (k, v) ∨ e ∈ t := by
  induction t with
  | nil => simp [insert] at h; exact .inl h
  | cons x t ih => obtain ⟨i, a⟩ := x; simp only [insert] at h; grind

theorem rising_filter {lo : Nat} {t : Tbl α} (p : Nat × α → Bool) (h : rising lo t = true) : rising lo (t.filter p) = true := by
  induction t generalizing lo with
  | nil => rfl
  | cons e t ih =>
    obtain ⟨i, a⟩ := e
    simp only [rising, Bool.and_eq_true, decide_eq_true_eq] at h
    simp only [List.filter]; split
    · simp only [rising, Bool.and_eq_true, decide_eq_true_eq]; exact ⟨h.1, ih h.2⟩
    · exact rising_le (ih h.2) (by omega)

variable [DecidableEq α]

/-- A read after a write gives the value written, and a write leaves every other index alone. -/
theorem get_set (d : α) (t : Tbl α) (k : Nat) (v : α) (j : Nat) :
    get d (set d t k v) j = if j = k then v else get d t j := by
  unfold set; split
  · simp [get_erase, *]
  · exact get_insert d t k v j

@[simp] theorem get_set_same (d : α) (t : Tbl α) (k : Nat) (v : α) : get d (set d t k v) k = v := by simp [get_set]

theorem get_set_other (d d' : α) (t : Tbl α) {k j : Nat} (v : α) (h : j ≠ k) : get d (set d' t k v) j = get d t j := by
  unfold set; split <;> simp [get_erase, get_insert, h]

/-- A write keeps the canonical form. -/
theorem wf_set {d : α} {t : Tbl α} (k : Nat) (v : α) (h : wf d t = true) : wf d (set d t k v) = true := by
  simp only [wf, Bool.and_eq_true, List.all_eq_true, decide_eq_true_eq] at *
  unfold set; split
  · exact ⟨rising_erase k h.1, fun e he => h.2 e (mem_erase he)⟩
  · refine ⟨rising_insert v h.1 (by omega), fun e he => ?_⟩
    rcases mem_insert he with rfl | he
    · assumption
    · exact h.2 e he

theorem wf_filter {d : α} {t : Tbl α} (p : Nat × α → Bool) (h : wf d t = true) : wf d (t.filter p) = true := by
  simp only [wf, Bool.and_eq_true, List.all_eq_true, decide_eq_true_eq] at *
  exact ⟨rising_filter p h.1, fun e he => h.2 e (List.mem_filter.1 he).1⟩

theorem wf_clear {d : α} {t : Tbl α} (p : Nat → Bool) (h : wf d t = true) : wf d (clear t p) = true := wf_filter _ h

theorem wf_nil (d : α) : wf d ([] : Tbl α) = true := rfl

end Sys2Proof.Tbl
end

