-- ==== Sys2Proof/Laws/State.lean ====
section
/-! SUPPORT. The small lemmas of the state's updates: one for each field and each update, and what reading gives after one. -/

namespace Sys2Proof.Machine

/-! `setReg` -/

@[simp] theorem State.setReg_pending (s : State) (o v : Nat) : (s.setReg o v).pending = s.pending := rfl
@[simp] theorem State.setReg_now (s : State) (o v : Nat) : (s.setReg o v).now = s.now := rfl
@[simp] theorem State.setReg_centi (s : State) (o v : Nat) : (s.setReg o v).centi = s.centi := rfl
@[simp] theorem State.setReg_free (s : State) (o v : Nat) : (s.setReg o v).free = s.free := rfl
@[simp] theorem State.setReg_mem (s : State) (o v : Nat) : (s.setReg o v).mem = s.mem := rfl
@[simp] theorem State.setReg_ue (s : State) (o v : Nat) : (s.setReg o v).ue = s.ue := rfl
@[simp] theorem State.setReg_pinGen (s : State) (o v : Nat) : (s.setReg o v).pinGen = s.pinGen := rfl
@[simp] theorem State.setReg_chanDead (s : State) (o v : Nat) : (s.setReg o v).chanDead = s.chanDead := rfl
@[simp] theorem State.setReg_chanNoted (s : State) (o v : Nat) : (s.setReg o v).chanNoted = s.chanNoted := rfl
@[simp] theorem State.setReg_chanMarks (s : State) (o v : Nat) : (s.setReg o v).chanMarks = s.chanMarks := rfl
@[simp] theorem State.setReg_stackMarks (s : State) (o v : Nat) : (s.setReg o v).stackMarks = s.stackMarks := rfl
@[simp] theorem State.setReg_lines (s : State) (o v : Nat) : (s.setReg o v).lines = s.lines := rfl
@[simp] theorem State.setReg_lineRead (s : State) (o v : Nat) : (s.setReg o v).lineRead = s.lineRead := rfl
@[simp] theorem State.setReg_hostMem (s : State) (o v : Nat) : (s.setReg o v).hostMem = s.hostMem := rfl
@[simp] theorem State.setReg_cores (s : State) (o v : Nat) : (s.setReg o v).cores = s.cores := rfl
@[simp] theorem State.setReg_sync (s : State) (o v : Nat) : (s.setReg o v).sync = s.sync := rfl
@[simp] theorem State.setReg_dips (s : State) (o v : Nat) : (s.setReg o v).dips = s.dips := rfl
@[simp] theorem State.setReg_dipq (s : State) (o v : Nat) : (s.setReg o v).dipq = s.dipq := rfl
@[simp] theorem State.setReg_slots (s : State) (o v : Nat) : (s.setReg o v).slots = s.slots := rfl
@[simp] theorem State.setReg_nextSlot (s : State) (o v : Nat) : (s.setReg o v).nextSlot = s.nextSlot := rfl
@[simp] theorem State.setReg_ringStop (s : State) (o v : Nat) : (s.setReg o v).ringStop = s.ringStop := rfl
@[simp] theorem State.setReg_ctxTurn (s : State) (o v : Nat) : (s.setReg o v).ctxTurn = s.ctxTurn := rfl
@[simp] theorem State.setReg_runs (s : State) (o v : Nat) : (s.setReg o v).runs = s.runs := rfl
@[simp] theorem State.setReg_faults (s : State) (o v : Nat) : (s.setReg o v).faults = s.faults := rfl
@[simp] theorem State.setReg_heldFaults (s : State) (o v : Nat) : (s.setReg o v).heldFaults = s.heldFaults := rfl
@[simp] theorem State.setReg_lostMark (s : State) (o v : Nat) : (s.setReg o v).lostMark = s.lostMark := rfl
@[simp] theorem State.setReg_alert (s : State) (o v : Nat) : (s.setReg o v).alert = s.alert := rfl
@[simp] theorem State.setReg_comps (s : State) (o v : Nat) : (s.setReg o v).comps = s.comps := rfl
@[simp] theorem State.setReg_irqCount (s : State) (o v : Nat) : (s.setReg o v).irqCount = s.irqCount := rfl
@[simp] theorem State.setReg_hists (s : State) (o v : Nat) : (s.setReg o v).hists = s.hists := rfl
@[simp] theorem State.setReg_fuses (s : State) (o v : Nat) : (s.setReg o v).fuses = s.fuses := rfl
@[simp] theorem State.setReg_geomGo (s : State) (o v : Nat) : (s.setReg o v).geomGo = s.geomGo := rfl
@[simp] theorem State.setReg_reqs (s : State) (o v : Nat) : (s.setReg o v).reqs = s.reqs := rfl
@[simp] theorem State.setReg_nextTag (s : State) (o v : Nat) : (s.setReg o v).nextTag = s.nextTag := rfl
@[simp] theorem State.setReg_passes (s : State) (o v : Nat) : (s.setReg o v).passes = s.passes := rfl
@[simp] theorem State.setReg_tagSent (s : State) (o v : Nat) : (s.setReg o v).tagSent = s.tagSent := rfl
@[simp] theorem State.setReg_replay (s : State) (o v : Nat) : (s.setReg o v).replay = s.replay := rfl
@[simp] theorem State.setReg_lastSpill (s : State) (o v : Nat) : (s.setReg o v).lastSpill = s.lastSpill := rfl
@[simp] theorem State.setReg_linkFails (s : State) (o v : Nat) : (s.setReg o v).linkFails = s.linkFails := rfl
@[simp] theorem State.setReg_waiting (s : State) (o v : Nat) : (s.setReg o v).waiting = s.waiting := rfl
@[simp] theorem State.setReg_applied (s : State) (o v : Nat) : (s.setReg o v).applied = s.applied := rfl
@[simp] theorem State.setReg_combs (s : State) (o v : Nat) : (s.setReg o v).combs = s.combs := rfl
@[simp] theorem State.setReg_reinj (s : State) (o v : Nat) : (s.setReg o v).reinj = s.reinj := rfl
@[simp] theorem State.setReg_slowOut (s : State) (o v : Nat) : (s.setReg o v).slowOut = s.slowOut := rfl
@[simp] theorem State.setReg_doorMsgs (s : State) (o v : Nat) : (s.setReg o v).doorMsgs = s.doorMsgs := rfl
@[simp] theorem State.setReg_nextMsg (s : State) (o v : Nat) : (s.setReg o v).nextMsg = s.nextMsg := rfl
@[simp] theorem State.setReg_doorSeq (s : State) (o v : Nat) : (s.setReg o v).doorSeq = s.doorSeq := rfl
@[simp] theorem State.setReg_doorReset (s : State) (o v : Nat) : (s.setReg o v).doorReset = s.doorReset := rfl
@[simp] theorem State.setReg_doorUsed (s : State) (o v : Nat) : (s.setReg o v).doorUsed = s.doorUsed := rfl
@[simp] theorem State.setReg_doorIn (s : State) (o v : Nat) : (s.setReg o v).doorIn = s.doorIn := rfl
@[simp] theorem State.setReg_doorBacks (s : State) (o v : Nat) : (s.setReg o v).doorBacks = s.doorBacks := rfl
@[simp] theorem State.setReg_pkgDown (s : State) (o v : Nat) : (s.setReg o v).pkgDown = s.pkgDown := rfl
@[simp] theorem State.setReg_pkgFails (s : State) (o v : Nat) : (s.setReg o v).pkgFails = s.pkgFails := rfl
@[simp] theorem State.setReg_tripped (s : State) (o v : Nat) : (s.setReg o v).tripped = s.tripped := rfl
@[simp] theorem State.setReg_capStep (s : State) (o v : Nat) : (s.setReg o v).capStep = s.capStep := rfl
@[simp] theorem State.setReg_thermStep (s : State) (o v : Nat) : (s.setReg o v).thermStep = s.thermStep := rfl
@[simp] theorem State.setReg_entry (s : State) (o v : Nat) : (s.setReg o v).entry = s.entry := rfl
@[simp] theorem State.setReg_abortDue (s : State) (o v : Nat) : (s.setReg o v).abortDue = s.abortDue := rfl
@[simp] theorem State.setReg_heldReq (s : State) (o v : Nat) : (s.setReg o v).heldReq = s.heldReq := rfl
@[simp] theorem State.setReg_wakeHeld (s : State) (o v : Nat) : (s.setReg o v).wakeHeld = s.wakeHeld := rfl
@[simp] theorem State.setReg_tooHot (s : State) (o v : Nat) : (s.setReg o v).tooHot = s.tooHot := rfl
@[simp] theorem State.setReg_inputs (s : State) (o v : Nat) : (s.setReg o v).inputs = s.inputs := rfl
@[simp] theorem State.setReg_energy (s : State) (o v : Nat) : (s.setReg o v).energy = s.energy := rfl
@[simp] theorem State.setReg_capBelow (s : State) (o v : Nat) : (s.setReg o v).capBelow = s.capBelow := rfl
@[simp] theorem State.setReg_temps (s : State) (o v : Nat) : (s.setReg o v).temps = s.temps := rfl
@[simp] theorem State.setReg_alarmed (s : State) (o v : Nat) : (s.setReg o v).alarmed = s.alarmed := rfl
@[simp] theorem State.setReg_tseq (s : State) (o v : Nat) : (s.setReg o v).tseq = s.tseq := rfl
@[simp] theorem State.setReg_tlost (s : State) (o v : Nat) : (s.setReg o v).tlost = s.tlost := rfl
@[simp] theorem State.setReg_tbusy (s : State) (o v : Nat) : (s.setReg o v).tbusy = s.tbusy := rfl
@[simp] theorem State.setReg_pools (s : State) (o v : Nat) : (s.setReg o v).pools = s.pools := rfl
@[simp] theorem State.setReg_refs (s : State) (o v : Nat) : (s.setReg o v).refs = s.refs := rfl
@[simp] theorem State.setReg_rounds (s : State) (o v : Nat) : (s.setReg o v).rounds = s.rounds := rfl
@[simp] theorem State.setReg_holds (s : State) (o v : Nat) : (s.setReg o v).holds = s.holds := rfl
@[simp] theorem State.setReg_exchs (s : State) (o v : Nat) : (s.setReg o v).exchs = s.exchs := rfl
@[simp] theorem State.setReg_services (s : State) (o v : Nat) : (s.setReg o v).services = s.services := rfl
@[simp] theorem State.setReg_dones (s : State) (o v : Nat) : (s.setReg o v).dones = s.dones := rfl
@[simp] theorem State.setReg_kept (s : State) (o v : Nat) : (s.setReg o v).kept = s.kept := rfl
@[simp] theorem State.setReg_nextKept (s : State) (o v : Nat) : (s.setReg o v).nextKept = s.nextKept := rfl
@[simp] theorem State.setReg_loop (s : State) (o v : Nat) : (s.setReg o v).loop = s.loop := rfl
@[simp] theorem State.setReg_reds (s : State) (o v : Nat) : (s.setReg o v).reds = s.reds := rfl
@[simp] theorem State.setReg_sumpFrom (s : State) (o v : Nat) : (s.setReg o v).sumpFrom = s.sumpFrom := rfl
@[simp] theorem State.setReg_lateParts (s : State) (o v : Nat) : (s.setReg o v).lateParts = s.lateParts := rfl
@[simp] theorem State.setReg_rngMark (s : State) (o v : Nat) : (s.setReg o v).rngMark = s.rngMark := rfl
@[simp] theorem State.setReg_linkWas (s : State) (o v : Nat) : (s.setReg o v).linkWas = s.linkWas := rfl
@[simp] theorem State.setReg_power (s : State) (o v : Nat) : (s.setReg o v).power = s.power := rfl
@[simp] theorem State.setReg_resetHeld (s : State) (o v : Nat) : (s.setReg o v).resetHeld = s.resetHeld := rfl
@[simp] theorem State.setReg_resetKind (s : State) (o v : Nat) : (s.setReg o v).resetKind = s.resetKind := rfl
@[simp] theorem State.setReg_boot (s : State) (o v : Nat) : (s.setReg o v).boot = s.boot := rfl
@[simp] theorem State.setReg_production (s : State) (o v : Nat) : (s.setReg o v).production = s.production := rfl
@[simp] theorem State.setReg_tapIr (s : State) (o v : Nat) : (s.setReg o v).tapIr = s.tapIr := rfl
@[simp] theorem State.setReg_report (s : State) (o v : Nat) : (s.setReg o v).report = s.report := rfl
@[simp] theorem State.setReg_dynAddr (s : State) (o v : Nat) : (s.setReg o v).dynAddr = s.dynAddr := rfl
@[simp] theorem State.setReg_endpoint (s : State) (o v : Nat) : (s.setReg o v).endpoint = s.endpoint := rfl
@[simp] theorem State.setReg_out (s : State) (o v : Nat) : (s.setReg o v).out = s.out := rfl

/-! `setCore` -/

@[simp] theorem State.setCore_pending (s : State) (k : Nat) (c : Core) : (s.setCore k c).pending = s.pending := rfl
@[simp] theorem State.setCore_now (s : State) (k : Nat) (c : Core) : (s.setCore k c).now = s.now := rfl
@[simp] theorem State.setCore_centi (s : State) (k : Nat) (c : Core) : (s.setCore k c).centi = s.centi := rfl
@[simp] theorem State.setCore_free (s : State) (k : Nat) (c : Core) : (s.setCore k c).free = s.free := rfl
@[simp] theorem State.setCore_regs (s : State) (k : Nat) (c : Core) : (s.setCore k c).regs = s.regs := rfl
@[simp] theorem State.setCore_mem (s : State) (k : Nat) (c : Core) : (s.setCore k c).mem = s.mem := rfl
@[simp] theorem State.setCore_ue (s : State) (k : Nat) (c : Core) : (s.setCore k c).ue = s.ue := rfl
@[simp] theorem State.setCore_pinGen (s : State) (k : Nat) (c : Core) : (s.setCore k c).pinGen = s.pinGen := rfl
@[simp] theorem State.setCore_chanDead (s : State) (k : Nat) (c : Core) : (s.setCore k c).chanDead = s.chanDead := rfl
@[simp] theorem State.setCore_chanNoted (s : State) (k : Nat) (c : Core) : (s.setCore k c).chanNoted = s.chanNoted := rfl
@[simp] theorem State.setCore_chanMarks (s : State) (k : Nat) (c : Core) : (s.setCore k c).chanMarks = s.chanMarks := rfl
@[simp] theorem State.setCore_stackMarks (s : State) (k : Nat) (c : Core) : (s.setCore k c).stackMarks = s.stackMarks := rfl
@[simp] theorem State.setCore_lines (s : State) (k : Nat) (c : Core) : (s.setCore k c).lines = s.lines := rfl
@[simp] theorem State.setCore_lineRead (s : State) (k : Nat) (c : Core) : (s.setCore k c).lineRead = s.lineRead := rfl
@[simp] theorem State.setCore_hostMem (s : State) (k : Nat) (c : Core) : (s.setCore k c).hostMem = s.hostMem := rfl
@[simp] theorem State.setCore_sync (s : State) (k : Nat) (c : Core) : (s.setCore k c).sync = s.sync := rfl
@[simp] theorem State.setCore_dips (s : State) (k : Nat) (c : Core) : (s.setCore k c).dips = s.dips := rfl
@[simp] theorem State.setCore_dipq (s : State) (k : Nat) (c : Core) : (s.setCore k c).dipq = s.dipq := rfl
@[simp] theorem State.setCore_slots (s : State) (k : Nat) (c : Core) : (s.setCore k c).slots = s.slots := rfl
@[simp] theorem State.setCore_nextSlot (s : State) (k : Nat) (c : Core) : (s.setCore k c).nextSlot = s.nextSlot := rfl
@[simp] theorem State.setCore_ringStop (s : State) (k : Nat) (c : Core) : (s.setCore k c).ringStop = s.ringStop := rfl
@[simp] theorem State.setCore_ctxTurn (s : State) (k : Nat) (c : Core) : (s.setCore k c).ctxTurn = s.ctxTurn := rfl
@[simp] theorem State.setCore_runs (s : State) (k : Nat) (c : Core) : (s.setCore k c).runs = s.runs := rfl
@[simp] theorem State.setCore_faults (s : State) (k : Nat) (c : Core) : (s.setCore k c).faults = s.faults := rfl
@[simp] theorem State.setCore_heldFaults (s : State) (k : Nat) (c : Core) : (s.setCore k c).heldFaults = s.heldFaults := rfl
@[simp] theorem State.setCore_lostMark (s : State) (k : Nat) (c : Core) : (s.setCore k c).lostMark = s.lostMark := rfl
@[simp] theorem State.setCore_alert (s : State) (k : Nat) (c : Core) : (s.setCore k c).alert = s.alert := rfl
@[simp] theorem State.setCore_comps (s : State) (k : Nat) (c : Core) : (s.setCore k c).comps = s.comps := rfl
@[simp] theorem State.setCore_irqCount (s : State) (k : Nat) (c : Core) : (s.setCore k c).irqCount = s.irqCount := rfl
@[simp] theorem State.setCore_hists (s : State) (k : Nat) (c : Core) : (s.setCore k c).hists = s.hists := rfl
@[simp] theorem State.setCore_fuses (s : State) (k : Nat) (c : Core) : (s.setCore k c).fuses = s.fuses := rfl
@[simp] theorem State.setCore_geomGo (s : State) (k : Nat) (c : Core) : (s.setCore k c).geomGo = s.geomGo := rfl
@[simp] theorem State.setCore_reqs (s : State) (k : Nat) (c : Core) : (s.setCore k c).reqs = s.reqs := rfl
@[simp] theorem State.setCore_nextTag (s : State) (k : Nat) (c : Core) : (s.setCore k c).nextTag = s.nextTag := rfl
@[simp] theorem State.setCore_passes (s : State) (k : Nat) (c : Core) : (s.setCore k c).passes = s.passes := rfl
@[simp] theorem State.setCore_tagSent (s : State) (k : Nat) (c : Core) : (s.setCore k c).tagSent = s.tagSent := rfl
@[simp] theorem State.setCore_replay (s : State) (k : Nat) (c : Core) : (s.setCore k c).replay = s.replay := rfl
@[simp] theorem State.setCore_lastSpill (s : State) (k : Nat) (c : Core) : (s.setCore k c).lastSpill = s.lastSpill := rfl
@[simp] theorem State.setCore_linkFails (s : State) (k : Nat) (c : Core) : (s.setCore k c).linkFails = s.linkFails := rfl
@[simp] theorem State.setCore_waiting (s : State) (k : Nat) (c : Core) : (s.setCore k c).waiting = s.waiting := rfl
@[simp] theorem State.setCore_applied (s : State) (k : Nat) (c : Core) : (s.setCore k c).applied = s.applied := rfl
@[simp] theorem State.setCore_combs (s : State) (k : Nat) (c : Core) : (s.setCore k c).combs = s.combs := rfl
@[simp] theorem State.setCore_reinj (s : State) (k : Nat) (c : Core) : (s.setCore k c).reinj = s.reinj := rfl
@[simp] theorem State.setCore_slowOut (s : State) (k : Nat) (c : Core) : (s.setCore k c).slowOut = s.slowOut := rfl
@[simp] theorem State.setCore_doorMsgs (s : State) (k : Nat) (c : Core) : (s.setCore k c).doorMsgs = s.doorMsgs := rfl
@[simp] theorem State.setCore_nextMsg (s : State) (k : Nat) (c : Core) : (s.setCore k c).nextMsg = s.nextMsg := rfl
@[simp] theorem State.setCore_doorSeq (s : State) (k : Nat) (c : Core) : (s.setCore k c).doorSeq = s.doorSeq := rfl
@[simp] theorem State.setCore_doorReset (s : State) (k : Nat) (c : Core) : (s.setCore k c).doorReset = s.doorReset := rfl
@[simp] theorem State.setCore_doorUsed (s : State) (k : Nat) (c : Core) : (s.setCore k c).doorUsed = s.doorUsed := rfl
@[simp] theorem State.setCore_doorIn (s : State) (k : Nat) (c : Core) : (s.setCore k c).doorIn = s.doorIn := rfl
@[simp] theorem State.setCore_doorBacks (s : State) (k : Nat) (c : Core) : (s.setCore k c).doorBacks = s.doorBacks := rfl
@[simp] theorem State.setCore_pkgDown (s : State) (k : Nat) (c : Core) : (s.setCore k c).pkgDown = s.pkgDown := rfl
@[simp] theorem State.setCore_pkgFails (s : State) (k : Nat) (c : Core) : (s.setCore k c).pkgFails = s.pkgFails := rfl
@[simp] theorem State.setCore_tripped (s : State) (k : Nat) (c : Core) : (s.setCore k c).tripped = s.tripped := rfl
@[simp] theorem State.setCore_capStep (s : State) (k : Nat) (c : Core) : (s.setCore k c).capStep = s.capStep := rfl
@[simp] theorem State.setCore_thermStep (s : State) (k : Nat) (c : Core) : (s.setCore k c).thermStep = s.thermStep := rfl
@[simp] theorem State.setCore_entry (s : State) (k : Nat) (c : Core) : (s.setCore k c).entry = s.entry := rfl
@[simp] theorem State.setCore_abortDue (s : State) (k : Nat) (c : Core) : (s.setCore k c).abortDue = s.abortDue := rfl
@[simp] theorem State.setCore_heldReq (s : State) (k : Nat) (c : Core) : (s.setCore k c).heldReq = s.heldReq := rfl
@[simp] theorem State.setCore_wakeHeld (s : State) (k : Nat) (c : Core) : (s.setCore k c).wakeHeld = s.wakeHeld := rfl
@[simp] theorem State.setCore_tooHot (s : State) (k : Nat) (c : Core) : (s.setCore k c).tooHot = s.tooHot := rfl
@[simp] theorem State.setCore_inputs (s : State) (k : Nat) (c : Core) : (s.setCore k c).inputs = s.inputs := rfl
@[simp] theorem State.setCore_energy (s : State) (k : Nat) (c : Core) : (s.setCore k c).energy = s.energy := rfl
@[simp] theorem State.setCore_capBelow (s : State) (k : Nat) (c : Core) : (s.setCore k c).capBelow = s.capBelow := rfl
@[simp] theorem State.setCore_temps (s : State) (k : Nat) (c : Core) : (s.setCore k c).temps = s.temps := rfl
@[simp] theorem State.setCore_alarmed (s : State) (k : Nat) (c : Core) : (s.setCore k c).alarmed = s.alarmed := rfl
@[simp] theorem State.setCore_tseq (s : State) (k : Nat) (c : Core) : (s.setCore k c).tseq = s.tseq := rfl
@[simp] theorem State.setCore_tlost (s : State) (k : Nat) (c : Core) : (s.setCore k c).tlost = s.tlost := rfl
@[simp] theorem State.setCore_tbusy (s : State) (k : Nat) (c : Core) : (s.setCore k c).tbusy = s.tbusy := rfl
@[simp] theorem State.setCore_pools (s : State) (k : Nat) (c : Core) : (s.setCore k c).pools = s.pools := rfl
@[simp] theorem State.setCore_refs (s : State) (k : Nat) (c : Core) : (s.setCore k c).refs = s.refs := rfl
@[simp] theorem State.setCore_rounds (s : State) (k : Nat) (c : Core) : (s.setCore k c).rounds = s.rounds := rfl
@[simp] theorem State.setCore_holds (s : State) (k : Nat) (c : Core) : (s.setCore k c).holds = s.holds := rfl
@[simp] theorem State.setCore_exchs (s : State) (k : Nat) (c : Core) : (s.setCore k c).exchs = s.exchs := rfl
@[simp] theorem State.setCore_services (s : State) (k : Nat) (c : Core) : (s.setCore k c).services = s.services := rfl
@[simp] theorem State.setCore_dones (s : State) (k : Nat) (c : Core) : (s.setCore k c).dones = s.dones := rfl
@[simp] theorem State.setCore_kept (s : State) (k : Nat) (c : Core) : (s.setCore k c).kept = s.kept := rfl
@[simp] theorem State.setCore_nextKept (s : State) (k : Nat) (c : Core) : (s.setCore k c).nextKept = s.nextKept := rfl
@[simp] theorem State.setCore_loop (s : State) (k : Nat) (c : Core) : (s.setCore k c).loop = s.loop := rfl
@[simp] theorem State.setCore_reds (s : State) (k : Nat) (c : Core) : (s.setCore k c).reds = s.reds := rfl
@[simp] theorem State.setCore_sumpFrom (s : State) (k : Nat) (c : Core) : (s.setCore k c).sumpFrom = s.sumpFrom := rfl
@[simp] theorem State.setCore_lateParts (s : State) (k : Nat) (c : Core) : (s.setCore k c).lateParts = s.lateParts := rfl
@[simp] theorem State.setCore_rngMark (s : State) (k : Nat) (c : Core) : (s.setCore k c).rngMark = s.rngMark := rfl
@[simp] theorem State.setCore_linkWas (s : State) (k : Nat) (c : Core) : (s.setCore k c).linkWas = s.linkWas := rfl
@[simp] theorem State.setCore_power (s : State) (k : Nat) (c : Core) : (s.setCore k c).power = s.power := rfl
@[simp] theorem State.setCore_resetHeld (s : State) (k : Nat) (c : Core) : (s.setCore k c).resetHeld = s.resetHeld := rfl
@[simp] theorem State.setCore_resetKind (s : State) (k : Nat) (c : Core) : (s.setCore k c).resetKind = s.resetKind := rfl
@[simp] theorem State.setCore_boot (s : State) (k : Nat) (c : Core) : (s.setCore k c).boot = s.boot := rfl
@[simp] theorem State.setCore_production (s : State) (k : Nat) (c : Core) : (s.setCore k c).production = s.production := rfl
@[simp] theorem State.setCore_tapIr (s : State) (k : Nat) (c : Core) : (s.setCore k c).tapIr = s.tapIr := rfl
@[simp] theorem State.setCore_report (s : State) (k : Nat) (c : Core) : (s.setCore k c).report = s.report := rfl
@[simp] theorem State.setCore_dynAddr (s : State) (k : Nat) (c : Core) : (s.setCore k c).dynAddr = s.dynAddr := rfl
@[simp] theorem State.setCore_endpoint (s : State) (k : Nat) (c : Core) : (s.setCore k c).endpoint = s.endpoint := rfl
@[simp] theorem State.setCore_out (s : State) (k : Nat) (c : Core) : (s.setCore k c).out = s.out := rfl

/-! `setSlot` -/

@[simp] theorem State.setSlot_pending (s : State) (n : Nat) (v : Slot) : (s.setSlot n v).pending = s.pending := rfl
@[simp] theorem State.setSlot_now (s : State) (n : Nat) (v : Slot) : (s.setSlot n v).now = s.now := rfl
@[simp] theorem State.setSlot_centi (s : State) (n : Nat) (v : Slot) : (s.setSlot n v).centi = s.centi := rfl
@[simp] theorem State.setSlot_free (s : State) (n : Nat) (v : Slot) : (s.setSlot n v).free = s.free := rfl
@[simp] theorem State.setSlot_regs (s : State) (n : Nat) (v : Slot) : (s.setSlot n v).regs = s.regs := rfl
@[simp] theorem State.setSlot_mem (s : State) (n : Nat) (v : Slot) : (s.setSlot n v).mem = s.mem := rfl
@[simp] theorem State.setSlot_ue (s : State) (n : Nat) (v : Slot) : (s.setSlot n v).ue = s.ue := rfl
@[simp] theorem State.setSlot_pinGen (s : State) (n : Nat) (v : Slot) : (s.setSlot n v).pinGen = s.pinGen := rfl
@[simp] theorem State.setSlot_chanDead (s : State) (n : Nat) (v : Slot) : (s.setSlot n v).chanDead = s.chanDead := rfl
@[simp] theorem State.setSlot_chanNoted (s : State) (n : Nat) (v : Slot) : (s.setSlot n v).chanNoted = s.chanNoted := rfl
@[simp] theorem State.setSlot_chanMarks (s : State) (n : Nat) (v : Slot) : (s.setSlot n v).chanMarks = s.chanMarks := rfl
@[simp] theorem State.setSlot_stackMarks (s : State) (n : Nat) (v : Slot) : (s.setSlot n v).stackMarks = s.stackMarks := rfl
@[simp] theorem State.setSlot_lines (s : State) (n : Nat) (v : Slot) : (s.setSlot n v).lines = s.lines := rfl
@[simp] theorem State.setSlot_lineRead (s : State) (n : Nat) (v : Slot) : (s.setSlot n v).lineRead = s.lineRead := rfl
@[simp] theorem State.setSlot_hostMem (s : State) (n : Nat) (v : Slot) : (s.setSlot n v).hostMem = s.hostMem := rfl
@[simp] theorem State.setSlot_cores (s : State) (n : Nat) (v : Slot) : (s.setSlot n v).cores = s.cores := rfl
@[simp] theorem State.setSlot_sync (s : State) (n : Nat) (v : Slot) : (s.setSlot n v).sync = s.sync := rfl
@[simp] theorem State.setSlot_dips (s : State) (n : Nat) (v : Slot) : (s.setSlot n v).dips = s.dips := rfl
@[simp] theorem State.setSlot_dipq (s : State) (n : Nat) (v : Slot) : (s.setSlot n v).dipq = s.dipq := rfl
@[simp] theorem State.setSlot_nextSlot (s : State) (n : Nat) (v : Slot) : (s.setSlot n v).nextSlot = s.nextSlot := rfl
@[simp] theorem State.setSlot_ringStop (s : State) (n : Nat) (v : Slot) : (s.setSlot n v).ringStop = s.ringStop := rfl
@[simp] theorem State.setSlot_ctxTurn (s : State) (n : Nat) (v : Slot) : (s.setSlot n v).ctxTurn = s.ctxTurn := rfl
@[simp] theorem State.setSlot_runs (s : State) (n : Nat) (v : Slot) : (s.setSlot n v).runs = s.runs := rfl
@[simp] theorem State.setSlot_faults (s : State) (n : Nat) (v : Slot) : (s.setSlot n v).faults = s.faults := rfl
@[simp] theorem State.setSlot_heldFaults (s : State) (n : Nat) (v : Slot) : (s.setSlot n v).heldFaults = s.heldFaults := rfl
@[simp] theorem State.setSlot_lostMark (s : State) (n : Nat) (v : Slot) : (s.setSlot n v).lostMark = s.lostMark := rfl
@[simp] theorem State.setSlot_alert (s : State) (n : Nat) (v : Slot) : (s.setSlot n v).alert = s.alert := rfl
@[simp] theorem State.setSlot_comps (s : State) (n : Nat) (v : Slot) : (s.setSlot n v).comps = s.comps := rfl
@[simp] theorem State.setSlot_irqCount (s : State) (n : Nat) (v : Slot) : (s.setSlot n v).irqCount = s.irqCount := rfl
@[simp] theorem State.setSlot_hists (s : State) (n : Nat) (v : Slot) : (s.setSlot n v).hists = s.hists := rfl
@[simp] theorem State.setSlot_fuses (s : State) (n : Nat) (v : Slot) : (s.setSlot n v).fuses = s.fuses := rfl
@[simp] theorem State.setSlot_geomGo (s : State) (n : Nat) (v : Slot) : (s.setSlot n v).geomGo = s.geomGo := rfl
@[simp] theorem State.setSlot_reqs (s : State) (n : Nat) (v : Slot) : (s.setSlot n v).reqs = s.reqs := rfl
@[simp] theorem State.setSlot_nextTag (s : State) (n : Nat) (v : Slot) : (s.setSlot n v).nextTag = s.nextTag := rfl
@[simp] theorem State.setSlot_passes (s : State) (n : Nat) (v : Slot) : (s.setSlot n v).passes = s.passes := rfl
@[simp] theorem State.setSlot_tagSent (s : State) (n : Nat) (v : Slot) : (s.setSlot n v).tagSent = s.tagSent := rfl
@[simp] theorem State.setSlot_replay (s : State) (n : Nat) (v : Slot) : (s.setSlot n v).replay = s.replay := rfl
@[simp] theorem State.setSlot_lastSpill (s : State) (n : Nat) (v : Slot) : (s.setSlot n v).lastSpill = s.lastSpill := rfl
@[simp] theorem State.setSlot_linkFails (s : State) (n : Nat) (v : Slot) : (s.setSlot n v).linkFails = s.linkFails := rfl
@[simp] theorem State.setSlot_waiting (s : State) (n : Nat) (v : Slot) : (s.setSlot n v).waiting = s.waiting := rfl
@[simp] theorem State.setSlot_applied (s : State) (n : Nat) (v : Slot) : (s.setSlot n v).applied = s.applied := rfl
@[simp] theorem State.setSlot_combs (s : State) (n : Nat) (v : Slot) : (s.setSlot n v).combs = s.combs := rfl
@[simp] theorem State.setSlot_reinj (s : State) (n : Nat) (v : Slot) : (s.setSlot n v).reinj = s.reinj := rfl
@[simp] theorem State.setSlot_slowOut (s : State) (n : Nat) (v : Slot) : (s.setSlot n v).slowOut = s.slowOut := rfl
@[simp] theorem State.setSlot_doorMsgs (s : State) (n : Nat) (v : Slot) : (s.setSlot n v).doorMsgs = s.doorMsgs := rfl
@[simp] theorem State.setSlot_nextMsg (s : State) (n : Nat) (v : Slot) : (s.setSlot n v).nextMsg = s.nextMsg := rfl
@[simp] theorem State.setSlot_doorSeq (s : State) (n : Nat) (v : Slot) : (s.setSlot n v).doorSeq = s.doorSeq := rfl
@[simp] theorem State.setSlot_doorReset (s : State) (n : Nat) (v : Slot) : (s.setSlot n v).doorReset = s.doorReset := rfl
@[simp] theorem State.setSlot_doorUsed (s : State) (n : Nat) (v : Slot) : (s.setSlot n v).doorUsed = s.doorUsed := rfl
@[simp] theorem State.setSlot_doorIn (s : State) (n : Nat) (v : Slot) : (s.setSlot n v).doorIn = s.doorIn := rfl
@[simp] theorem State.setSlot_doorBacks (s : State) (n : Nat) (v : Slot) : (s.setSlot n v).doorBacks = s.doorBacks := rfl
@[simp] theorem State.setSlot_pkgDown (s : State) (n : Nat) (v : Slot) : (s.setSlot n v).pkgDown = s.pkgDown := rfl
@[simp] theorem State.setSlot_pkgFails (s : State) (n : Nat) (v : Slot) : (s.setSlot n v).pkgFails = s.pkgFails := rfl
@[simp] theorem State.setSlot_tripped (s : State) (n : Nat) (v : Slot) : (s.setSlot n v).tripped = s.tripped := rfl
@[simp] theorem State.setSlot_capStep (s : State) (n : Nat) (v : Slot) : (s.setSlot n v).capStep = s.capStep := rfl
@[simp] theorem State.setSlot_thermStep (s : State) (n : Nat) (v : Slot) : (s.setSlot n v).thermStep = s.thermStep := rfl
@[simp] theorem State.setSlot_entry (s : State) (n : Nat) (v : Slot) : (s.setSlot n v).entry = s.entry := rfl
@[simp] theorem State.setSlot_abortDue (s : State) (n : Nat) (v : Slot) : (s.setSlot n v).abortDue = s.abortDue := rfl
@[simp] theorem State.setSlot_heldReq (s : State) (n : Nat) (v : Slot) : (s.setSlot n v).heldReq = s.heldReq := rfl
@[simp] theorem State.setSlot_wakeHeld (s : State) (n : Nat) (v : Slot) : (s.setSlot n v).wakeHeld = s.wakeHeld := rfl
@[simp] theorem State.setSlot_tooHot (s : State) (n : Nat) (v : Slot) : (s.setSlot n v).tooHot = s.tooHot := rfl
@[simp] theorem State.setSlot_inputs (s : State) (n : Nat) (v : Slot) : (s.setSlot n v).inputs = s.inputs := rfl
@[simp] theorem State.setSlot_energy (s : State) (n : Nat) (v : Slot) : (s.setSlot n v).energy = s.energy := rfl
@[simp] theorem State.setSlot_capBelow (s : State) (n : Nat) (v : Slot) : (s.setSlot n v).capBelow = s.capBelow := rfl
@[simp] theorem State.setSlot_temps (s : State) (n : Nat) (v : Slot) : (s.setSlot n v).temps = s.temps := rfl
@[simp] theorem State.setSlot_alarmed (s : State) (n : Nat) (v : Slot) : (s.setSlot n v).alarmed = s.alarmed := rfl
@[simp] theorem State.setSlot_tseq (s : State) (n : Nat) (v : Slot) : (s.setSlot n v).tseq = s.tseq := rfl
@[simp] theorem State.setSlot_tlost (s : State) (n : Nat) (v : Slot) : (s.setSlot n v).tlost = s.tlost := rfl
@[simp] theorem State.setSlot_tbusy (s : State) (n : Nat) (v : Slot) : (s.setSlot n v).tbusy = s.tbusy := rfl
@[simp] theorem State.setSlot_pools (s : State) (n : Nat) (v : Slot) : (s.setSlot n v).pools = s.pools := rfl
@[simp] theorem State.setSlot_refs (s : State) (n : Nat) (v : Slot) : (s.setSlot n v).refs = s.refs := rfl
@[simp] theorem State.setSlot_rounds (s : State) (n : Nat) (v : Slot) : (s.setSlot n v).rounds = s.rounds := rfl
@[simp] theorem State.setSlot_holds (s : State) (n : Nat) (v : Slot) : (s.setSlot n v).holds = s.holds := rfl
@[simp] theorem State.setSlot_exchs (s : State) (n : Nat) (v : Slot) : (s.setSlot n v).exchs = s.exchs := rfl
@[simp] theorem State.setSlot_services (s : State) (n : Nat) (v : Slot) : (s.setSlot n v).services = s.services := rfl
@[simp] theorem State.setSlot_dones (s : State) (n : Nat) (v : Slot) : (s.setSlot n v).dones = s.dones := rfl
@[simp] theorem State.setSlot_kept (s : State) (n : Nat) (v : Slot) : (s.setSlot n v).kept = s.kept := rfl
@[simp] theorem State.setSlot_nextKept (s : State) (n : Nat) (v : Slot) : (s.setSlot n v).nextKept = s.nextKept := rfl
@[simp] theorem State.setSlot_loop (s : State) (n : Nat) (v : Slot) : (s.setSlot n v).loop = s.loop := rfl
@[simp] theorem State.setSlot_reds (s : State) (n : Nat) (v : Slot) : (s.setSlot n v).reds = s.reds := rfl
@[simp] theorem State.setSlot_sumpFrom (s : State) (n : Nat) (v : Slot) : (s.setSlot n v).sumpFrom = s.sumpFrom := rfl
@[simp] theorem State.setSlot_lateParts (s : State) (n : Nat) (v : Slot) : (s.setSlot n v).lateParts = s.lateParts := rfl
@[simp] theorem State.setSlot_rngMark (s : State) (n : Nat) (v : Slot) : (s.setSlot n v).rngMark = s.rngMark := rfl
@[simp] theorem State.setSlot_linkWas (s : State) (n : Nat) (v : Slot) : (s.setSlot n v).linkWas = s.linkWas := rfl
@[simp] theorem State.setSlot_power (s : State) (n : Nat) (v : Slot) : (s.setSlot n v).power = s.power := rfl
@[simp] theorem State.setSlot_resetHeld (s : State) (n : Nat) (v : Slot) : (s.setSlot n v).resetHeld = s.resetHeld := rfl
@[simp] theorem State.setSlot_resetKind (s : State) (n : Nat) (v : Slot) : (s.setSlot n v).resetKind = s.resetKind := rfl
@[simp] theorem State.setSlot_boot (s : State) (n : Nat) (v : Slot) : (s.setSlot n v).boot = s.boot := rfl
@[simp] theorem State.setSlot_production (s : State) (n : Nat) (v : Slot) : (s.setSlot n v).production = s.production := rfl
@[simp] theorem State.setSlot_tapIr (s : State) (n : Nat) (v : Slot) : (s.setSlot n v).tapIr = s.tapIr := rfl
@[simp] theorem State.setSlot_report (s : State) (n : Nat) (v : Slot) : (s.setSlot n v).report = s.report := rfl
@[simp] theorem State.setSlot_dynAddr (s : State) (n : Nat) (v : Slot) : (s.setSlot n v).dynAddr = s.dynAddr := rfl
@[simp] theorem State.setSlot_endpoint (s : State) (n : Nat) (v : Slot) : (s.setSlot n v).endpoint = s.endpoint := rfl
@[simp] theorem State.setSlot_out (s : State) (n : Nat) (v : Slot) : (s.setSlot n v).out = s.out := rfl

/-! `setRun` -/

@[simp] theorem State.setRun_pending (s : State) (n : Nat) (r : LaunchRun) : (s.setRun n r).pending = s.pending := rfl
@[simp] theorem State.setRun_now (s : State) (n : Nat) (r : LaunchRun) : (s.setRun n r).now = s.now := rfl
@[simp] theorem State.setRun_centi (s : State) (n : Nat) (r : LaunchRun) : (s.setRun n r).centi = s.centi := rfl
@[simp] theorem State.setRun_free (s : State) (n : Nat) (r : LaunchRun) : (s.setRun n r).free = s.free := rfl
@[simp] theorem State.setRun_regs (s : State) (n : Nat) (r : LaunchRun) : (s.setRun n r).regs = s.regs := rfl
@[simp] theorem State.setRun_mem (s : State) (n : Nat) (r : LaunchRun) : (s.setRun n r).mem = s.mem := rfl
@[simp] theorem State.setRun_ue (s : State) (n : Nat) (r : LaunchRun) : (s.setRun n r).ue = s.ue := rfl
@[simp] theorem State.setRun_pinGen (s : State) (n : Nat) (r : LaunchRun) : (s.setRun n r).pinGen = s.pinGen := rfl
@[simp] theorem State.setRun_chanDead (s : State) (n : Nat) (r : LaunchRun) : (s.setRun n r).chanDead = s.chanDead := rfl
@[simp] theorem State.setRun_chanNoted (s : State) (n : Nat) (r : LaunchRun) : (s.setRun n r).chanNoted = s.chanNoted := rfl
@[simp] theorem State.setRun_chanMarks (s : State) (n : Nat) (r : LaunchRun) : (s.setRun n r).chanMarks = s.chanMarks := rfl
@[simp] theorem State.setRun_stackMarks (s : State) (n : Nat) (r : LaunchRun) : (s.setRun n r).stackMarks = s.stackMarks := rfl
@[simp] theorem State.setRun_lines (s : State) (n : Nat) (r : LaunchRun) : (s.setRun n r).lines = s.lines := rfl
@[simp] theorem State.setRun_lineRead (s : State) (n : Nat) (r : LaunchRun) : (s.setRun n r).lineRead = s.lineRead := rfl
@[simp] theorem State.setRun_hostMem (s : State) (n : Nat) (r : LaunchRun) : (s.setRun n r).hostMem = s.hostMem := rfl
@[simp] theorem State.setRun_cores (s : State) (n : Nat) (r : LaunchRun) : (s.setRun n r).cores = s.cores := rfl
@[simp] theorem State.setRun_sync (s : State) (n : Nat) (r : LaunchRun) : (s.setRun n r).sync = s.sync := rfl
@[simp] theorem State.setRun_dips (s : State) (n : Nat) (r : LaunchRun) : (s.setRun n r).dips = s.dips := rfl
@[simp] theorem State.setRun_dipq (s : State) (n : Nat) (r : LaunchRun) : (s.setRun n r).dipq = s.dipq := rfl
@[simp] theorem State.setRun_slots (s : State) (n : Nat) (r : LaunchRun) : (s.setRun n r).slots = s.slots := rfl
@[simp] theorem State.setRun_nextSlot (s : State) (n : Nat) (r : LaunchRun) : (s.setRun n r).nextSlot = s.nextSlot := rfl
@[simp] theorem State.setRun_ringStop (s : State) (n : Nat) (r : LaunchRun) : (s.setRun n r).ringStop = s.ringStop := rfl
@[simp] theorem State.setRun_ctxTurn (s : State) (n : Nat) (r : LaunchRun) : (s.setRun n r).ctxTurn = s.ctxTurn := rfl
@[simp] theorem State.setRun_faults (s : State) (n : Nat) (r : LaunchRun) : (s.setRun n r).faults = s.faults := rfl
@[simp] theorem State.setRun_heldFaults (s : State) (n : Nat) (r : LaunchRun) : (s.setRun n r).heldFaults = s.heldFaults := rfl
@[simp] theorem State.setRun_lostMark (s : State) (n : Nat) (r : LaunchRun) : (s.setRun n r).lostMark = s.lostMark := rfl
@[simp] theorem State.setRun_alert (s : State) (n : Nat) (r : LaunchRun) : (s.setRun n r).alert = s.alert := rfl
@[simp] theorem State.setRun_comps (s : State) (n : Nat) (r : LaunchRun) : (s.setRun n r).comps = s.comps := rfl
@[simp] theorem State.setRun_irqCount (s : State) (n : Nat) (r : LaunchRun) : (s.setRun n r).irqCount = s.irqCount := rfl
@[simp] theorem State.setRun_hists (s : State) (n : Nat) (r : LaunchRun) : (s.setRun n r).hists = s.hists := rfl
@[simp] theorem State.setRun_fuses (s : State) (n : Nat) (r : LaunchRun) : (s.setRun n r).fuses = s.fuses := rfl
@[simp] theorem State.setRun_geomGo (s : State) (n : Nat) (r : LaunchRun) : (s.setRun n r).geomGo = s.geomGo := rfl
@[simp] theorem State.setRun_reqs (s : State) (n : Nat) (r : LaunchRun) : (s.setRun n r).reqs = s.reqs := rfl
@[simp] theorem State.setRun_nextTag (s : State) (n : Nat) (r : LaunchRun) : (s.setRun n r).nextTag = s.nextTag := rfl
@[simp] theorem State.setRun_passes (s : State) (n : Nat) (r : LaunchRun) : (s.setRun n r).passes = s.passes := rfl
@[simp] theorem State.setRun_tagSent (s : State) (n : Nat) (r : LaunchRun) : (s.setRun n r).tagSent = s.tagSent := rfl
@[simp] theorem State.setRun_replay (s : State) (n : Nat) (r : LaunchRun) : (s.setRun n r).replay = s.replay := rfl
@[simp] theorem State.setRun_lastSpill (s : State) (n : Nat) (r : LaunchRun) : (s.setRun n r).lastSpill = s.lastSpill := rfl
@[simp] theorem State.setRun_linkFails (s : State) (n : Nat) (r : LaunchRun) : (s.setRun n r).linkFails = s.linkFails := rfl
@[simp] theorem State.setRun_waiting (s : State) (n : Nat) (r : LaunchRun) : (s.setRun n r).waiting = s.waiting := rfl
@[simp] theorem State.setRun_applied (s : State) (n : Nat) (r : LaunchRun) : (s.setRun n r).applied = s.applied := rfl
@[simp] theorem State.setRun_combs (s : State) (n : Nat) (r : LaunchRun) : (s.setRun n r).combs = s.combs := rfl
@[simp] theorem State.setRun_reinj (s : State) (n : Nat) (r : LaunchRun) : (s.setRun n r).reinj = s.reinj := rfl
@[simp] theorem State.setRun_slowOut (s : State) (n : Nat) (r : LaunchRun) : (s.setRun n r).slowOut = s.slowOut := rfl
@[simp] theorem State.setRun_doorMsgs (s : State) (n : Nat) (r : LaunchRun) : (s.setRun n r).doorMsgs = s.doorMsgs := rfl
@[simp] theorem State.setRun_nextMsg (s : State) (n : Nat) (r : LaunchRun) : (s.setRun n r).nextMsg = s.nextMsg := rfl
@[simp] theorem State.setRun_doorSeq (s : State) (n : Nat) (r : LaunchRun) : (s.setRun n r).doorSeq = s.doorSeq := rfl
@[simp] theorem State.setRun_doorReset (s : State) (n : Nat) (r : LaunchRun) : (s.setRun n r).doorReset = s.doorReset := rfl
@[simp] theorem State.setRun_doorUsed (s : State) (n : Nat) (r : LaunchRun) : (s.setRun n r).doorUsed = s.doorUsed := rfl
@[simp] theorem State.setRun_doorIn (s : State) (n : Nat) (r : LaunchRun) : (s.setRun n r).doorIn = s.doorIn := rfl
@[simp] theorem State.setRun_doorBacks (s : State) (n : Nat) (r : LaunchRun) : (s.setRun n r).doorBacks = s.doorBacks := rfl
@[simp] theorem State.setRun_pkgDown (s : State) (n : Nat) (r : LaunchRun) : (s.setRun n r).pkgDown = s.pkgDown := rfl
@[simp] theorem State.setRun_pkgFails (s : State) (n : Nat) (r : LaunchRun) : (s.setRun n r).pkgFails = s.pkgFails := rfl
@[simp] theorem State.setRun_tripped (s : State) (n : Nat) (r : LaunchRun) : (s.setRun n r).tripped = s.tripped := rfl
@[simp] theorem State.setRun_capStep (s : State) (n : Nat) (r : LaunchRun) : (s.setRun n r).capStep = s.capStep := rfl
@[simp] theorem State.setRun_thermStep (s : State) (n : Nat) (r : LaunchRun) : (s.setRun n r).thermStep = s.thermStep := rfl
@[simp] theorem State.setRun_entry (s : State) (n : Nat) (r : LaunchRun) : (s.setRun n r).entry = s.entry := rfl
@[simp] theorem State.setRun_abortDue (s : State) (n : Nat) (r : LaunchRun) : (s.setRun n r).abortDue = s.abortDue := rfl
@[simp] theorem State.setRun_heldReq (s : State) (n : Nat) (r : LaunchRun) : (s.setRun n r).heldReq = s.heldReq := rfl
@[simp] theorem State.setRun_wakeHeld (s : State) (n : Nat) (r : LaunchRun) : (s.setRun n r).wakeHeld = s.wakeHeld := rfl
@[simp] theorem State.setRun_tooHot (s : State) (n : Nat) (r : LaunchRun) : (s.setRun n r).tooHot = s.tooHot := rfl
@[simp] theorem State.setRun_inputs (s : State) (n : Nat) (r : LaunchRun) : (s.setRun n r).inputs = s.inputs := rfl
@[simp] theorem State.setRun_energy (s : State) (n : Nat) (r : LaunchRun) : (s.setRun n r).energy = s.energy := rfl
@[simp] theorem State.setRun_capBelow (s : State) (n : Nat) (r : LaunchRun) : (s.setRun n r).capBelow = s.capBelow := rfl
@[simp] theorem State.setRun_temps (s : State) (n : Nat) (r : LaunchRun) : (s.setRun n r).temps = s.temps := rfl
@[simp] theorem State.setRun_alarmed (s : State) (n : Nat) (r : LaunchRun) : (s.setRun n r).alarmed = s.alarmed := rfl
@[simp] theorem State.setRun_tseq (s : State) (n : Nat) (r : LaunchRun) : (s.setRun n r).tseq = s.tseq := rfl
@[simp] theorem State.setRun_tlost (s : State) (n : Nat) (r : LaunchRun) : (s.setRun n r).tlost = s.tlost := rfl
@[simp] theorem State.setRun_tbusy (s : State) (n : Nat) (r : LaunchRun) : (s.setRun n r).tbusy = s.tbusy := rfl
@[simp] theorem State.setRun_pools (s : State) (n : Nat) (r : LaunchRun) : (s.setRun n r).pools = s.pools := rfl
@[simp] theorem State.setRun_refs (s : State) (n : Nat) (r : LaunchRun) : (s.setRun n r).refs = s.refs := rfl
@[simp] theorem State.setRun_rounds (s : State) (n : Nat) (r : LaunchRun) : (s.setRun n r).rounds = s.rounds := rfl
@[simp] theorem State.setRun_holds (s : State) (n : Nat) (r : LaunchRun) : (s.setRun n r).holds = s.holds := rfl
@[simp] theorem State.setRun_exchs (s : State) (n : Nat) (r : LaunchRun) : (s.setRun n r).exchs = s.exchs := rfl
@[simp] theorem State.setRun_services (s : State) (n : Nat) (r : LaunchRun) : (s.setRun n r).services = s.services := rfl
@[simp] theorem State.setRun_dones (s : State) (n : Nat) (r : LaunchRun) : (s.setRun n r).dones = s.dones := rfl
@[simp] theorem State.setRun_kept (s : State) (n : Nat) (r : LaunchRun) : (s.setRun n r).kept = s.kept := rfl
@[simp] theorem State.setRun_nextKept (s : State) (n : Nat) (r : LaunchRun) : (s.setRun n r).nextKept = s.nextKept := rfl
@[simp] theorem State.setRun_loop (s : State) (n : Nat) (r : LaunchRun) : (s.setRun n r).loop = s.loop := rfl
@[simp] theorem State.setRun_reds (s : State) (n : Nat) (r : LaunchRun) : (s.setRun n r).reds = s.reds := rfl
@[simp] theorem State.setRun_sumpFrom (s : State) (n : Nat) (r : LaunchRun) : (s.setRun n r).sumpFrom = s.sumpFrom := rfl
@[simp] theorem State.setRun_lateParts (s : State) (n : Nat) (r : LaunchRun) : (s.setRun n r).lateParts = s.lateParts := rfl
@[simp] theorem State.setRun_rngMark (s : State) (n : Nat) (r : LaunchRun) : (s.setRun n r).rngMark = s.rngMark := rfl
@[simp] theorem State.setRun_linkWas (s : State) (n : Nat) (r : LaunchRun) : (s.setRun n r).linkWas = s.linkWas := rfl
@[simp] theorem State.setRun_power (s : State) (n : Nat) (r : LaunchRun) : (s.setRun n r).power = s.power := rfl
@[simp] theorem State.setRun_resetHeld (s : State) (n : Nat) (r : LaunchRun) : (s.setRun n r).resetHeld = s.resetHeld := rfl
@[simp] theorem State.setRun_resetKind (s : State) (n : Nat) (r : LaunchRun) : (s.setRun n r).resetKind = s.resetKind := rfl
@[simp] theorem State.setRun_boot (s : State) (n : Nat) (r : LaunchRun) : (s.setRun n r).boot = s.boot := rfl
@[simp] theorem State.setRun_production (s : State) (n : Nat) (r : LaunchRun) : (s.setRun n r).production = s.production := rfl
@[simp] theorem State.setRun_tapIr (s : State) (n : Nat) (r : LaunchRun) : (s.setRun n r).tapIr = s.tapIr := rfl
@[simp] theorem State.setRun_report (s : State) (n : Nat) (r : LaunchRun) : (s.setRun n r).report = s.report := rfl
@[simp] theorem State.setRun_dynAddr (s : State) (n : Nat) (r : LaunchRun) : (s.setRun n r).dynAddr = s.dynAddr := rfl
@[simp] theorem State.setRun_endpoint (s : State) (n : Nat) (r : LaunchRun) : (s.setRun n r).endpoint = s.endpoint := rfl
@[simp] theorem State.setRun_out (s : State) (n : Nat) (r : LaunchRun) : (s.setRun n r).out = s.out := rfl

/-! ## Reading after writing -/

/-- A register holds what was written to it, modulo 2^64; every other register is as it was. -/
theorem State.reg_setReg (s : State) (o v x : Nat) : (s.setReg o v).reg x = if x = o then v % 2 ^ 64 else s.reg x := by
  unfold State.reg State.setReg
  by_cases h : x = o
  · subst h; simp
  · simp [Tbl.get_set_other _ _ _ _ h, h]

@[simp] theorem State.reg_setReg_same (s : State) (o v : Nat) : (s.setReg o v).reg o = v % 2 ^ 64 := by
  simp [State.reg_setReg]

theorem State.reg_setReg_other (s : State) {o x : Nat} (v : Nat) (h : x ≠ o) : (s.setReg o v).reg x = s.reg x := by
  simp [State.reg_setReg, h]

theorem State.reg_lt (s : State) (o : Nat) : s.reg o < 2 ^ 64 := by unfold State.reg; exact BitVec.isLt _

theorem State.core_setCore (s : State) (k j : Nat) (c : Core) : (s.setCore k c).core j = if j = k then c else s.core j := by
  unfold State.core State.setCore
  by_cases h : j = k
  · subst h; simp
  · simp [Tbl.get_set_other _ _ _ _ h, h]

@[simp] theorem State.core_setCore_same (s : State) (k : Nat) (c : Core) : (s.setCore k c).core k = c := by
  simp [State.core_setCore]

theorem State.core_setCore_other (s : State) {k j : Nat} (c : Core) (h : j ≠ k) : (s.setCore k c).core j = s.core j := by
  simp [State.core_setCore, h]

@[simp] theorem State.core_setReg (s : State) (o v k : Nat) : (s.setReg o v).core k = s.core k := rfl
@[simp] theorem State.reg_setCore (s : State) (k : Nat) (c : Core) (o : Nat) : (s.setCore k c).reg o = s.reg o := rfl
@[simp] theorem State.reg_setSlot (s : State) (n : Nat) (v : Slot) (o : Nat) : (s.setSlot n v).reg o = s.reg o := rfl
@[simp] theorem State.reg_setRun (s : State) (n : Nat) (r : LaunchRun) (o : Nat) : (s.setRun n r).reg o = s.reg o := rfl
@[simp] theorem State.core_setSlot (s : State) (n : Nat) (v : Slot) (k : Nat) : (s.setSlot n v).core k = s.core k := rfl
@[simp] theorem State.core_setRun (s : State) (n : Nat) (r : LaunchRun) (k : Nat) : (s.setRun n r).core k = s.core k := rfl
@[simp] theorem State.slot_setReg (s : State) (o v n : Nat) : (s.setReg o v).slot n = s.slot n := rfl
@[simp] theorem State.slot_setCore (s : State) (k : Nat) (c : Core) (n : Nat) : (s.setCore k c).slot n = s.slot n := rfl
@[simp] theorem State.slot_setRun (s : State) (m : Nat) (r : LaunchRun) (n : Nat) : (s.setRun m r).slot n = s.slot n := rfl
@[simp] theorem State.lrun_setReg (s : State) (o v n : Nat) : (s.setReg o v).lrun n = s.lrun n := rfl
@[simp] theorem State.lrun_setCore (s : State) (k : Nat) (c : Core) (n : Nat) : (s.setCore k c).lrun n = s.lrun n := rfl
@[simp] theorem State.lrun_setSlot (s : State) (m : Nat) (v : Slot) (n : Nat) : (s.setSlot m v).lrun n = s.lrun n := rfl

theorem State.slot_setSlot (s : State) (n j : Nat) (v : Slot) : (s.setSlot n v).slot j = if j = n then v else s.slot j := by
  unfold State.slot State.setSlot
  by_cases h : j = n
  · subst h; simp
  · simp [Tbl.get_set_other _ _ _ _ h, h]

@[simp] theorem State.slot_setSlot_same (s : State) (n : Nat) (v : Slot) : (s.setSlot n v).slot n = v := by simp [State.slot_setSlot]

theorem State.lrun_setRun (s : State) (n j : Nat) (r : LaunchRun) : (s.setRun n r).lrun j = if j = n then r else s.lrun j := by
  unfold State.lrun State.setRun
  by_cases h : j = n
  · subst h; simp
  · simp [Tbl.get_set_other _ _ _ _ h, h]

@[simp] theorem State.lrun_setRun_same (s : State) (n : Nat) (r : LaunchRun) : (s.setRun n r).lrun n = r := by simp [State.lrun_setRun]

/-! ## The register operations -/

theorem State.incReg_eq (s : State) (o n : Nat) : s.incReg o n = s.setReg o (s.reg o + n) := rfl
theorem State.setField_eq (s : State) (o hi lo v : Nat) : s.setField o hi lo v = s.setReg o (setBits (s.reg o) hi lo v) := rfl
theorem State.setFlag_eq (s : State) (o i : Nat) (b : Bool) : s.setFlag o i b = s.setReg o (setBits (s.reg o) i i (b2n b)) := rfl

end Sys2Proof.Machine
end

