-- ==== Sys2Proof/Laws/Memory.lean ====
section
/-! SUPPORT. Reading and writing memory: what a read depends on, a read after a write, and where a write goes. -/

namespace Sys2Proof.Machine

/-- Registers that decide where a local offset lies: the channel map, the DRAM size, placement, pinned sizes. -/
def memReg (o : Nat) : Prop :=
  (0x2000 ≤ o ∧ o < 0x2100) ∨ o = Reg.geomDram ∨ o = Reg.memCtl ∨ o = Reg.memLarderCfg

theorem chansIn_congr {s t : State} (h : ∀ o, memReg o → t.reg o = s.reg o) (st lo n : Nat) (hs : st < 16) (hn : lo + n ≤ 128) :
    t.chansIn st lo n = s.chansIn st lo n := by
  unfold State.chansIn
  apply List.filter_congr
  intro c hc
  simp only [List.mem_map, List.mem_range] at hc
  obtain ⟨a, ha, rfl⟩ := hc
  unfold State.chanIn State.flag
  rw [h _ (.inl (by unfold Reg.geomChanMap; omega))]

theorem place_congr {s t : State} (h : ∀ o, memReg o → t.reg o = s.reg o)
    (hr : ∀ j, (t.core j).retired = (s.core j).retired) (hb : ∀ j, (t.core j).run.map Run.banks = (s.core j).run.map Run.banks) (o : Nat) :
    t.place o = s.place o := by
  have hn : o < 0x12000000000 → t.native o = s.native o := fun ho => by
    unfold State.native
    dsimp only
    rw [chansIn_congr h _ _ _ (by omega) (by omega)]
  have hh : t.hashed o = s.hashed o := by
    have : t.allChans = s.allChans := by
      unfold State.allChans List.flatMap
      congr 1
      apply List.map_congr_left
      intro st hst
      rw [chansIn_congr h _ _ _ (by simpa using hst) (by omega)]
    unfold State.hashed
    rw [this, h _ (.inr (.inl rfl))]
  unfold State.place
  have hm : regionOf o = some .dram → o < 0x12000000000 := by
    intro e
    unfold regionOf at e
    split at e
    · assumption
    · repeat' (split at e)
      all_goals simp at e
  split
  · rename_i e
    unfold State.flag
    rw [h _ (.inr (.inr (.inl rfl))), hh, hn (hm e)]
  · rw [h _ (.inr (.inr (.inr rfl)))]
  · rename_i n _
    dsimp only
    rw [hr n]
    have := hb n
    cases h1 : (t.core n).run <;> cases h2 : (s.core n).run <;> simp_all
  · simp only [hr]
  · simp only [hr]
  · rfl

/-- A byte of memory reads as before when the bytes, the errors, the map and the failed channels are as before. -/
theorem memByte_congr {s t : State} (hm : t.mem = s.mem) (hu : t.ue = s.ue) (hg : t.pinGen = s.pinGen) (hd : t.chanDead = s.chanDead) (h : ∀ o, memReg o → t.reg o = s.reg o)
    (hr : ∀ j, (t.core j).retired = (s.core j).retired) (hb : ∀ j, (t.core j).run.map Run.banks = (s.core j).run.map Run.banks) (o : Nat) :
    t.memByte o = s.memByte o := by
  unfold State.memByte
  rw [place_congr h hr hb]
  split
  · rfl
  · rename_i p _
    have hf : t.failed p = s.failed p := by unfold State.failed; rw [hd]
    unfold State.bad State.pinMask
    rw [hf, hm, hu, hg]

/-! ## What leaves the memory's map alone -/

/-- The memory and its map are the same in both states. -/
structure SameMem (s t : State) : Prop where
  mem : t.mem = s.mem
  ue : t.ue = s.ue
  gen : t.pinGen = s.pinGen
  dead : t.chanDead = s.chanDead
  regs : ∀ o, memReg o → t.reg o = s.reg o
  cores : t.cores = s.cores

theorem SameMem.refl (s : State) : SameMem s s := ⟨rfl, rfl, rfl, rfl, fun _ _ => rfl, rfl⟩

theorem SameMem.trans {s t u : State} (h : SameMem s t) (g : SameMem t u) : SameMem s u :=
  ⟨g.mem.trans h.mem, g.ue.trans h.ue, g.gen.trans h.gen, g.dead.trans h.dead, fun o ho => (g.regs o ho).trans (h.regs o ho), g.cores.trans h.cores⟩

theorem SameMem.place {s t : State} (h : SameMem s t) (o : Nat) : t.place o = s.place o :=
  place_congr h.regs (fun j => by unfold State.core; rw [h.cores]) (fun j => by unfold State.core; rw [h.cores]) o

theorem SameMem.memByte {s t : State} (h : SameMem s t) (o : Nat) : t.memByte o = s.memByte o :=
  memByte_congr h.mem h.ue h.gen h.dead h.regs (fun j => by unfold State.core; rw [h.cores]) (fun j => by unfold State.core; rw [h.cores]) o

theorem SameMem.setReg (s : State) {o : Nat} (v : Nat) (h : ¬memReg o) : SameMem s (s.setReg o v) :=
  ⟨rfl, rfl, rfl, rfl, fun _ hx => State.reg_setReg_other s v (fun e => h (e ▸ hx)), rfl⟩

theorem SameMem.incReg (s : State) {o : Nat} (n : Nat) (h : ¬memReg o) : SameMem s (s.incReg o n) := SameMem.setReg s _ h

theorem SameMem.setField (s : State) {o : Nat} (hi lo v : Nat) (h : ¬memReg o) : SameMem s (s.setField o hi lo v) := SameMem.setReg s _ h

theorem SameMem.takeFree (s : State) : SameMem s s.takeFree.2 := ⟨rfl, rfl, rfl, rfl, fun _ _ => rfl, rfl⟩

theorem SameMem.foldl {α : Type} {f : State → α → State} (hf : ∀ t x, SameMem t (f t x)) (l : List α) (s : State) : SameMem s (l.foldl f s) := by
  induction l generalizing s with
  | nil => exact SameMem.refl s
  | cons x l ih => exact (hf s x).trans (ih _)

theorem State.failed_congr {s t : State} (h : t.chanDead = s.chanDead) (p : Nat) : t.failed p = s.failed p := by unfold State.failed; rw [h]

/-! ## The Larder's cache keeps counters and tags only -/

theorem SameMem.lines {s t : State} (l : Tbl Nat) (h : SameMem s t) : SameMem s { t with lines := l } :=
  ⟨h.mem, h.ue, h.gen, h.dead, h.regs, h.cores⟩

theorem hits_sameMem (s : State) (m n : Nat) : SameMem s (s.incReg (Reg.larderHits m) n) :=
  SameMem.incReg _ _ (by unfold memReg Reg.geomDram Reg.memCtl Reg.memLarderCfg Reg.larderHits; omega)

theorem misses_sameMem (s : State) (m n : Nat) : SameMem s (s.incReg (Reg.larderMisses m) n) :=
  SameMem.incReg _ _ (by unfold memReg Reg.geomDram Reg.memCtl Reg.memLarderCfg Reg.larderMisses; omega)

theorem combined_sameMem (s : State) (m n : Nat) : SameMem s (s.incReg (Reg.larderReadsCombined m) n) :=
  SameMem.incReg _ _ (by unfold memReg Reg.geomDram Reg.memCtl Reg.memLarderCfg Reg.larderReadsCombined; omega)

theorem classBytes_sameMem (s : State) (st cls n : Nat) : SameMem s (s.classBytes st cls n) :=
  SameMem.incReg _ _ (by unfold memReg Reg.geomDram Reg.memCtl Reg.memLarderCfg Reg.memClassBytes; omega)

theorem evict_sameMem (s : State) (e : Nat × Nat) : SameMem s (s.evict e) := by
  unfold State.evict
  dsimp only
  split
  · exact (SameMem.lines _ (SameMem.refl s)).trans (classBytes_sameMem _ _ _ _)
  · exact SameMem.lines _ (SameMem.refl s)

theorem evictAt_sameMem (s : State) (x : Option (Nat × Nat)) : SameMem s (x.elim s s.evict) := by
  cases x with
  | none => exact SameMem.refl s
  | some e => exact evict_sameMem s e

theorem fillLine_sameMem (s : State) (l g : Nat) : SameMem s (s.fillLine l g) := by
  unfold State.fillLine
  dsimp only
  apply SameMem.lines
  split
  · exact SameMem.refl s
  · refine (SameMem.takeFree s).trans ?_
    split
    · exact evictAt_sameMem _ _
    · split
      · exact SameMem.refl _
      · exact evictAt_sameMem _ _

theorem noteLineRead_sameMem (s : State) (l : Nat) : SameMem s (s.noteLineRead l) := ⟨rfl, rfl, rfl, rfl, fun _ _ => rfl, rfl⟩

theorem lineAccess_sameMem (s : State) (cls : Nat) (write alloc : Bool) (p n : Nat) : SameMem s (s.lineAccess cls write alloc p n) := by
  have miss : ∀ t : State, ∀ m st b, SameMem t ((t.incReg (Reg.larderMisses m) 1).classBytes st cls b) :=
    fun t m st b => (misses_sameMem t m 1).trans (classBytes_sameMem _ _ _ _)
  unfold State.lineAccess
  dsimp only
  split
  · split
    · exact miss _ _ _ _
    · split
      · exact SameMem.lines _ (hits_sameMem _ _ _)
      · refine SameMem.trans ?_ (fillLine_sameMem _ _ _)
        split
        · exact misses_sameMem _ _ _
        · exact miss _ _ _ _
  · split
    · exact hits_sameMem _ _ _
    · have h : ∀ b, SameMem s (if s.lineWarm (p / 128) then s.incReg (Reg.larderReadsCombined (stackOf p / 4)) 1
          else ((s.incReg (Reg.larderMisses (stackOf p / 4)) 1).classBytes (stackOf p) cls b).noteLineRead (p / 128)) := by
        intro b
        split
        · exact combined_sameMem _ _ _
        · exact (miss _ _ _ _).trans (noteLineRead_sameMem _ _)
      split
      · exact (h _).trans (fillLine_sameMem _ _ _)
      · exact h _

theorem noteLines_sameMem (s : State) (kind o n : Nat) (write : Bool) (alloc : Option Bool) : SameMem s (s.noteLines kind o n write alloc) := by
  unfold State.noteLines
  split
  · dsimp only
    refine (SameMem.takeFree s).trans (SameMem.foldl (fun t u => ?_) _ _)
    split
    · exact SameMem.refl t
    · exact lineAccess_sameMem _ _ _ _ _ _
  · exact SameMem.refl s

theorem noteAccess_sameMem (s : State) (kind o n : Nat) (write : Bool) : SameMem s (s.noteAccess kind o n write) := noteLines_sameMem _ _ _ _ _ _

theorem noteAtomic_sameMem (s : State) (kind o n : Nat) : SameMem s (s.noteAtomic kind o n) := noteLines_sameMem _ _ _ _ _ _

theorem touch_sameMem (s : State) (k b : Nat) : SameMem s (s.touch k b) := by
  unfold State.touch
  split
  · exact SameMem.refl s
  · refine (SameMem.setField _ _ _ _ ?_).trans (SameMem.setField _ _ _ _ ?_) <;>
      (unfold memReg Reg.geomDram Reg.memCtl Reg.memLarderCfg; first | unfold Reg.cisTouched | unfold Reg.cisStatus) <;> unfold Reg.coreBlock <;> omega

theorem touchRange_sameMem (s : State) (o n : Nat) : SameMem s (s.touchRange o n) := by
  unfold State.touchRange
  split
  · dsimp only
    split
    · exact SameMem.refl s
    · exact SameMem.foldl (fun t i => touch_sameMem t _ _) _ s
  · exact SameMem.refl s

/-! ## A write -/

/-- Two mapped offsets never share a place. -/
def PlaceInj (s : State) : Prop := ∀ a b p, s.place a = some p → s.place b = some p → a = b

theorem putByte_place (s : State) (o : Nat) (b : Byte) (a : Nat) : (s.putByte o b).place a = s.place a := by
  unfold State.putByte; split <;> rfl

/-- One byte written reads back, where its unit has no error; every other offset reads as before. -/
theorem putByte_memByte {s : State} (hi : PlaceInj s) (o : Nat) (b : Byte) (a : Nat) :
    (s.putByte o b).memByte a =
      if a = o ∧ (∃ p, s.place o = some p ∧ s.failed p = false ∧ s.bad p = false) then b else s.memByte a := by
  unfold State.memByte
  rw [putByte_place]
  cases ha : s.place a with
  | none => simp; rintro rfl p hp; simp [ha] at hp
  | some p =>
    cases ho : s.place o with
    | none =>
      have : s.putByte o b = s := by unfold State.putByte; rw [ho]
      rw [this]; simp
    | some q =>
      have e : s.putByte o b = { s with mem := Tbl.set 0 s.mem q (b ^^^ s.pinMask o) } := by unfold State.putByte; rw [ho]
      have hf : (s.putByte o b).failed p = s.failed p := by rw [e]; rfl
      have hb : (s.putByte o b).bad p = s.bad p := by rw [e]; rfl
      have hm : (s.putByte o b).pinMask a = s.pinMask a := by rw [e]; rfl
      have hg : (s.putByte o b).mem = Tbl.set 0 s.mem q (b ^^^ s.pinMask o) := by rw [e]
      simp only [hf, hb, hm, hg]
      by_cases h : a = o
      · subst h
        have : q = p := by rw [ho] at ha; exact Option.some.inj ha
        subst this
        cases h1 : s.failed q <;> cases h2 : s.bad q <;> simp [BitVec.xor_assoc, h1, h2]
      · have hq : p ≠ q := fun e => h (hi a o p ha (e ▸ ho))
        simp [h, Tbl.get_set_other _ _ _ _ hq]

theorem putByte_inj {s : State} (hi : PlaceInj s) (o : Nat) (b : Byte) : PlaceInj (s.putByte o b) := by
  intro x y p hx hy; rw [putByte_place] at hx hy; exact hi x y p hx hy

theorem putByte_failed (s : State) (o : Nat) (b : Byte) (p : Nat) : (s.putByte o b).failed p = s.failed p := by
  unfold State.putByte; split <;> rfl

theorem putByte_bad (s : State) (o : Nat) (b : Byte) (p : Nat) : (s.putByte o b).bad p = s.bad p := by
  unfold State.putByte; split <;> rfl

/-- A unit of memory that a byte lies in is mapped and has no error. -/
def SoundAt (s : State) (o : Nat) : Prop := ∃ p, s.place o = some p ∧ s.failed p = false ∧ s.bad p = false

/-- Bytes written where memory is sound read back, and every other offset reads as before. -/
theorem putBytes_memByte {s : State} (hi : PlaceInj s) (o : Nat) (bs : List Byte) (hs : ∀ j, j < bs.length → SoundAt s (o + j)) (a : Nat) :
    (s.putBytes o bs).memByte a = if h : o ≤ a ∧ a - o < bs.length then bs[a - o]'h.2 else s.memByte a := by
  induction bs generalizing s o with
  | nil => simp [State.putBytes]
  | cons b bs ih =>
    have hs' : ∀ j, j < bs.length → SoundAt (s.putByte o b) (o + 1 + j) := fun j hj => by
      obtain ⟨p, h1, h2, h3⟩ := hs (j + 1) (by simpa using hj)
      exact ⟨p, by rw [putByte_place]; rw [← h1]; congr 1; omega, by rw [putByte_failed]; exact h2, by rw [putByte_bad]; exact h3⟩
    have h0 : SoundAt s o := by have := hs 0 (by simp); simpa using this
    rw [show s.putBytes o (b :: bs) = (s.putByte o b).putBytes (o + 1) bs from rfl, ih (putByte_inj hi o b) _ hs', putByte_memByte hi]
    have h0' : ∃ p, s.place o = some p ∧ s.failed p = false ∧ s.bad p = false := h0
    by_cases h1 : a = o
    · subst h1
      have h2 : ¬(a + 1 ≤ a ∧ a - (a + 1) < bs.length) := by omega
      simp only [dif_neg h2, h0', and_self, if_true]
      simp
    · by_cases h2 : o + 1 ≤ a ∧ a - (o + 1) < bs.length
      · have h3 : o ≤ a ∧ a - o < (b :: bs).length := ⟨by omega, by simp; omega⟩
        rw [dif_pos h2, dif_pos h3, List.getElem_cons, dif_neg (by omega)]
        congr 1
      · have h3 : ¬(o ≤ a ∧ a - o < (b :: bs).length) := by simp only [List.length_cons]; omega
        simp only [h2, h3, dif_neg, h1, false_and, if_false, not_false_eq_true]

theorem putBytes_same {s : State} (o : Nat) (bs : List Byte) :
    (∀ a, (s.putBytes o bs).place a = s.place a) ∧ (∀ p, (s.putBytes o bs).failed p = s.failed p) ∧ (∀ p, (s.putBytes o bs).bad p = s.bad p) := by
  induction bs generalizing s o with
  | nil => exact ⟨fun _ => rfl, fun _ => rfl, fun _ => rfl⟩
  | cons b bs ih =>
    obtain ⟨h1, h2, h3⟩ := @ih (s.putByte o b) (o + 1)
    exact ⟨fun a => (h1 a).trans (putByte_place s o b a), fun p => (h2 p).trans (putByte_failed s o b p),
      fun p => (h3 p).trans (putByte_bad s o b p)⟩

theorem SameMem.sound {s t : State} (h : SameMem s t) (o : Nat) : SoundAt t o ↔ SoundAt s o := by
  unfold SoundAt
  rw [h.place]
  have hf : ∀ p, t.failed p = s.failed p := State.failed_congr h.dead
  have hb : ∀ p, t.bad p = s.bad p := fun p => by unfold State.bad; rw [h.ue]
  simp only [hf, hb]

theorem SameMem.inj {s t : State} (h : SameMem s t) (hi : PlaceInj s) : PlaceInj t := by
  intro a b p ha hb; rw [h.place] at ha hb; exact hi a b p ha hb

/-- Bytes written into sound memory read back, and every other offset reads as before: a write of `bs` at `o`, where every byte from the start
of the first unit to the end of the range is mapped and without error. -/
theorem memWrite_memByte {s : State} (hi : PlaceInj s) (kind o : Nat) (bs : List Byte)
    (hs : ∀ x, o / grain o * grain o ≤ x → x < o + bs.length → SoundAt s x) (a : Nat) :
    (s.memWrite kind o bs).memByte a = if h : o ≤ a ∧ a - o < bs.length then bs[a - o]'h.2 else s.memByte a := by
  have hm : SameMem s ((s.noteAccess kind o bs.length true).touchRange o bs.length) := (noteAccess_sameMem _ _ _ _ _).trans (touchRange_sameMem _ _ _)
  have hg : 0 < grain o := by unfold grain; split <;> omega
  generalize hG : grain o = g at hs hg
  have key : ∀ m, ∀ t, SameMem s t → m ≤ cdiv (o % g + bs.length) g →
      let u := ((List.range m).map fun i => o / g * g + g * i).foldl (fun s u => s.writeUnit g u o bs) t
      (∀ x, u.place x = s.place x) ∧ (∀ p, u.failed p = s.failed p) ∧ (∀ p, u.bad p = s.bad p) ∧
      ∀ x, u.memByte x = if h : o ≤ x ∧ x - o < bs.length ∧ x < o / g * g + g * m then bs[x - o]'h.2.1 else s.memByte x := by
    intro m t ht
    have hf : ∀ p, t.failed p = s.failed p := State.failed_congr ht.dead
    have hb : ∀ p, t.bad p = s.bad p := fun p => by unfold State.bad; rw [ht.ue]
    induction m with
    | zero =>
      intro _
      refine ⟨ht.place, hf, hb, fun x => ?_⟩
      have : ¬(o ≤ x ∧ x - o < bs.length ∧ x < o / g * g + g * 0) := by
        rintro ⟨h1, _, h2⟩
        have := Nat.div_mul_le_self o g
        simp at h2; omega
      rw [dif_neg this]; exact ht.memByte x
    | succ m ih =>
      intro hle
      obtain ⟨h1, h2, h3, h4⟩ := ih (by omega)
      simp only [List.range_succ, List.map_append, List.map_cons, List.map_nil, List.foldl_append, List.foldl_cons, List.foldl_nil]
      generalize ((List.range m).map fun i => o / g * g + g * i).foldl (fun s u => s.writeUnit g u o bs) t = v at h1 h2 h3 h4
      have hlt : o / g * g + g * m < o + bs.length := by
        have hd := Nat.div_add_mod o g
        have hc : m < (o % g + bs.length + (g - 1)) / g := hle
        have := (Nat.lt_div_iff_mul_lt hg).1 hc
        have e1 : o / g * g = g * (o / g) := Nat.mul_comm _ _
        have e2 : m * g = g * m := Nat.mul_comm _ _
        omega
      have hge : o / g * g ≤ o / g * g + g * m := Nat.le_add_right _ _
      obtain ⟨p, hp, hpf, hpb⟩ := hs _ hge hlt
      have hvp : v.place (o / g * g + g * m) = some p := by rw [h1]; exact hp
      have hvf : v.failed p = false := by rw [h2]; exact hpf
      have hvb : v.bad p = false := by rw [h3]; exact hpb
      generalize hU : o / g * g + g * m = U at *
      have hw : v.writeUnit g U o bs = v.putBytes (max U o) ((bs.drop (max U o - o)).take (min (U + g) (o + bs.length) - max U o)) := by
        unfold State.writeUnit
        simp only [hvp, hvf, hvb, Bool.false_eq_true, if_false]
      rw [hw]
      have hsame := @putBytes_same v (max U o) ((bs.drop (max U o - o)).take (min (U + g) (o + bs.length) - max U o))
      have hlen : ((bs.drop (max U o - o)).take (min (U + g) (o + bs.length) - max U o)).length = min (U + g) (o + bs.length) - max U o := by
        simp only [List.length_take, List.length_drop]; omega
      have hvi : PlaceInj v := by intro x y q hx hy; rw [h1] at hx hy; exact hi x y q hx hy
      refine ⟨fun x => (hsame.1 x).trans (h1 x), fun p => (hsame.2.1 p).trans (h2 p), fun p => (hsame.2.2 p).trans (h3 p), fun x => ?_⟩
      rw [putBytes_memByte hvi]
      · have hU' : o / g * g + g * (m + 1) = U + g := by rw [← hU, Nat.mul_succ]; omega
        have hUo : U + g ≥ o := by
          have hd := Nat.div_add_mod o g
          have hm' := Nat.mod_lt o hg
          have e1 : o / g * g = g * (o / g) := Nat.mul_comm _ _
          omega
        by_cases hx : max U o ≤ x ∧ x - max U o < ((bs.drop (max U o - o)).take (min (U + g) (o + bs.length) - max U o)).length
        · have hx' : o ≤ x ∧ x - o < bs.length ∧ x < o / g * g + g * (m + 1) := by rw [hlen] at hx; omega
          rw [dif_pos hx, dif_pos hx', List.getElem_take, List.getElem_drop]
          congr 1; omega
        · rw [dif_neg hx, h4]
          rw [hlen] at hx
          by_cases hy : o ≤ x ∧ x - o < bs.length ∧ x < U
          · have hy' : o ≤ x ∧ x - o < bs.length ∧ x < o / g * g + g * (m + 1) := by omega
            rw [dif_pos hy, dif_pos hy']
          · have hy' : ¬(o ≤ x ∧ x - o < bs.length ∧ x < o / g * g + g * (m + 1)) := by omega
            rw [dif_neg hy, dif_neg hy']
      · intro j hj
        rw [hlen] at hj
        obtain ⟨q, hq1, hq2, hq3⟩ := hs (max U o + j) (by omega) (by omega)
        exact ⟨q, by rw [h1]; exact hq1, by rw [h2]; exact hq2, by rw [h3]; exact hq3⟩
  have hk := (key _ _ hm (Nat.le_refl _)).2.2.2 a
  unfold State.memWrite unitsOf
  rw [hG]
  refine hk.trans ?_
  have hcov : o + bs.length ≤ o / g * g + g * cdiv (o % g + bs.length) g := by
    unfold cdiv
    have h1 := Nat.div_add_mod (o % g + bs.length + (g - 1)) g
    have h2 := Nat.mod_lt (o % g + bs.length + (g - 1)) hg
    have h3 := Nat.div_add_mod o g
    have e1 : o / g * g = g * (o / g) := Nat.mul_comm _ _
    omega
  by_cases h : o ≤ a ∧ a - o < bs.length
  · have h' : o ≤ a ∧ a - o < bs.length ∧ a < o / g * g + g * cdiv (o % g + bs.length) g := by omega
    rw [dif_pos h, dif_pos h']
  · have h' : ¬(o ≤ a ∧ a - o < bs.length ∧ a < o / g * g + g * cdiv (o % g + bs.length) g) := by omega
    rw [dif_neg h, dif_neg h']

end Sys2Proof.Machine
end

