-- ==== Sys2Proof/Laws/Control.lean ====
section
/-! SUPPORT. What the control unit's shared operations do: issue, the end of a wait, completion of an instruction. -/

namespace Sys2Proof.Machine

/-- An instruction that the control unit may take, and that is this row's, is carried out. -/
theorem State.issue_takes {s : State} {k cls op w : Nat} {r : Run} (f : Nat → State → State) (hr : (s.core k).run = some r)
    (h1 : r.stopping = false) (hb : r.builtin = false) (h2 : (s.core k).inSync = false) (h3 : s.flag (Reg.coreCtl k) 0 = false) (h4 : s.coresHeld = false)
    (h5 : (s.core k).pc < r.len) (h6 : Tbl.get false s.ue (progPlace k (s.core k).pc) = false)
    (hw : (Tbl.get 0 (s.core k).prog (s.core k).pc).toNat = w) (hc : bits w 63 60 = cls) (ho : bits w 59 54 = op)
    (hk : opKnown cls op = true) : s.issue k cls op f = f w s := by
  unfold State.issue
  simp only [hr, h1, hb, h2, h3, h4, h6, hw, hc, ho, hk]
  simp [Nat.not_le.2 h5]

/-- Cycles of the wait that a core is in, of the kind named. -/
def State.waitFor (s : State) (k : Nat) (w : WaitFor) : Nat :=
  match (s.core k).waitAt with
  | some (v, t) => if v = w then s.cycles k - t else 0
  | none => 0

theorem State.core_eta (s : State) (k : Nat) (h : (s.core k).waitAt = none) : { s.core k with waitAt := none } = s.core k := by
  rw [← h]

@[simp] theorem State.endWait_core (s : State) (k : Nat) : (s.endWait k).core k = { s.core k with waitAt := none } := by
  unfold State.endWait
  dsimp only
  split
  · rename_i h; exact (s.core_eta k h).symm
  · simp

theorem State.endWait_core_other (s : State) {k j : Nat} (h : j ≠ k) : (s.endWait k).core j = s.core j := by
  unfold State.endWait
  dsimp only
  split
  · rfl
  · rw [State.core_setCore_other _ _ h]; unfold State.countWait; split <;> rfl

theorem State.endWait_reg (s : State) (k o : Nat) :
    (s.endWait k).reg o =
      if o = Reg.coreIssueWait k then (s.reg o + s.waitFor k .operands) % 2 ^ 64
      else if o = Reg.coreSyncWait k then (s.reg o + s.waitFor k .sync) % 2 ^ 64 else s.reg o := by
  have hne : Reg.coreIssueWait k ≠ Reg.coreSyncWait k := by unfold Reg.coreIssueWait Reg.coreSyncWait; omega
  have h0 : ∀ x, (s.reg x + 0) % 2 ^ 64 = s.reg x := fun x => Nat.mod_eq_of_lt (s.reg_lt x)
  unfold State.endWait State.waitFor
  dsimp only
  cases hw : (s.core k).waitAt with
  | none => simp only [h0]; grind
  | some p =>
    obtain ⟨b, t⟩ := p
    cases b <;> simp only [State.countWait, State.reg_setCore, reduceCtorEq, State.incReg_eq, State.reg_setReg, if_true, if_false] <;> grind

/-- The end of a wait touches only the core and its two wait counters. -/
theorem State.endWait_rest (s : State) (k : Nat) : s.endWait k = { s with cores := (s.endWait k).cores, regs := (s.endWait k).regs } := by
  unfold State.endWait
  dsimp only
  split
  · rfl
  · unfold State.countWait; split <;> rfl

@[simp] theorem State.issued_core (s : State) (k pc : Nat) : (s.issued k pc).core k = { s.core k with pc := pc, waitAt := none } := by
  unfold State.issued; simp

theorem State.issued_core_other (s : State) {k j : Nat} (pc : Nat) (h : j ≠ k) : (s.issued k pc).core j = s.core j := by
  unfold State.issued; simp only [State.core_setCore_other _ _ h, State.endWait_core_other s h]

@[simp] theorem State.issued_reg (s : State) (k pc o : Nat) : (s.issued k pc).reg o = (s.endWait k).reg o := rfl

theorem State.issued_rest (s : State) (k pc : Nat) : s.issued k pc = { s with cores := (s.issued k pc).cores, regs := (s.issued k pc).regs } := by
  exact congrArg (fun x : State => { x with cores := (s.issued k pc).cores }) (s.endWait_rest k)

/-- A write to a register of a core: s0 stays zero, every other register takes the value modulo 2^64. -/
theorem Core.get_put (c : Core) (f v x : Nat) : (c.put f v).get x = if x = f ∧ x ≠ 0 then v % 2 ^ 64 else c.get x := by
  unfold Core.put Core.get
  by_cases hx : x = 0
  · simp [hx]
  · by_cases hf : f = 0
    · simp [hf, hx]
    · by_cases h : x = f
      · subst h; simp [hx]
      · simp [hx, hf, h, Tbl.get_set_other _ _ _ _ h]

/-- What a write to a register changes of a core. -/
theorem Core.put_rest (c : Core) (f v : Nat) : c.put f v = { c with regs := (c.put f v).regs } := by
  unfold Core.put; split <;> rfl

/-- No register that decides where memory lies is one of a core's. -/
theorem memReg_core {o : Nat} (h : memReg o) (k x : Nat) : o ≠ Reg.coreBlock k + x := by
  unfold memReg Reg.geomDram Reg.memCtl Reg.memLarderCfg at h; unfold Reg.coreBlock; omega

/-- An instruction that has issued and completed: the core, its counters, and nothing else. -/
theorem State.retire_core (s : State) (k : Nat) : (s.retire k).core k = { s.core k with pc := (s.core k).pc + 1, waitAt := none } := by
  unfold State.retire State.instrDone; simp [State.incReg_eq]

theorem State.done_reg (s : State) (k pc o : Nat) :
    ((s.issued k pc).instrDone k).reg o =
      if o = Reg.coreInstrDone k then (s.reg o + 1) % 2 ^ 64
      else if o = Reg.coreIssueWait k then (s.reg o + s.waitFor k .operands) % 2 ^ 64
      else if o = Reg.coreSyncWait k then (s.reg o + s.waitFor k .sync) % 2 ^ 64 else s.reg o := by
  unfold State.instrDone
  simp only [State.incReg_eq, State.reg_setReg, State.issued_reg, State.endWait_reg]
  have h1 : Reg.coreInstrDone k ≠ Reg.coreIssueWait k := by unfold Reg.coreIssueWait Reg.coreInstrDone; omega
  have h2 : Reg.coreInstrDone k ≠ Reg.coreSyncWait k := by unfold Reg.coreSyncWait Reg.coreInstrDone; omega
  grind

end Sys2Proof.Machine
end

