-- ==== Sys2Proof/Laws/Follows.lean ====
section
/-! SUPPORT. What every operation keeps (`Follows`): reflexivity, composition, record updates, folds, and the operations on which the others rest. -/

namespace Sys2Proof.Machine

theorem Follows.refl (s : State) : Follows s s :=
  ⟨rfl, List.prefix_rfl, rfl, List.prefix_rfl, Nat.le_refl _, id, id, id, id⟩

theorem Follows.trans {s t u : State} (h : Follows s t) (g : Follows t u) : Follows s u :=
  ⟨g.queue.trans h.queue, h.fuses.trans g.fuses, g.production.trans h.production, h.out.trans g.out, Nat.le_trans h.free g.free,
    g.mem ∘ h.mem, g.host ∘ h.host, g.waiting ∘ h.waiting, g.held ∘ h.held⟩

/-- A record update that leaves alone what `Follows` speaks of. -/
theorem Follows.same {u t : State} {x0 x1 x16 x27 x39 x47 x48 x49 x56 x57 x60 x61 x71 x80 x81 : Nat} {x2 : Tbl Word} {x3 x5 x6 x7 x8 x28 :
    Tbl Bool} {x4 x9 x10 x14 x18 x23 x29 x31 x32 x40 x42 x46 x64 x76 : Tbl Nat} {x11 : Tbl Core} {x12 : Sync} {x13 : List Dip} {x15 : Tbl Slot}
    {x17 x41 x45 : List Nat} {x19 : Tbl LaunchRun} {x20 x21 x25 x51 x54 x59 x77 x78 x79 : Bool} {x22 : List CompRec} {x24 : Tbl Hist} {x26 :
    List Req} {x30 x37 : Tbl (List Cell)} {x33 : List Cell} {x34 : Tbl (Option (Bool × Nat))} {x35 : List Comb} {x36 : List (Nat × Cell)} {x38
    : List DoorMsg} {x43 : Tbl DoorIn} {x44 : Tbl (List (Nat × List Cell))} {x50 x52 x53 x84 x85 : Option Nat} {x55 : List (Nat × Nat × Nat)}
    {x58 : List (List Nat)} {x62 : Tbl (Nat × Nat)} {x63 : Tbl Pool} {x65 : Tbl Round} {x66 : List (Nat × Nat)} {x67 : List Exch} {x68 : List
    Service} {x69 : List (Nat × Nat × Nat × Nat × Nat)} {x70 : List Kept} {x72 : List UnitBody} {x73 : List Red} {x74 : Tbl (List (Nat × Nat))}
    {x75 : List ColMsg} {x82 : TapOp} {x83 : Option (Nat × List Byte)}
    : Follows u (State.mk t.pending x0 x1 t.free x2 t.mem x3 x4 x5 x6 x7 x8 x9 x10 t.hostMem x11 x12 x13 x14 x15 x16 x17 x18 x19 t.faults
      t.heldFaults x20 x21 x22 x23 x24 t.fuses x25 x26 x27 x28 x29 x30 x31 x32 x33 x34 x35 x36 x37 x38 x39 x40 x41 x42 x43 x44 x45 x46 x47 x48
      x49 x50 x51 x52 x53 x54 x55 x56 x57 x58 x59 x60 x61 x62 x63 x64 x65 x66 x67 x68 x69 x70 x71 x72 x73 x74 x75 x76 x77 x78 x79 x80 x81
      t.production x82 x83 x84 x85 t.out) ↔ Follows u t :=
  ⟨fun h => h.trans ⟨rfl, List.prefix_rfl, rfl, List.prefix_rfl, Nat.le_refl _, id, id, id, id⟩,
    fun h => h.trans ⟨rfl, List.prefix_rfl, rfl, List.prefix_rfl, Nat.le_refl _, id, id, id, id⟩⟩

/-- A record update of a state that follows: only the fields that `Follows` speaks of have conditions. -/
theorem Follows.update {u t : State} {x0 x1 x16 x27 x39 x47 x48 x49 x56 x57 x60 x61 x71 x80 x81 : Nat} {x2 : Tbl Word} {x3 x5 x6 x7 x8 x28
    : Tbl Bool} {x4 x9 x10 x14 x18 x23 x29 x31 x32 x40 x42 x46 x64 x76 : Tbl Nat} {x11 : Tbl Core} {x12 : Sync} {x13 : List Dip} {x15 : Tbl
    Slot} {x17 x41 x45 : List Nat} {x19 : Tbl LaunchRun} {x20 x21 x25 x51 x54 x59 x77 x78 x79 : Bool} {x22 : List CompRec} {x24 : Tbl Hist}
    {x26 : List Req} {x30 x37 : Tbl (List Cell)} {x33 : List Cell} {x34 : Tbl (Option (Bool × Nat))} {x35 : List Comb} {x36 : List (Nat ×
    Cell)} {x38 : List DoorMsg} {x43 : Tbl DoorIn} {x44 : Tbl (List (Nat × List Cell))} {x50 x52 x53 x84 x85 : Option Nat} {x55 : List (Nat ×
    Nat × Nat)} {x58 : List (List Nat)} {x62 : Tbl (Nat × Nat)} {x63 : Tbl Pool} {x65 : Tbl Round} {x66 : List (Nat × Nat)} {x67 : List Exch}
    {x68 : List Service} {x69 : List (Nat × Nat × Nat × Nat × Nat)} {x70 : List Kept} {x72 : List UnitBody} {x73 : List Red} {x74 : Tbl (List
    (Nat × Nat))} {x75 : List ColMsg} {x82 : TapOp} {x83 : Option (Nat × List Byte)}
    {fu : List Fuse} {ou : List Out} {fr : Nat} {me ho : Tbl Byte} {fa he : List FaultRec} (h : Follows u t)
    (h1 : t.fuses <+: fu) (h2 : t.out <+: ou) (h3 : t.free ≤ fr) (h4 : Tbl.wf 0 t.mem = true → Tbl.wf 0 me = true)
    (h5 : Tbl.wf 0 t.hostMem = true → Tbl.wf 0 ho = true) (h6 : t.faults.length ≤ 64 → fa.length ≤ 64)
    (h7 : t.heldFaults.length ≤ 256 → he.length ≤ 256) :
    Follows u (State.mk t.pending x0 x1 fr x2 me x3 x4 x5 x6 x7 x8 x9 x10 ho x11 x12 x13 x14 x15 x16 x17 x18 x19 fa he x20 x21 x22 x23 x24 fu
      x25 x26 x27 x28 x29 x30 x31 x32 x33 x34 x35 x36 x37 x38 x39 x40 x41 x42 x43 x44 x45 x46 x47 x48 x49 x50 x51 x52 x53 x54 x55 x56 x57 x58 x59
      x60 x61 x62 x63 x64 x65 x66 x67 x68 x69 x70 x71 x72 x73 x74 x75 x76 x77 x78 x79 x80 x81 t.production x82 x83 x84 x85 ou) :=
  h.trans ⟨rfl, h1, rfl, h2, h3, h4, h5, h6, h7⟩

theorem Follows.foldl {α : Type} {u : State} {f : State → α → State} (hf : ∀ t x, Follows u t → Follows u (f t x)) (l : List α) {s : State}
    (h : Follows u s) : Follows u (l.foldl f s) := by
  induction l generalizing s with
  | nil => exact h
  | cons x l ih => exact ih (hf _ _ h)

theorem Follows.foldl_fst {α β : Type} {u : State} {f : State × β → α → State × β} (hf : ∀ t x, Follows u t.1 → Follows u (f t x).1) (l : List α)
    {s : State × β} (h : Follows u s.1) : Follows u (l.foldl f s).1 := by
  induction l generalizing s with
  | nil => exact h
  | cons x l ih => exact ih (hf _ _ h)

theorem Follows.foldl_snd {α β : Type} {u : State} {f : β × State → α → β × State} (hf : ∀ t x, Follows u t.2 → Follows u (f t x).2) (l : List α)
    {s : β × State} (h : Follows u s.2) : Follows u (l.foldl f s).2 := by
  induction l generalizing s with
  | nil => exact h
  | cons x l ih => exact ih (hf _ _ h)

theorem Follows.ite {s₀ s t : State} {c : Prop} [Decidable c] (h : Follows s₀ s) (g : Follows s₀ t) : Follows s₀ (if c then s else t) := by
  split
  · exact h
  · exact g

theorem Follows.elim {α : Type} {s₀ s : State} {f : α → State} (o : Option α) (h : Follows s₀ s) (hf : ∀ x, Follows s₀ (f x)) :
    Follows s₀ (o.elim s f) := by
  cases o with
  | none => exact h
  | some x => exact hf x

theorem Follows.of_fst {β : Type} {u s : State} {p : State × β} {b : β} (e : p = (s, b)) (h : Follows u p.1) : Follows u s := by
  subst e; exact h

theorem Follows.of_snd {β : Type} {u s : State} {p : β × State} {b : β} (e : p = (b, s)) (h : Follows u p.2) : Follows u s := by
  subst e; exact h

end Sys2Proof.Machine
end

