-- ==== Sys2Proof/Laws/KeepBase.lean ====
section
/-! SUPPORT. Every operation of the registers, memory, the control unit, the tracker, descriptors and wear keeps what `Follows` says. -/

namespace Sys2Proof.Machine

set_option linter.unusedSimpArgs false

/-! ## Ops -/

theorem State.setReg_follows {s₀ s : State} (o v : Nat) (keep₀ : Follows s₀ s) : Follows s₀ (State.setReg s o v) := by
  unfold State.setReg
  with_reducible repeat' first
    | assumption | simp only [Follows.same] | split | dsimp only

theorem State.incReg_follows {s₀ s : State} (o n : Nat) (keep₀ : Follows s₀ s) : Follows s₀ (State.incReg s o n) := by
  unfold State.incReg
  with_reducible repeat' first
    | assumption | apply State.setReg_follows | split | dsimp only

theorem State.incSat32_follows {s₀ s : State} (o n : Nat) (keep₀ : Follows s₀ s) : Follows s₀ (State.incSat32 s o n) := by
  unfold State.incSat32
  with_reducible repeat' first
    | assumption | apply State.setReg_follows | split | dsimp only

theorem State.setField_follows {s₀ s : State} (o hi lo v : Nat) (keep₀ : Follows s₀ s) : Follows s₀ (State.setField s o hi lo v) := by
  unfold State.setField
  with_reducible repeat' first
    | assumption | apply State.setReg_follows | split | dsimp only

theorem State.setFlag_follows {s₀ s : State} (o i : Nat) (b : Bool) (keep₀ : Follows s₀ s) : Follows s₀ (State.setFlag s o i b) := by
  unfold State.setFlag
  with_reducible repeat' first
    | assumption | apply State.setField_follows | split | dsimp only

theorem State.resetRegs_follows {s₀ s : State} (p : Nat → Bool) (keep₀ : Follows s₀ s) : Follows s₀ (State.resetRegs s p) := by
  unfold State.resetRegs
  with_reducible repeat' first
    | assumption | simp only [Follows.same] | split | dsimp only

theorem State.setCore_follows {s₀ s : State} (k : Nat) (c : Core) (keep₀ : Follows s₀ s) : Follows s₀ (State.setCore s k c) := by
  unfold State.setCore
  with_reducible repeat' first
    | assumption | simp only [Follows.same] | split | dsimp only

theorem State.countWait_follows {s₀ s : State} (k : Nat) (w : WaitFor) (n : Nat) (keep₀ : Follows s₀ s) : Follows s₀ (State.countWait s k w n) := by
  unfold State.countWait
  with_reducible repeat' first
    | assumption | apply State.incReg_follows | simp only [Follows.same] | split | dsimp only

theorem State.endWait_follows {s₀ s : State} (k : Nat) (keep₀ : Follows s₀ s) : Follows s₀ (State.endWait s k) := by
  unfold State.endWait
  with_reducible repeat' first
    | assumption | apply State.setCore_follows | apply State.countWait_follows | simp only [Follows.same]
    | refine Follows.of_fst (by assumption) ?_ | refine Follows.of_snd (by assumption) ?_ | split | dsimp only

theorem State.noteWait_follows {s₀ s : State} (k : Nat) (w : WaitFor) (keep₀ : Follows s₀ s) : Follows s₀ (State.noteWait s k w) := by
  unfold State.noteWait
  with_reducible repeat' first
    | assumption | apply State.setCore_follows | apply State.endWait_follows | simp only [Follows.same] | split | dsimp only

theorem State.takeFree_follows {u s : State} (h : Follows u s) : Follows u s.takeFree.2 :=
  Follows.update h List.prefix_rfl List.prefix_rfl (Nat.le_succ _) id id id id

theorem State.hostStore_follows {u s : State} (a : Nat) (bs : List Byte) (h : Follows u s) : Follows u (s.hostStore a bs) := by
  induction bs generalizing s a with
  | nil => exact h
  | cons b bs ih => exact ih _ (Follows.update h List.prefix_rfl List.prefix_rfl (Nat.le_refl _) id (Tbl.wf_set _ _) id id)

theorem wf_foldl_set (cs : Cells) {m : Tbl Byte} (h : Tbl.wf 0 m = true) : Tbl.wf 0 (cs.foldl (fun m c => Tbl.set 0 m c.1 c.2) m) = true := by
  induction cs generalizing m with
  | nil => exact h
  | cons c cs ih => exact ih (Tbl.wf_set _ _ h)

theorem State.hostCells_follows {u s : State} (cs : Cells) (h : Follows u s) : Follows u (s.hostCells cs) :=
  Follows.update h List.prefix_rfl List.prefix_rfl (Nat.le_refl _) id (wf_foldl_set cs) id id

theorem State.raiseVec_follows {s₀ s : State} (v : Nat) (keep₀ : Follows s₀ s) : Follows s₀ (State.raiseVec s v) := by
  unfold State.raiseVec
  with_reducible repeat' first
    | assumption | apply State.setFlag_follows | simp only [Follows.same] | split | dsimp only | exact List.prefix_rfl
    | with_unfolding_all exact List.prefix_append _ _ | exact List.prefix_append _ _ | exact Nat.le_refl _ | exact Nat.le_succ _ | exact id
    | exact Tbl.wf_set _ _ | exact Tbl.wf_clear _ | apply Follows.update

theorem State.countIrq_follows {s₀ s : State} (i cfg : Nat) (keep₀ : Follows s₀ s) : Follows s₀ (State.countIrq s i cfg) := by
  unfold State.countIrq
  with_reducible repeat' first
    | assumption | apply State.raiseVec_follows | simp only [Follows.same] | split | dsimp only

theorem State.ringWrite_follows {s₀ s : State} (base cfg tail shadow : Nat) (rec : List Byte) (keep₀ : Follows s₀ s) : Follows s₀ (State.ringWrite s base cfg tail shadow rec) := by
  unfold State.ringWrite
  with_reducible repeat' first
    | assumption | apply State.setReg_follows | apply State.hostStore_follows | split | dsimp only

theorem State.flushFaultsN_follows {u s : State} (n : Nat) (h : Follows u s) : Follows u (State.flushFaultsN n s) := by
  induction n generalizing s with
  | zero => exact h
  | succ n ih =>
    unfold State.flushFaultsN
    split
    · exact h
    · rename_i r rs hr
      split
      · refine ih (State.countIrq_follows _ _ (State.ringWrite_follows _ _ _ _ _ ?_))
        refine Follows.update h List.prefix_rfl List.prefix_rfl (Nat.le_refl _) id id (fun g => ?_) id
        rw [hr, List.length_cons] at g; omega
      · exact h

theorem State.flushFaults_follows {s₀ s : State}  (keep₀ : Follows s₀ s) : Follows s₀ (State.flushFaults s) := by
  unfold State.flushFaults
  with_reducible repeat' first
    | assumption | apply State.flushFaultsN_follows | split | dsimp only

theorem State.alertFor_follows {u s : State} (status event : Nat) (h : Follows u s) : Follows u (State.alertFor s status event) := by
  unfold State.alertFor
  dsimp only
  split
  · exact h
  · rename_i b _
    exact Follows.update (State.setFlag_follows Reg.fltAlert b true h) List.prefix_rfl (List.prefix_append _ _) (Nat.le_refl _) id id id id

theorem State.raise_follows {u s : State} (status info kind index detail detail2 : Nat) (h : Follows u s) :
    Follows u (s.raise status info kind index detail detail2) := by
  have h1 : ∀ r : FaultRec, ∀ t : State, Follows u t →
      Follows u { t with heldFaults := (t.heldFaults ++ [r]).drop (t.heldFaults.length + 1 - 256) } := fun r t h =>
    Follows.update h List.prefix_rfl List.prefix_rfl (Nat.le_refl _) id id id
      (fun _ => by simp only [List.length_drop, List.length_append, List.length_cons, List.length_nil]; omega)
  unfold State.raise
  dsimp only
  split
  · rename_i hl
    refine State.flushFaults_follows (Follows.update (State.alertFor_follows _ _ (h1 _ _ (State.setField_follows _ _ _ _ h)))
      List.prefix_rfl List.prefix_rfl (Nat.le_refl _) id id (fun _ => ?_) id)
    simp only [List.length_append, List.length_cons, List.length_nil]; omega
  · exact Follows.update (State.setFlag_follows _ _ _ (State.incReg_follows _ _ (State.alertFor_follows _ _ (h1 _ _ (State.setField_follows _ _ _ _ h)))))
      List.prefix_rfl (List.prefix_append _ _) (Nat.le_refl _) id id id id

theorem State.internal_follows {s₀ s : State} (info kind index event unit where_ suspect value : Nat) (keep₀ : Follows s₀ s) : Follows s₀ (State.internal s info kind index event unit where_ suspect value) := by
  unfold State.internal
  with_reducible repeat' first
    | assumption | apply State.raise_follows | split | dsimp only

theorem State.release_follows {s₀ s : State} (w : Waiter) (keep₀ : Follows s₀ s) : Follows s₀ (State.release s w) := by
  unfold State.release
  with_reducible repeat' first
    | assumption | apply State.incReg_follows | apply State.setCore_follows | apply State.endWait_follows | simp only [Follows.same] | split
    | dsimp only

theorem State.serveN_follows {u s : State} (f n : Nat) (h : Follows u s) : Follows u (State.serveN f s n) := by
  induction f generalizing s with
  | zero => exact h
  | succ f ih =>
    unfold State.serveN
    split
    · exact h
    · split
      · exact ih (State.release_follows _ (Follows.update h List.prefix_rfl List.prefix_rfl (Nat.le_refl _) id id id id))
      · exact h

theorem State.serve_follows {s₀ s : State} (n : Nat) (keep₀ : Follows s₀ s) : Follows s₀ (State.serve s n) := by
  unfold State.serve
  with_reducible repeat' first
    | assumption | apply State.serveN_follows | split | dsimp only

theorem State.semSignal_follows {s₀ s : State} (o n : Nat) (keep₀ : Follows s₀ s) : Follows s₀ (State.semSignal s o n).1 := by
  unfold State.semSignal
  with_reducible repeat' first
    | assumption | apply State.serve_follows | simp only [Follows.same] | split | dsimp only

theorem State.semWait_follows {s₀ s : State} (o : Nat) (w : Waiter) (keep₀ : Follows s₀ s) : Follows s₀ (State.semWait s o w) := by
  unfold State.semWait
  with_reducible repeat' first
    | assumption | apply State.release_follows | apply State.serve_follows | simp only [Follows.same] | split | dsimp only

theorem State.eventSet_follows {s₀ s : State} (o : Nat) (keep₀ : Follows s₀ s) : Follows s₀ (State.eventSet s o) := by
  unfold State.eventSet
  with_reducible repeat' first
    | assumption | apply State.release_follows | simp only [Follows.same] | apply Follows.foldl | apply Follows.foldl_fst
    | apply Follows.foldl_snd | intro _ | split | dsimp only

theorem State.noteWake_follows {s₀ s : State} (cause : Nat) (keep₀ : Follows s₀ s) : Follows s₀ (State.noteWake s cause) := by
  unfold State.noteWake
  with_reducible repeat' first
    | assumption | apply State.incReg_follows | apply State.setField_follows | split | dsimp only

theorem State.leaveIdle_follows {s₀ s : State} (cause : Nat) (keep₀ : Follows s₀ s) : Follows s₀ (State.leaveIdle s cause) := by
  unfold State.leaveIdle
  with_reducible repeat' first
    | assumption | apply State.setField_follows | apply State.noteWake_follows | split | dsimp only

theorem State.eventClear_follows {s₀ s : State} (o : Nat) (keep₀ : Follows s₀ s) : Follows s₀ (State.eventClear s o) := by
  unfold State.eventClear
  with_reducible repeat' first
    | assumption | apply State.leaveIdle_follows | simp only [Follows.same] | split | dsimp only

theorem State.eventWait_follows {s₀ s : State} (o : Nat) (w : Waiter) (keep₀ : Follows s₀ s) : Follows s₀ (State.eventWait s o w) := by
  unfold State.eventWait
  with_reducible repeat' first
    | assumption | apply State.release_follows | simp only [Follows.same] | split | dsimp only

theorem State.dropWaiters_follows {s₀ s : State} (p : Waiter → Bool) (keep₀ : Follows s₀ s) : Follows s₀ (State.dropWaiters s p) := by
  unfold State.dropWaiters
  with_reducible repeat' first
    | assumption | apply State.serve_follows | simp only [Follows.same] | apply Follows.foldl | apply Follows.foldl_fst | apply Follows.foldl_snd
    | intro _ | split | dsimp only

/-! ## Memory -/

theorem State.markStack_follows {s₀ s : State} (st : Nat) (keep₀ : Follows s₀ s) : Follows s₀ (State.markStack s st) := by
  unfold State.markStack
  with_reducible repeat' first
    | assumption | apply State.setFlag_follows | simp only [Follows.same]

theorem State.chanPend_follows {s₀ s : State} (st c : Nat) (keep₀ : Follows s₀ s) : Follows s₀ (State.chanPend s st c) := by
  unfold State.chanPend
  with_reducible repeat' first
    | assumption | apply State.setFlag_follows | apply State.markStack_follows | simp only [Follows.same] | split | dsimp only

theorem State.noteUe_follows {s₀ s : State} (o p : Nat) (counted : Bool) (keep₀ : Follows s₀ s) : Follows s₀ (State.noteUe s o p counted) := by
  unfold State.noteUe
  with_reducible repeat' first
    | assumption | apply State.setReg_follows | apply State.incReg_follows | apply State.internal_follows | apply State.chanPend_follows
    | refine Follows.of_fst (by assumption) ?_ | refine Follows.of_snd (by assumption) ?_ | split | dsimp only

theorem State.noteFailed_follows {s₀ s : State} (o p : Nat) (keep₀ : Follows s₀ s) : Follows s₀ (State.noteFailed s o p) := by
  unfold State.noteFailed
  with_reducible repeat' first
    | assumption | apply State.setReg_follows | apply State.internal_follows | simp only [Follows.same] | split | dsimp only

theorem State.voidOut_follows {s₀ s : State} (m : Nat) (keep₀ : Follows s₀ s) : Follows s₀ (State.voidOut s m) := by
  unfold State.voidOut
  with_reducible repeat' first
    | assumption | simp only [Follows.same] | split | dsimp only | exact List.prefix_rfl | with_unfolding_all exact List.prefix_append _ _
    | exact List.prefix_append _ _ | exact Nat.le_refl _ | exact Nat.le_succ _ | exact id | exact Tbl.wf_set _ _ | exact Tbl.wf_clear _
    | apply Follows.update

theorem State.classBytes_follows {s₀ s : State} (st cls n : Nat) (keep₀ : Follows s₀ s) : Follows s₀ (State.classBytes s st cls n) := by
  unfold State.classBytes
  with_reducible repeat' first
    | assumption | apply State.incReg_follows | split | dsimp only

theorem State.evict_follows {s₀ s : State} (e : Nat × Nat) (keep₀ : Follows s₀ s) : Follows s₀ (State.evict s e) := by
  unfold State.evict
  with_reducible repeat' first
    | assumption | apply State.classBytes_follows | simp only [Follows.same] | split | dsimp only

theorem State.fillLine_follows {s₀ s : State} (l g : Nat) (keep₀ : Follows s₀ s) : Follows s₀ (State.fillLine s l g) := by
  unfold State.fillLine
  with_reducible repeat' first
    | assumption | apply State.takeFree_follows | apply State.evict_follows | simp only [Follows.same] | intro _
    | refine Follows.of_fst (by assumption) ?_ | refine Follows.of_snd (by assumption) ?_ | apply Follows.elim | split | dsimp only

theorem State.noteLineRead_follows {s₀ s : State} (l : Nat) (keep₀ : Follows s₀ s) : Follows s₀ (State.noteLineRead s l) := by
  unfold State.noteLineRead
  with_reducible repeat' first
    | assumption | simp only [Follows.same] | split | dsimp only

theorem State.lineAccess_follows {s₀ s : State} (cls : Nat) (write alloc : Bool) (p n : Nat) (keep₀ : Follows s₀ s) : Follows s₀ (State.lineAccess s cls write alloc p n) := by
  unfold State.lineAccess
  with_reducible repeat' first
    | assumption | apply State.incReg_follows | apply State.classBytes_follows | apply State.fillLine_follows | apply State.noteLineRead_follows
    | refine State.alloc_follows _ _ ?_ (by assumption) | simp only [Follows.same] | apply Follows.ite | split | dsimp only

theorem State.noteLines_follows {s₀ s : State} (kind o n : Nat) (write : Bool) (alloc : Option Bool) (keep₀ : Follows s₀ s) : Follows s₀ (State.noteLines s kind o n write alloc) := by
  unfold State.noteLines
  with_reducible repeat' first
    | assumption | apply State.takeFree_follows | apply State.lineAccess_follows | refine State.alloc_follows _ _ ?_ (by assumption)
    | simp only [Follows.same] | apply Follows.foldl | apply Follows.foldl_fst | apply Follows.foldl_snd | intro _
    | refine Follows.of_fst (by assumption) ?_ | refine Follows.of_snd (by assumption) ?_ | split | dsimp only

theorem State.noteAccess_follows {s₀ s : State} (kind o n : Nat) (write : Bool) (keep₀ : Follows s₀ s) : Follows s₀ (State.noteAccess s kind o n write) := by
  unfold State.noteAccess
  with_reducible repeat' first
    | assumption | apply State.noteLines_follows | split | dsimp only

theorem State.noteAtomic_follows {s₀ s : State} (kind o n : Nat) (keep₀ : Follows s₀ s) : Follows s₀ (State.noteAtomic s kind o n) := by
  unfold State.noteAtomic
  with_reducible repeat' first
    | assumption | apply State.noteLines_follows | split | dsimp only

theorem State.writeBack_follows {s₀ s : State} (p : Nat → Bool) (keep₀ : Follows s₀ s) : Follows s₀ (State.writeBack s p) := by
  unfold State.writeBack
  with_reducible repeat' first
    | assumption | apply State.classBytes_follows | simp only [Follows.same] | apply Follows.foldl | apply Follows.foldl_fst
    | apply Follows.foldl_snd | intro _ | split | dsimp only

theorem State.readErrs_follows {s₀ s : State} (o n : Nat) (keep₀ : Follows s₀ s) : Follows s₀ (State.readErrs s o n) := by
  unfold State.readErrs
  with_reducible repeat' first
    | assumption | apply State.noteUe_follows | apply State.noteFailed_follows | simp only [Follows.same] | apply Follows.foldl
    | apply Follows.foldl_fst | apply Follows.foldl_snd | intro _ | split | dsimp only

theorem State.readNotes_follows {s₀ s : State} (kind o n : Nat) (keep₀ : Follows s₀ s) : Follows s₀ (State.readNotes s kind o n) := by
  unfold State.readNotes
  with_reducible repeat' first
    | assumption | apply State.noteAccess_follows | apply State.readErrs_follows | split | dsimp only

theorem State.touch_follows {s₀ s : State} (k b : Nat) (keep₀ : Follows s₀ s) : Follows s₀ (State.touch s k b) := by
  unfold State.touch
  with_reducible repeat' first
    | assumption | apply State.setField_follows | apply State.setFlag_follows | split | dsimp only

theorem State.touchRange_follows {s₀ s : State} (o n : Nat) (keep₀ : Follows s₀ s) : Follows s₀ (State.touchRange s o n) := by
  unfold State.touchRange
  with_reducible repeat' first
    | assumption | apply State.touch_follows | simp only [Follows.same] | apply Follows.foldl | apply Follows.foldl_fst | apply Follows.foldl_snd
    | intro _ | refine Follows.of_fst (by assumption) ?_ | refine Follows.of_snd (by assumption) ?_ | split | dsimp only

theorem State.putByte_follows {s₀ s : State} (o : Nat) (b : Byte) (keep₀ : Follows s₀ s) : Follows s₀ (State.putByte s o b) := by
  unfold State.putByte
  with_reducible repeat' first
    | assumption | simp only [Follows.same] | split | dsimp only | exact List.prefix_rfl | with_unfolding_all exact List.prefix_append _ _
    | exact List.prefix_append _ _ | exact Nat.le_refl _ | exact Nat.le_succ _ | exact id | exact Tbl.wf_set _ _ | exact Tbl.wf_clear _
    | apply Follows.update

theorem State.putBytes_follows {u s : State} (o : Nat) (bs : List Byte) (h : Follows u s) : Follows u (s.putBytes o bs) := by
  induction bs generalizing s o with
  | nil => exact h
  | cons b bs ih => exact ih _ (State.putByte_follows _ _ h)

theorem State.writeUnit_follows {s₀ s : State} (g u o : Nat) (bs : List Byte) (keep₀ : Follows s₀ s) : Follows s₀ (State.writeUnit s g u o bs) := by
  unfold State.writeUnit
  with_reducible repeat' first
    | assumption | apply State.noteUe_follows | apply State.noteFailed_follows | apply State.putBytes_follows | simp only [Follows.same] | split
    | dsimp only

theorem State.memWrite_follows {s₀ s : State} (kind o : Nat) (bs : List Byte) (keep₀ : Follows s₀ s) : Follows s₀ (State.memWrite s kind o bs) := by
  unfold State.memWrite
  with_reducible repeat' first
    | assumption | apply State.noteAccess_follows | apply State.touchRange_follows | apply State.writeUnit_follows | apply Follows.foldl
    | apply Follows.foldl_fst | apply Follows.foldl_snd | intro _ | split | dsimp only

theorem State.amoApply_follows {s₀ s : State} (kind o sub b cmp : Nat) (keep₀ : Follows s₀ s) : Follows s₀ (State.amoApply s kind o sub b cmp).1 := by
  unfold State.amoApply
  with_reducible repeat' first
    | assumption | apply State.incReg_follows | apply State.noteAtomic_follows | apply State.readErrs_follows | apply State.putBytes_follows
    | split | dsimp only

theorem State.elemApply_follows {u s : State} (t ct : EType) (op w o : Nat) (cs : List Nat) (h : Follows u s) :
    Follows u (s.elemApply t ct op w o cs) := by
  induction cs generalizing s o with
  | nil => exact h
  | cons b bs ih => exact ih _ (State.putBytes_follows _ _ h)

theorem State.eatomic_follows {s₀ s : State} (kind : Nat) (t ct : EType) (op w o : Nat) (cs : List Nat) (keep₀ : Follows s₀ s) : Follows s₀ (State.eatomic s kind t ct op w o cs).1 := by
  unfold State.eatomic
  with_reducible repeat' first
    | assumption | apply State.incReg_follows | apply State.noteAtomic_follows | apply State.readErrs_follows | apply State.elemApply_follows
    | split | dsimp only

/-! ## View -/

theorem State.setSlot_follows {s₀ s : State} (i : Nat) (v : Slot) (keep₀ : Follows s₀ s) : Follows s₀ (State.setSlot s i v) := by
  unfold State.setSlot
  with_reducible repeat' first
    | assumption | simp only [Follows.same] | split | dsimp only

theorem State.setPool_follows {s₀ s : State} (p : Nat) (v : Pool) (keep₀ : Follows s₀ s) : Follows s₀ (State.setPool s p v) := by
  unfold State.setPool
  with_reducible repeat' first
    | assumption | simp only [Follows.same] | split | dsimp only

theorem State.setRound_follows {s₀ s : State} (e : Nat) (x : Round) (keep₀ : Follows s₀ s) : Follows s₀ (State.setRound s e x) := by
  unfold State.setRound
  with_reducible repeat' first
    | assumption | simp only [Follows.same] | split | dsimp only

/-! ## Operands -/

theorem State.handleNotes_follows {s₀ s : State} (h : Handle) (keep₀ : Follows s₀ s) : Follows s₀ (State.handleNotes s h) := by
  unfold State.handleNotes
  with_reducible repeat' first
    | assumption | apply State.readNotes_follows | apply Follows.foldl | apply Follows.foldl_fst | apply Follows.foldl_snd | intro _ | split
    | dsimp only

theorem State.putRows_follows {u s : State} (g : Handle) (i : Nat) (rs : List (List Nat)) (h : Follows u s) : Follows u (s.putRows g i rs) := by
  induction rs generalizing s i with
  | nil => exact h
  | cons b bs ih => exact ih _ (State.memWrite_follows _ _ _ h)

theorem State.putPairRows_follows {u s : State} (g : Handle) (i : Nat) (rs : List (List (Nat × Nat))) (h : Follows u s) :
    Follows u (s.putPairRows g i rs) := by
  induction rs generalizing s i with
  | nil => exact h
  | cons b bs ih => exact ih _ (State.memWrite_follows _ _ _ h)

/-! ## Issue -/

theorem State.setRun_follows {s₀ s : State} (i : Nat) (r : LaunchRun) (keep₀ : Follows s₀ s) : Follows s₀ (State.setRun s i r) := by
  unfold State.setRun
  with_reducible repeat' first
    | assumption | simp only [Follows.same] | split | dsimp only

theorem State.endHeld_follows {s₀ s : State} (k : Nat) (keep₀ : Follows s₀ s) : Follows s₀ (State.endHeld s k) := by
  unfold State.endHeld
  with_reducible repeat' first
    | assumption | apply State.incReg_follows | apply State.setCore_follows | simp only [Follows.same] | split | dsimp only

theorem State.endHolds_follows {s₀ s : State}  (keep₀ : Follows s₀ s) : Follows s₀ (State.endHolds s) := by
  unfold State.endHolds
  with_reducible repeat' first
    | assumption | apply State.endHeld_follows | apply Follows.foldl | apply Follows.foldl_fst | apply Follows.foldl_snd | intro _ | split
    | dsimp only

theorem State.coreOver_follows {s₀ s : State} (k : Nat) (keep₀ : Follows s₀ s) : Follows s₀ (State.coreOver s k) := by
  unfold State.coreOver
  with_reducible repeat' first
    | assumption | apply State.setCore_follows | apply State.setRun_follows | simp only [Follows.same] | split | dsimp only

theorem State.settle_follows {s₀ s : State} (k : Nat) (keep₀ : Follows s₀ s) : Follows s₀ (State.settle s k) := by
  unfold State.settle
  with_reducible repeat' first
    | assumption | apply State.coreOver_follows | simp only [Follows.same] | split | dsimp only

theorem State.stopCore_follows {s₀ s : State} (k : Nat) (keep₀ : Follows s₀ s) : Follows s₀ (State.stopCore s k) := by
  unfold State.stopCore
  with_reducible repeat' first
    | assumption | apply State.setCore_follows | apply State.endWait_follows | apply State.dropWaiters_follows | apply State.endHeld_follows
    | apply State.settle_follows | simp only [Follows.same] | split | dsimp only

theorem State.stopLaunch_follows {s₀ s : State} (i : Nat) (keep₀ : Follows s₀ s) : Follows s₀ (State.stopLaunch s i) := by
  unfold State.stopLaunch
  with_reducible repeat' first
    | assumption | apply State.setCore_follows | apply State.setRun_follows | apply State.stopCore_follows | simp only [Follows.same]
    | apply Follows.foldl | apply Follows.foldl_fst | apply Follows.foldl_snd | intro _ | split | dsimp only

theorem State.faultAt_follows {s₀ s : State} (k cause pc w : Nat) (keep₀ : Follows s₀ s) : Follows s₀ (State.faultAt s k cause pc w) := by
  unfold State.faultAt
  with_reducible repeat' first
    | assumption | apply State.setReg_follows | apply State.raise_follows | apply State.setRun_follows | apply State.stopLaunch_follows
    | simp only [Follows.same] | split | dsimp only

theorem State.progFault_follows {s₀ s : State} (k cause w : Nat) (keep₀ : Follows s₀ s) : Follows s₀ (State.progFault s k cause w) := by
  unfold State.progFault
  with_reducible repeat' first
    | assumption | apply State.faultAt_follows | split | dsimp only

theorem State.markRun_follows {s₀ s : State} (i : Nat) (f : LaunchRun → LaunchRun) (keep₀ : Follows s₀ s) : Follows s₀ (State.markRun s i f) := by
  unfold State.markRun
  with_reducible repeat' first
    | assumption | apply State.setRun_follows | split | dsimp only

theorem State.markDead_follows {s₀ s : State} (i : Nat) (keep₀ : Follows s₀ s) : Follows s₀ (State.markDead s i) := by
  unfold State.markDead
  with_reducible repeat' first
    | assumption | apply State.markRun_follows | simp only [Follows.same] | split | dsimp only

theorem State.issue_follows {u s : State} (k cls op : Nat) (f : Nat → State → State) (hf : ∀ w t, Follows u t → Follows u (f w t))
    (h : Follows u s) : Follows u (s.issue k cls op f) := by
  unfold State.issue
  repeat' (first
    | assumption | (apply hf) | (with_reducible apply State.progFault_follows) | (with_reducible apply State.internal_follows)
    | (with_reducible apply State.incReg_follows) | split | dsimp only)

theorem State.issued_follows {s₀ s : State} (k pc : Nat) (keep₀ : Follows s₀ s) : Follows s₀ (State.issued s k pc) := by
  unfold State.issued
  with_reducible repeat' first
    | assumption | apply State.setCore_follows | apply State.endWait_follows | simp only [Follows.same] | split | dsimp only

theorem State.instrDone_follows {s₀ s : State} (k : Nat) (keep₀ : Follows s₀ s) : Follows s₀ (State.instrDone s k) := by
  unfold State.instrDone
  with_reducible repeat' first
    | assumption | apply State.incReg_follows | split | dsimp only

theorem State.retire_follows {s₀ s : State} (k : Nat) (keep₀ : Follows s₀ s) : Follows s₀ (State.retire s k) := by
  unfold State.retire
  with_reducible repeat' first
    | assumption | apply State.issued_follows | apply State.instrDone_follows | split | dsimp only

theorem State.hold_follows {s₀ s : State} (k : Nat) (keep₀ : Follows s₀ s) : Follows s₀ (State.hold s k) := by
  unfold State.hold
  with_reducible repeat' first
    | assumption | apply State.noteWait_follows | split | dsimp only

theorem State.holdEngine_follows {s₀ s : State} (k : Nat) (keep₀ : Follows s₀ s) : Follows s₀ (State.holdEngine s k) := by
  unfold State.holdEngine
  with_reducible repeat' first
    | assumption | apply State.noteWait_follows | split | dsimp only

theorem State.putReg_follows {s₀ s : State} (k f v : Nat) (keep₀ : Follows s₀ s) : Follows s₀ (State.putReg s k f v) := by
  unfold State.putReg
  with_reducible repeat' first
    | assumption | apply State.setCore_follows | simp only [Follows.same] | split | dsimp only

theorem State.pendReg_follows {s₀ s : State} (k f : Nat) (keep₀ : Follows s₀ s) : Follows s₀ (State.pendReg s k f) := by
  unfold State.pendReg
  with_reducible repeat' first
    | assumption | apply State.setCore_follows | simp only [Follows.same] | split | dsimp only

theorem State.accessOver_follows {s₀ s : State} (k : Nat) (a : Access) (v : Nat) (keep₀ : Follows s₀ s) : Follows s₀ (State.accessOver s k a v) := by
  unfold State.accessOver
  with_reducible repeat' first
    | assumption | apply State.incReg_follows | apply State.setCore_follows | apply State.settle_follows | apply State.faultAt_follows
    | apply State.markDead_follows | apply State.instrDone_follows | apply State.putReg_follows | apply State.amo_follows
    | simp only [Follows.same] | split | dsimp only

theorem State.tloadWrite_follows {s₀ s : State} (k : Nat) (a : Access) (bytes : Nat → Nat → List Byte) (keep₀ : Follows s₀ s) : Follows s₀ (State.tloadWrite s k a bytes) := by
  unfold State.tloadWrite
  with_reducible repeat' first
    | assumption | apply State.incReg_follows | apply State.setCore_follows | apply State.memWrite_follows | apply State.resident_follows
    | simp only [Follows.same] | apply Follows.foldl | apply Follows.foldl_fst | apply Follows.foldl_snd | intro _ | split | dsimp only

theorem State.perform_follows {s₀ s : State} (k : Nat) (a : Access) (keep₀ : Follows s₀ s) : Follows s₀ (State.perform s k a) := by
  unfold State.perform
  with_reducible repeat' first
    | assumption | apply State.incReg_follows | apply State.readNotes_follows | apply State.memWrite_follows | apply State.amoApply_follows
    | apply State.handleNotes_follows | apply State.setRun_follows | apply State.accessOver_follows | apply State.tloadWrite_follows
    | apply State.amo_follows | simp only [Follows.same] | apply Follows.foldl | apply Follows.foldl_fst | apply Follows.foldl_snd | intro _
    | refine Follows.of_fst (by assumption) ?_ | refine Follows.of_snd (by assumption) ?_ | split | dsimp only

/-! ## Tracker -/

theorem State.emit_follows {s₀ s : State} (p : Nat) (c : Cell) (keep₀ : Follows s₀ s) : Follows s₀ (State.emit s p c) := by
  unfold State.emit
  with_reducible repeat' first
    | assumption | simp only [Follows.same] | split | dsimp only | exact List.prefix_rfl | with_unfolding_all exact List.prefix_append _ _
    | exact List.prefix_append _ _ | exact Nat.le_refl _ | exact Nat.le_succ _ | exact id | exact Tbl.wf_set _ _ | exact Tbl.wf_clear _
    | apply Follows.update

theorem State.spill_follows {s₀ s : State} (die p : Nat) (c : Cell) (keep₀ : Follows s₀ s) : Follows s₀ (State.spill s die p c) := by
  unfold State.spill
  with_reducible repeat' first
    | assumption | apply State.incReg_follows | apply State.emit_follows | simp only [Follows.same] | split | dsimp only

theorem State.inject_follows {s₀ s : State} (idle used : List Nat) (c : Cell) (keep₀ : Follows s₀ s) : Follows s₀ (State.inject s idle used c).1 := by
  unfold State.inject
  with_reducible repeat' first
    | assumption | apply State.emit_follows | apply State.spill_follows | simp only [Follows.same] | split | dsimp only

theorem State.emitAll_follows {s₀ s : State} (p : Nat) (cs : List Cell) (keep₀ : Follows s₀ s) : Follows s₀ (State.emitAll s p cs) := by
  unfold State.emitAll
  with_reducible repeat' first
    | assumption | apply State.emit_follows | apply Follows.foldl | apply Follows.foldl_fst | apply Follows.foldl_snd | intro _ | split
    | dsimp only

theorem State.putMsg_follows {s₀ s : State} (m : DoorMsg) (keep₀ : Follows s₀ s) : Follows s₀ (State.putMsg s m).1 := by
  unfold State.putMsg
  with_reducible repeat' first
    | assumption | apply State.spill_follows | apply State.emitAll_follows | simp only [Follows.same] | apply Follows.foldl
    | apply Follows.foldl_fst | apply Follows.foldl_snd | intro _ | split | dsimp only

theorem State.dropMsg_follows {s₀ s : State} (id : Nat) (keep₀ : Follows s₀ s) : Follows s₀ (State.dropMsg s id) := by
  unfold State.dropMsg
  with_reducible repeat' first
    | assumption | simp only [Follows.same] | split | dsimp only

theorem State.updMsg_follows {s₀ s : State} (m : DoorMsg) (keep₀ : Follows s₀ s) : Follows s₀ (State.updMsg s m) := by
  unfold State.updMsg
  with_reducible repeat' first
    | assumption | simp only [Follows.same] | split | dsimp only

theorem State.trySend_follows {s₀ s : State} (m : DoorMsg) (keep₀ : Follows s₀ s) : Follows s₀ (State.trySend s m) := by
  unfold State.trySend
  with_reducible repeat' first
    | assumption | apply State.incReg_follows | apply State.putMsg_follows | apply State.dropMsg_follows | apply State.updMsg_follows
    | simp only [Follows.same] | refine Follows.of_fst (by assumption) ?_ | refine Follows.of_snd (by assumption) ?_ | split | dsimp only

theorem State.closeMsg_follows {s₀ s : State} (m : DoorMsg) (keep₀ : Follows s₀ s) : Follows s₀ (State.closeMsg s m) := by
  unfold State.closeMsg
  with_reducible repeat' first
    | assumption | apply State.updMsg_follows | apply State.trySend_follows | simp only [Follows.same] | split | dsimp only

theorem State.newMsg_follows {s₀ s : State} (engine house room srcRoom kind : Nat) (cells : List Cell) (keep₀ : Follows s₀ s) : Follows s₀ (State.newMsg s engine house room srcRoom kind cells).1 := by
  unfold State.newMsg
  with_reducible repeat' first
    | assumption | simp only [Follows.same] | split | dsimp only

theorem State.packDoor_follows {s₀ s : State} (c : Cell) (keep₀ : Follows s₀ s) : Follows s₀ (State.packDoor s c) := by
  unfold State.packDoor
  with_reducible repeat' first
    | assumption | apply State.updMsg_follows | apply State.closeMsg_follows | apply State.newMsg_follows | simp only [Follows.same]
    | refine Follows.of_fst (by assumption) ?_ | refine Follows.of_snd (by assumption) ?_ | split | dsimp only

theorem State.absorb_follows {s₀ s : State} (die : Nat) (c : Cell) (keep₀ : Follows s₀ s) : Follows s₀ (State.absorb s die c).1 := by
  unfold State.absorb
  with_reducible repeat' first
    | assumption | apply State.incReg_follows | simp only [Follows.same] | split | dsimp only

theorem State.openComb_follows {s₀ s : State} (die t : Nat) (c : Cell) (keep₀ : Follows s₀ s) : Follows s₀ (State.openComb s die t c) := by
  unfold State.openComb
  with_reducible repeat' first
    | assumption | simp only [Follows.same] | split | dsimp only

theorem State.noteSent_follows {s₀ s : State} (t : Nat) (keep₀ : Follows s₀ s) : Follows s₀ (State.noteSent s t) := by
  unfold State.noteSent
  with_reducible repeat' first
    | assumption | simp only [Follows.same] | split | dsimp only

theorem State.launchReq_follows {s₀ s : State} (r : Req) (keep₀ : Follows s₀ s) : Follows s₀ (State.launchReq s r).1 := by
  unfold State.launchReq
  with_reducible repeat' first
    | assumption | apply State.inject_follows | apply State.packDoor_follows | apply State.absorb_follows | apply State.openComb_follows
    | apply State.noteSent_follows | simp only [Follows.same] | refine Follows.of_fst (by assumption) ?_
    | refine Follows.of_snd (by assumption) ?_ | split | dsimp only

theorem State.coreAnswered_follows {s₀ s : State} (k : Nat) (a : Access) (keep₀ : Follows s₀ s) : Follows s₀ (State.coreAnswered s k a) := by
  unfold State.coreAnswered
  with_reducible repeat' first
    | assumption | apply State.setCore_follows | apply State.accessOver_follows | apply State.amo_follows | simp only [Follows.same] | split
    | dsimp only

theorem State.peerLost_follows {s₀ s : State} (h r : Nat) (keep₀ : Follows s₀ s) : Follows s₀ (State.peerLost s h r) := by
  unfold State.peerLost
  with_reducible repeat' first
    | assumption | simp only [Follows.same] | split | dsimp only

theorem State.putRoute_follows {s₀ s : State} (e : Nat) (r : Route) (keep₀ : Follows s₀ s) : Follows s₀ (State.putRoute s e r) := by
  unfold State.putRoute
  with_reducible repeat' first
    | assumption | apply State.memWrite_follows | simp only [Follows.same] | split | dsimp only

theorem State.answer_follows {s₀ s : State} (r : Req) (x : Answer) (keep₀ : Follows s₀ s) : Follows s₀ (State.answer s r x) := by
  unfold State.answer
  with_reducible repeat' first
    | assumption | apply State.setSlot_follows | apply State.coreAnswered_follows | apply State.peerLost_follows | apply State.stage_follows
    | simp only [Follows.same] | split | dsimp only

theorem State.deadRecord_follows {s₀ s : State} (c : Cell) (keep₀ : Follows s₀ s) : Follows s₀ (State.deadRecord s c) := by
  unfold State.deadRecord
  with_reducible repeat' first
    | assumption | apply State.raise_follows | split | dsimp only

theorem State.releaseReqs_follows {s₀ s : State} (n : Nat) (keep : Follows s₀ s) : Follows s₀ (State.releaseReqs n s) := by
  induction n generalizing s with
  | zero => exact keep
  | succ n ih =>
    unfold State.releaseReqs
    with_reducible repeat' first
      | assumption | apply ih | apply State.incReg_follows | apply State.launchReq_follows | apply State.answer_follows | apply State.deadRecord_follows
      | simp only [Follows.same] | refine Follows.of_fst (by assumption) ?_ | refine Follows.of_snd (by assumption) ?_ | split | dsimp only

theorem State.endReq_follows {s₀ s : State} (i : Nat) (x : Answer) (keep₀ : Follows s₀ s) : Follows s₀ (State.endReq s i x) := by
  unfold State.endReq
  with_reducible repeat' first
    | assumption | apply State.answer_follows | apply State.releaseReqs_follows | simp only [Follows.same] | split | dsimp only

theorem State.request_follows {s₀ s : State} (who : Requester) (ty h r unit aux addr weight len : Nat) (payload : List Byte) (keep₀ : Follows s₀ s) : Follows s₀ (State.request s who ty h r unit aux addr weight len payload) := by
  unfold State.request
  with_reducible repeat' first
    | assumption | apply State.releaseReqs_follows | simp only [Follows.same] | split | dsimp only

theorem State.loadRange_follows {s₀ s : State} (who : Requester) (a n : Nat) (keep₀ : Follows s₀ s) : Follows s₀ (State.loadRange s who a n) := by
  unfold State.loadRange
  with_reducible repeat' first
    | assumption | apply State.request_follows | apply Follows.foldl | apply Follows.foldl_fst | apply Follows.foldl_snd | intro _ | split
    | dsimp only

theorem State.storeRange_follows {s₀ s : State} (who : Requester) (a : Nat) (bs : List Byte) (keep₀ : Follows s₀ s) : Follows s₀ (State.storeRange s who a bs) := by
  unfold State.storeRange
  with_reducible repeat' first
    | assumption | apply State.request_follows | apply Follows.foldl | apply Follows.foldl_fst | apply Follows.foldl_snd | intro _ | split
    | dsimp only

theorem State.sendUnit_follows {s₀ s : State} (who : Requester) (unit h r : Nat) (b : UnitBody) (keep₀ : Follows s₀ s) : Follows s₀ (State.sendUnit s who unit h r b) := by
  unfold State.sendUnit
  with_reducible repeat' first
    | assumption | apply State.takeFree_follows | apply State.request_follows | simp only [Follows.same]
    | refine Follows.of_fst (by assumption) ?_ | refine Follows.of_snd (by assumption) ?_ | split | dsimp only | exact List.prefix_rfl
    | with_unfolding_all exact List.prefix_append _ _ | exact List.prefix_append _ _ | exact Nat.le_refl _ | exact Nat.le_succ _ | exact id
    | exact Tbl.wf_set _ _ | exact Tbl.wf_clear _ | apply Follows.update

theorem State.sendKept_follows {s₀ s : State} (unit slot h r : Nat) (b : UnitBody) (keep₀ : Follows s₀ s) : Follows s₀ (State.sendKept s unit slot h r b) := by
  unfold State.sendKept
  with_reducible repeat' first
    | assumption | apply State.sendUnit_follows | simp only [Follows.same] | split | dsimp only

theorem State.dropKept_follows {s₀ s : State} (p : Kept → Bool) (keep₀ : Follows s₀ s) : Follows s₀ (State.dropKept s p) := by
  unfold State.dropKept
  with_reducible repeat' first
    | assumption | simp only [Follows.same] | split | dsimp only

theorem State.takeLoop_follows {s₀ s : State} (h r : Nat) (b : UnitBody) (keep₀ : Follows s₀ s) : Follows s₀ (State.takeLoop s h r b).1 := by
  unfold State.takeLoop
  with_reducible repeat' first
    | assumption | simp only [Follows.same] | split | dsimp only

theorem State.refuseMsg_follows {s₀ s : State} (h r : Nat) (b : UnitBody) (empty : Bool) (keep₀ : Follows s₀ s) : Follows s₀ (State.refuseMsg s h r b empty) := by
  unfold State.refuseMsg
  with_reducible repeat' first
    | assumption | simp only [Follows.same] | split | dsimp only | exact List.prefix_rfl | with_unfolding_all exact List.prefix_append _ _
    | exact List.prefix_append _ _ | exact Nat.le_refl _ | exact Nat.le_succ _ | exact id | exact Tbl.wf_set _ _ | exact Tbl.wf_clear _
    | apply Follows.update

/-! ## Flags -/

theorem State.countConv_follows {s₀ s : State} (t : EType) (l : List (Nat × Ev)) (keep₀ : Follows s₀ s) : Follows s₀ (State.countConv s t l) := by
  unfold State.countConv
  with_reducible repeat' first
    | assumption | apply State.incReg_follows | split | dsimp only

theorem State.writeTile_follows {s₀ s : State} (h : Handle) (mode : Rnd) (sr : SrIn) (c? : Option Nat) (vs : List (List FVal)) (keep₀ : Follows s₀ s) : Follows s₀ (State.writeTile s h mode sr c? vs).1 := by
  unfold State.writeTile
  with_reducible repeat' first
    | assumption | apply State.memWrite_follows | apply State.putRows_follows | apply State.countConv_follows | split | dsimp only

/-! ## Array -/

theorem State.noteHeld_follows {s₀ s : State} (k : Nat) (keep₀ : Follows s₀ s) : Follows s₀ (State.noteHeld s k) := by
  unfold State.noteHeld
  with_reducible repeat' first
    | assumption | apply State.setCore_follows | simp only [Follows.same] | split | dsimp only

theorem State.mmaGo_follows {s₀ s : State} (k w : Nat) (keep₀ : Follows s₀ s) : Follows s₀ (State.mmaGo s k w) := by
  unfold State.mmaGo
  with_reducible repeat' first
    | assumption | apply State.incReg_follows | apply State.setCore_follows | apply State.endHeld_follows | apply State.issued_follows
    | apply State.scalar_follows | simp only [Follows.same] | split | dsimp only

theorem State.mxWrite_follows {s₀ s : State} (k : Nat) (f : Flight) (a b d : Handle) (keep₀ : Follows s₀ s) : Follows s₀ (State.mxWrite s k f a b d).1 := by
  unfold State.mxWrite
  with_reducible repeat' first
    | assumption | apply State.incReg_follows | apply State.putRows_follows | apply State.putPairRows_follows | apply State.countConv_follows
    | apply State.writeTile_follows | refine Follows.of_fst (by assumption) ?_ | refine Follows.of_snd (by assumption) ?_ | split | dsimp only

theorem State.mxCounts_follows {s₀ s : State} (k : Nat) (f : Flight) (a b : Handle) (keep₀ : Follows s₀ s) : Follows s₀ (State.mxCounts s k f a b) := by
  unfold State.mxCounts
  with_reducible repeat' first
    | assumption | apply State.incReg_follows | split | dsimp only

theorem State.resident_follows {s₀ s : State} (k n : Nat) (keep₀ : Follows s₀ s) : Follows s₀ (State.resident s k n) := by
  unfold State.resident
  with_reducible repeat' first
    | assumption | apply State.setCore_follows | simp only [Follows.same] | split | dsimp only

/-! ## Loads -/

theorem State.startAccess_follows {s₀ s : State} (k : Nat) (a : Access) (send : State → Requester → State)
    (hs : ∀ t r, Follows s₀ t → Follows s₀ (send t r)) (keep : Follows s₀ s) : Follows s₀ (s.startAccess k a send) := by
  unfold State.startAccess
  dsimp only
  split
  · exact hs _ _ (State.setCore_follows _ _ keep)
  · exact State.setCore_follows _ _ keep

theorem State.scalarAcc_follows {s₀ s : State} (k op : Nat) (ok : Nat → Bool) (regs : Nat → List Nat) (size : Nat → Nat) (t : Touch)
    (mk : Core → Nat → Nat → Access) (dest : Bool) (send : Access → State → Requester → State)
    (hs : ∀ a t r, Follows s₀ t → Follows s₀ (send a t r)) (keep : Follows s₀ s) :
    Follows s₀ (s.scalarAcc k op ok regs size t mk dest send) := by
  unfold State.scalarAcc
  refine State.issue_follows _ _ _ _ (fun w t ht => ?_) keep
  with_reducible repeat' first
    | assumption | apply hs | apply State.progFault_follows | apply State.hold_follows | apply State.issued_follows
    | apply State.pendReg_follows | apply State.startAccess_follows | intro _ _ _ | split | dsimp only

theorem State.amo_follows {s₀ s : State} (k sub : Nat) (keep₀ : Follows s₀ s) : Follows s₀ (State.amo s k sub) := by
  unfold State.amo
  with_reducible repeat' first
    | assumption | apply State.request_follows | apply State.scalarAcc_follows | intro _ | split | dsimp only

/-! ## SyncOps -/

theorem State.syncIssue_follows {s₀ s : State} (k op size : Nat) (kind : SKind) (dest wait : Bool) (keep₀ : Follows s₀ s) : Follows s₀ (State.syncIssue s k op size kind dest wait) := by
  unfold State.syncIssue
  with_reducible repeat' first
    | assumption | apply State.setCore_follows | apply State.noteWait_follows | apply State.progFault_follows | apply State.issue_follows
    | apply State.issued_follows | apply State.hold_follows | apply State.pendReg_follows | simp only [Follows.same] | intro _ | split
    | dsimp only

theorem State.semTry_follows {s₀ s : State} (o n : Nat) (keep₀ : Follows s₀ s) : Follows s₀ (State.semTry s o n).1 := by
  unfold State.semTry
  with_reducible repeat' first
    | assumption | simp only [Follows.same] | split | dsimp only

theorem State.applySync_follows {s₀ s : State} (k : Nat) (o : SyncOp) (keep₀ : Follows s₀ s) : Follows s₀ (State.applySync s k o) := by
  unfold State.applySync
  with_reducible repeat' first
    | assumption | apply State.incReg_follows | apply State.semSignal_follows | apply State.semWait_follows | apply State.eventSet_follows
    | apply State.eventClear_follows | apply State.eventWait_follows | apply State.instrDone_follows | apply State.putReg_follows
    | apply State.semTry_follows | simp only [Follows.same] | refine Follows.of_fst (by assumption) ?_ | refine Follows.of_snd (by assumption) ?_
    | split | dsimp only

/-! ## Desc -/

theorem State.fetchOne_follows {s₀ s : State} (n : Nat) (st : Option Nat) (keep₀ : Follows s₀ s) : Follows s₀ (State.fetchOne s n st) := by
  unfold State.fetchOne
  with_reducible repeat' first
    | assumption | apply State.setField_follows | apply State.setSlot_follows | apply State.stage_follows | simp only [Follows.same] | split
    | dsimp only

theorem State.fetchMany_follows {s₀ s : State} (n : Nat) (st : Option Nat) (k : Nat) (keep : Follows s₀ s) : Follows s₀ (s.fetchMany n st k) := by
  induction k generalizing s with
  | zero => exact keep
  | succ n ih =>
    unfold State.fetchMany
    with_reducible repeat' first
      | assumption | apply ih | apply State.fetchOne_follows | split | dsimp only

theorem State.writeComp_follows {s₀ s : State} (r : CompRec) (keep₀ : Follows s₀ s) : Follows s₀ (State.writeComp s r) := by
  unfold State.writeComp
  with_reducible repeat' first
    | assumption | apply State.setField_follows | apply State.setCore_follows | apply State.countIrq_follows | apply State.ringWrite_follows
    | simp only [Follows.same] | apply Follows.foldl | apply Follows.foldl_fst | apply Follows.foldl_snd | intro _ | split | dsimp only

theorem State.flushCompsN_follows {s₀ s : State} (n : Nat) (keep : Follows s₀ s) : Follows s₀ (State.flushCompsN n s) := by
  induction n generalizing s with
  | zero => exact keep
  | succ n ih =>
    unfold State.flushCompsN
    with_reducible repeat' first
      | assumption | apply ih | apply State.writeComp_follows | simp only [Follows.same] | split | dsimp only

theorem State.flushComps_follows {s₀ s : State}  (keep₀ : Follows s₀ s) : Follows s₀ (State.flushComps s) := by
  unfold State.flushComps
  with_reducible repeat' first
    | assumption | apply State.flushCompsN_follows | split | dsimp only

theorem State.countDone_follows {s₀ s : State} (v : Slot) (st : Nat) (keep₀ : Follows s₀ s) : Follows s₀ (State.countDone s v st) := by
  unfold State.countDone
  with_reducible repeat' first
    | assumption | apply State.setReg_follows | apply State.incReg_follows | apply Follows.foldl | apply Follows.foldl_fst
    | apply Follows.foldl_snd | intro _ | split | dsimp only

theorem State.finish_follows {s₀ s : State} (i : Nat) (st info : Nat) (keep₀ : Follows s₀ s) : Follows s₀ (State.finish s i st info) := by
  unfold State.finish
  with_reducible repeat' first
    | assumption | apply State.semSignal_follows | apply State.setSlot_follows | apply State.writeComp_follows | apply State.countDone_follows
    | simp only [Follows.same] | refine Follows.of_fst (by assumption) ?_ | refine Follows.of_snd (by assumption) ?_ | split | dsimp only

theorem State.setStage_follows {s₀ s : State} (i : Nat) (g : Stage) (keep₀ : Follows s₀ s) : Follows s₀ (State.setStage s i g) := by
  unfold State.setStage
  with_reducible repeat' first
    | assumption | apply State.setSlot_follows | apply State.stage_follows | simp only [Follows.same] | split | dsimp only

theorem State.endSlot_follows {s₀ s : State} (i st info : Nat) (keep₀ : Follows s₀ s) : Follows s₀ (State.endSlot s i st info) := by
  unfold State.endSlot
  with_reducible repeat' first
    | assumption | apply State.setStage_follows | split | dsimp only

theorem State.headReady_follows {s₀ s : State} (i : Nat) (keep₀ : Follows s₀ s) : Follows s₀ (State.headReady s i) := by
  unfold State.headReady
  with_reducible repeat' first
    | assumption | apply State.setSlot_follows | apply State.stage_follows | simp only [Follows.same] | split | dsimp only

theorem State.descNotes_follows {s₀ s : State} (kind a n : Nat) (keep₀ : Follows s₀ s) : Follows s₀ (State.descNotes s kind a n) := by
  unfold State.descNotes
  with_reducible repeat' first
    | assumption | apply State.readNotes_follows | split | dsimp only

theorem State.slotCut_follows {s₀ s : State} (i : Nat) (keep₀ : Follows s₀ s) : Follows s₀ (State.slotCut s i) := by
  unfold State.slotCut
  with_reducible repeat' first
    | assumption | apply State.incReg_follows | apply State.setSlot_follows | simp only [Follows.same] | split | dsimp only

theorem State.descWrite_follows {s₀ s : State} (i kind a : Nat) (bs : List Byte) (keep₀ : Follows s₀ s) : Follows s₀ (State.descWrite s i kind a bs) := by
  unfold State.descWrite
  with_reducible repeat' first
    | assumption | apply State.hostStore_follows | apply State.memWrite_follows | apply State.storeRange_follows | apply State.slotCut_follows
    | apply State.seat_follows | apply Follows.foldl | apply Follows.foldl_fst | apply Follows.foldl_snd | intro _ | split | dsimp only

theorem State.fetchTab_follows {s₀ s : State} (i a n : Nat) (keep₀ : Follows s₀ s) : Follows s₀ (State.fetchTab s i a n) := by
  unfold State.fetchTab
  with_reducible repeat' first
    | assumption | apply State.setSlot_follows | apply State.loadRange_follows | apply State.descNotes_follows | simp only [Follows.same] | split
    | dsimp only

theorem State.fetchTabs_follows {s₀ s : State} (i : Nat) (l : List (Nat × Nat)) (keep₀ : Follows s₀ s) : Follows s₀ (State.fetchTabs s i l).1 := by
  unfold State.fetchTabs
  with_reducible repeat' first
    | assumption | apply State.setSlot_follows | apply State.fetchTab_follows | apply Follows.foldl | apply Follows.foldl_fst
    | apply Follows.foldl_snd | intro _ | split | dsimp only

theorem State.loadAll_follows {s₀ s : State} (i : Nat) (l : List (Nat × Nat)) (keep₀ : Follows s₀ s) : Follows s₀ (State.loadAll s i l) := by
  unfold State.loadAll
  with_reducible repeat' first
    | assumption | apply State.loadRange_follows | apply Follows.foldl | apply Follows.foldl_fst | apply Follows.foldl_snd | intro _ | split
    | dsimp only

theorem State.fenceStep_follows {s₀ s : State} (i : Nat) (keep₀ : Follows s₀ s) : Follows s₀ (State.fenceStep s i) := by
  unfold State.fenceStep
  with_reducible repeat' first
    | assumption | apply State.semWait_follows | apply State.eventWait_follows | apply State.setSlot_follows | simp only [Follows.same] | split
    | dsimp only

theorem State.signalRest_follows {s₀ s : State} (i : Nat) (keep₀ : Follows s₀ s) : Follows s₀ (State.signalRest s i) := by
  unfold State.signalRest
  with_reducible repeat' first
    | assumption | apply State.raiseVec_follows | apply State.semSignal_follows | apply State.eventSet_follows | apply State.eventClear_follows
    | apply State.endSlot_follows | split | dsimp only

/-! ## Measure -/

theorem State.setMeas_follows {s₀ s : State} (r : Nat) (bs : List Byte) (keep₀ : Follows s₀ s) : Follows s₀ (State.setMeas s r bs) := by
  unfold State.setMeas
  with_reducible repeat' first
    | assumption | apply State.setReg_follows | apply Follows.foldl | apply Follows.foldl_fst | apply Follows.foldl_snd | intro _ | split
    | dsimp only

theorem State.extend_follows {s₀ s : State} (r : Nat) (d : List Byte) (keep₀ : Follows s₀ s) : Follows s₀ (State.extend s r d) := by
  unfold State.extend
  with_reducible repeat' first
    | assumption | apply State.setMeas_follows | split | dsimp only

theorem State.noteProt_follows {s₀ s : State} (keeper : Bool) (o old new : Nat) (keep₀ : Follows s₀ s) : Follows s₀ (State.noteProt s keeper o old new) := by
  unfold State.noteProt
  with_reducible repeat' first
    | assumption | apply State.incReg_follows | apply State.extend_follows | split | dsimp only

theorem State.setProt_follows {s₀ s : State} (keeper : Bool) (o v : Nat) (keep₀ : Follows s₀ s) : Follows s₀ (State.setProt s keeper o v) := by
  unfold State.setProt
  with_reducible repeat' first
    | assumption | apply State.setReg_follows | apply State.noteProt_follows | split | dsimp only

/-! ## Wear -/

theorem State.showFuse_follows {s₀ s : State} (i : Nat) (f : Fuse) (keep₀ : Follows s₀ s) : Follows s₀ (State.showFuse s i f) := by
  unfold State.showFuse
  with_reducible repeat' first
    | assumption | apply State.setReg_follows | split | dsimp only

theorem addFuse_follows {s₀ t : State} (n : Nat) (f : Fuse) (keep : Follows s₀ t) :
    Follows s₀ { t.setReg Reg.geomFuseCount n with fuses := t.fuses ++ [f] } :=
  Follows.update (State.setReg_follows _ _ keep) (List.prefix_append _ _) List.prefix_rfl (Nat.le_refl _) id id id id

theorem State.blow_follows {s₀ s : State} (kind nth target line : Nat) (keep : Follows s₀ s) : Follows s₀ (s.blow kind nth target line) := by
  unfold State.blow
  exact addFuse_follows _ _ (State.extend_follows _ _ (State.showFuse_follows _ _ keep))

theorem State.retireLaunches_follows {s₀ s : State} (k : Nat) (keep₀ : Follows s₀ s) : Follows s₀ (State.retireLaunches s k) := by
  unfold State.retireLaunches
  with_reducible repeat' first
    | assumption | apply State.stopLaunch_follows | apply State.markRun_follows | simp only [Follows.same] | apply Follows.foldl
    | apply Follows.foldl_fst | apply Follows.foldl_snd | intro _ | split | dsimp only

theorem State.retire1_follows {s₀ s : State} (k : Nat) (keep₀ : Follows s₀ s) : Follows s₀ (State.retire1 s k) := by
  unfold State.retire1
  with_reducible repeat' first
    | assumption | apply State.setField_follows | apply State.setFlag_follows | apply State.setCore_follows | apply State.raise_follows
    | apply State.internal_follows | apply State.hold_follows | apply State.blow_follows | apply State.retireLaunches_follows
    | simp only [Follows.same] | split | dsimp only

theorem State.remap_follows {s₀ s : State}  (keep₀ : Follows s₀ s) : Follows s₀ (State.remap s) := by
  unfold State.remap
  with_reducible repeat' first
    | assumption | apply State.setField_follows | apply State.setFlag_follows | apply State.setCore_follows | simp only [Follows.same]
    | apply Follows.foldl | apply Follows.foldl_fst | apply Follows.foldl_snd | intro _ | split | dsimp only

theorem State.newEpoch_follows {s₀ s : State}  (keep₀ : Follows s₀ s) : Follows s₀ (State.newEpoch s) := by
  unfold State.newEpoch
  with_reducible repeat' first
    | assumption | apply State.setReg_follows | apply State.raise_follows | apply State.extend_follows | split | dsimp only

theorem State.advance_follows {s₀ s : State} (v : Nat) (keep₀ : Follows s₀ s) : Follows s₀ (State.advance s v) := by
  unfold State.advance
  with_reducible repeat' first
    | assumption | simp only [Follows.same] | split | dsimp only

theorem State.holdCore_follows {s₀ s : State} (k : Nat) (keep₀ : Follows s₀ s) : Follows s₀ (State.holdCore s k) := by
  unfold State.holdCore
  with_reducible repeat' first
    | assumption | apply State.setFlag_follows | apply State.setCore_follows | apply State.hold_follows | simp only [Follows.same] | split
    | dsimp only

theorem State.repair_follows {s₀ s : State} (k : Nat) (isCol : Bool) (line : Nat) (keep₀ : Follows s₀ s) : Follows s₀ (State.repair s k isCol line) := by
  unfold State.repair
  with_reducible repeat' first
    | assumption | apply State.setField_follows | apply State.setFlag_follows | apply State.internal_follows | apply State.blow_follows | split
    | dsimp only

theorem State.testPassed_follows {s₀ s : State} (k : Nat) (keep₀ : Follows s₀ s) : Follows s₀ (State.testPassed s k) := by
  unfold State.testPassed
  with_reducible repeat' first
    | assumption | apply State.setField_follows | apply State.setCore_follows | apply State.endHeld_follows | apply State.hold_follows
    | simp only [Follows.same] | split | dsimp only

theorem State.testNow_follows {s₀ s : State} (k v : Nat) (keep₀ : Follows s₀ s) : Follows s₀ (State.testNow s k v) := by
  unfold State.testNow
  with_reducible repeat' first
    | assumption | apply State.setCore_follows | simp only [Follows.same] | split | dsimp only

theorem State.dipStats_follows {s₀ s : State} (die cls : Nat) (e : FVal) (keep₀ : Follows s₀ s) : Follows s₀ (State.dipStats s die cls e) := by
  unfold State.dipStats
  with_reducible repeat' first
    | assumption | apply State.setReg_follows | split | dsimp only

theorem State.dipQerr_follows {s₀ s : State} (die cls : Nat) (w y : FVal) (keep₀ : Follows s₀ s) : Follows s₀ (State.dipQerr s die cls w y) := by
  unfold State.dipQerr
  with_reducible repeat' first
    | assumption | apply State.setReg_follows | simp only [Follows.same] | split | dsimp only

theorem State.dipMismatch_follows {s₀ s : State} (d : Dip) (c : DipCell) (keep₀ : Follows s₀ s) : Follows s₀ (State.dipMismatch s d c) := by
  unfold State.dipMismatch
  with_reducible repeat' first
    | assumption | apply State.setReg_follows | apply State.raise_follows | apply State.markRun_follows | apply State.holdCore_follows
    | simp only [Follows.same] | split | dsimp only

theorem State.dipCell_follows {s₀ s : State} (d : Dip) (c : DipCell) (keep₀ : Follows s₀ s) : Follows s₀ (State.dipCell s d c) := by
  unfold State.dipCell
  with_reducible repeat' first
    | assumption | apply State.dipStats_follows | apply State.dipQerr_follows | apply State.dipMismatch_follows | simp only [Follows.same] | split
    | dsimp only

end Sys2Proof.Machine
end

