-- ==== Sys2Proof/Laws/KeepUnits.lean ====
section
/-! SUPPORT. Every operation of the ports, power, programs, the Pantry, the vector and scaling units keeps what `Follows` says. -/

namespace Sys2Proof.Machine

set_option linter.unusedSimpArgs false

/-! ## Ports -/

theorem State.syncPort_follows {s₀ s : State} (p : Nat) (keep₀ : Follows s₀ s) : Follows s₀ (State.syncPort s p) := by
  unfold State.syncPort
  with_reducible repeat' first
    | assumption | apply State.setFlag_follows | split | dsimp only

theorem State.evalPort_follows {s₀ s : State} (trained : Bool) (p : Nat) (keep₀ : Follows s₀ s) : Follows s₀ (State.evalPort s trained p) := by
  unfold State.evalPort
  with_reducible repeat' first
    | assumption | apply State.setFlag_follows | apply State.internal_follows | split | dsimp only

theorem State.flushReinj_follows {s₀ s : State} (o : Outputs) (keep₀ : Follows s₀ s) : Follows s₀ (State.flushReinj s o).1 := by
  unfold State.flushReinj
  with_reducible repeat' first
    | assumption | apply State.spill_follows | simp only [Follows.same] | apply Follows.foldl | apply Follows.foldl_fst | apply Follows.foldl_snd
    | intro _ | split | dsimp only

theorem State.flushOut_follows {s₀ s : State} (o : Outputs) (keep₀ : Follows s₀ s) : Follows s₀ (State.flushOut s o).1 := by
  unfold State.flushOut
  with_reducible repeat' first
    | assumption | apply State.inject_follows | simp only [Follows.same] | apply Follows.foldl | apply Follows.foldl_fst | apply Follows.foldl_snd
    | intro _ | refine Follows.of_fst (by assumption) ?_ | refine Follows.of_snd (by assumption) ?_ | split | dsimp only

theorem State.sendCell_follows {s₀ s : State} (c : Cell) (keep₀ : Follows s₀ s) : Follows s₀ (State.sendCell s c) := by
  unfold State.sendCell
  with_reducible repeat' first
    | assumption | apply State.inject_follows | simp only [Follows.same] | refine Follows.of_fst (by assumption) ?_
    | refine Follows.of_snd (by assumption) ?_ | split | dsimp only

theorem State.flushReqs_follows {s₀ s : State} (o : Outputs) (keep₀ : Follows s₀ s) : Follows s₀ (State.flushReqs s o) := by
  unfold State.flushReqs
  with_reducible repeat' first
    | assumption | apply State.inject_follows | apply State.noteSent_follows | simp only [Follows.same] | apply Follows.foldl
    | apply Follows.foldl_fst | apply Follows.foldl_snd | intro _ | refine Follows.of_fst (by assumption) ?_
    | refine Follows.of_snd (by assumption) ?_ | split | dsimp only

theorem State.flushAll_follows {s₀ s : State} (o : Outputs) (keep₀ : Follows s₀ s) : Follows s₀ (State.flushAll s o) := by
  unfold State.flushAll
  with_reducible repeat' first
    | assumption | apply State.flushReinj_follows | apply State.flushOut_follows | apply State.flushReqs_follows
    | refine Follows.of_fst (by assumption) ?_ | refine Follows.of_snd (by assumption) ?_ | split | dsimp only

theorem State.portsChanged_follows {s₀ s : State}  (keep₀ : Follows s₀ s) : Follows s₀ (State.portsChanged s) := by
  unfold State.portsChanged
  with_reducible repeat' first
    | assumption | apply State.flushAll_follows | split | dsimp only

theorem State.portTrain_follows {s₀ s : State} (p house room port : Nat) (slow : Bool) (keep₀ : Follows s₀ s) : Follows s₀ (State.portTrain s p house room port slow) := by
  unfold State.portTrain
  with_reducible repeat' first
    | assumption | apply State.setReg_follows | apply State.syncPort_follows | apply State.evalPort_follows | apply State.portsChanged_follows
    | simp only [Follows.same] | split | dsimp only | exact List.prefix_rfl | with_unfolding_all exact List.prefix_append _ _
    | exact List.prefix_append _ _ | exact Nat.le_refl _ | exact Nat.le_succ _ | exact id | exact Tbl.wf_set _ _ | exact Tbl.wf_clear _
    | apply Follows.update

theorem State.reinject_follows {s₀ s : State} (p : Nat) (c : Cell) (keep₀ : Follows s₀ s) : Follows s₀ (State.reinject s p c) := by
  unfold State.reinject
  with_reducible repeat' first
    | assumption | simp only [Follows.same] | split | dsimp only

theorem State.portDown_follows {s₀ s : State} (p : Nat) (keep₀ : Follows s₀ s) : Follows s₀ (State.portDown s p) := by
  unfold State.portDown
  with_reducible repeat' first
    | assumption | apply State.incReg_follows | apply State.setFlag_follows | apply State.internal_follows | apply State.syncPort_follows
    | apply State.portsChanged_follows | apply State.reinject_follows | simp only [Follows.same] | apply Follows.foldl | apply Follows.foldl_fst
    | apply Follows.foldl_snd | intro _ | split | dsimp only

theorem State.acked_follows {s₀ s : State} (p n : Nat) (keep₀ : Follows s₀ s) : Follows s₀ (State.acked s p n) := by
  unfold State.acked
  with_reducible repeat' first
    | assumption | simp only [Follows.same] | split | dsimp only

theorem State.allPortsDown_follows {s₀ s : State}  (keep₀ : Follows s₀ s) : Follows s₀ (State.allPortsDown s) := by
  unfold State.allPortsDown
  with_reducible repeat' first
    | assumption | apply State.setFlag_follows | apply State.syncPort_follows | simp only [Follows.same] | apply Follows.foldl
    | apply Follows.foldl_fst | apply Follows.foldl_snd | intro _ | split | dsimp only

theorem State.portMask_follows {s₀ s : State} (v : Nat) (keep₀ : Follows s₀ s) : Follows s₀ (State.portMask s v) := by
  unfold State.portMask
  with_reducible repeat' first
    | assumption | apply State.setFlag_follows | apply State.syncPort_follows | apply State.portsChanged_follows | apply Follows.foldl
    | apply Follows.foldl_fst | apply Follows.foldl_snd | intro _ | split | dsimp only

theorem State.housesInvalid_follows {s₀ s : State}  (keep₀ : Follows s₀ s) : Follows s₀ (State.housesInvalid s) := by
  unfold State.housesInvalid
  with_reducible repeat' first
    | assumption | apply State.setFlag_follows | apply Follows.foldl | apply Follows.foldl_fst | apply Follows.foldl_snd | intro _ | split
    | dsimp only

theorem State.fillRooms_follows {s₀ s : State} (b : Bool) (keep₀ : Follows s₀ s) : Follows s₀ (State.fillRooms s b) := by
  unfold State.fillRooms
  with_reducible repeat' first
    | assumption | apply State.setReg_follows | simp only [Follows.same] | apply Follows.foldl | apply Follows.foldl_fst | apply Follows.foldl_snd
    | intro _ | split | dsimp only

theorem State.swapWrite_follows {s₀ s : State} (v : Nat) (keep₀ : Follows s₀ s) : Follows s₀ (State.swapWrite s v) := by
  unfold State.swapWrite
  with_reducible repeat' first
    | assumption | apply State.setField_follows | apply State.setFlag_follows | apply State.portsChanged_follows | split | dsimp only

theorem State.deadClear_follows {s₀ s : State} (v : Nat) (keep₀ : Follows s₀ s) : Follows s₀ (State.deadClear s v) := by
  unfold State.deadClear
  with_reducible repeat' first
    | assumption | apply State.setReg_follows | split | dsimp only

theorem State.tellFar_follows {s₀ s : State}  (keep₀ : Follows s₀ s) : Follows s₀ (State.tellFar s) := by
  unfold State.tellFar
  with_reducible repeat' first
    | assumption | simp only [Follows.same] | split | dsimp only | exact List.prefix_rfl | with_unfolding_all exact List.prefix_append _ _
    | exact List.prefix_append _ _ | exact Nat.le_refl _ | exact Nat.le_succ _ | exact id | exact Tbl.wf_set _ _ | exact Tbl.wf_clear _
    | apply Follows.update

theorem State.coordWrite_follows {s₀ s : State} (v : Nat) (keep₀ : Follows s₀ s) : Follows s₀ (State.coordWrite s v) := by
  unfold State.coordWrite
  with_reducible repeat' first
    | assumption | apply State.setReg_follows | apply State.setFlag_follows | apply State.newEpoch_follows | apply State.evalPort_follows
    | apply State.portsChanged_follows | apply State.housesInvalid_follows | apply State.fillRooms_follows | apply State.tellFar_follows
    | apply Follows.foldl | apply Follows.foldl_fst | apply Follows.foldl_snd | intro _ | split | dsimp only

theorem State.pkgLinkDown_follows {s₀ s : State} (a b : Nat) (keep₀ : Follows s₀ s) : Follows s₀ (State.pkgLinkDown s a b) := by
  unfold State.pkgLinkDown
  with_reducible repeat' first
    | assumption | apply State.takeFree_follows | apply State.internal_follows | apply State.retire1_follows | simp only [Follows.same]
    | apply Follows.foldl | apply Follows.foldl_fst | apply Follows.foldl_snd | intro _ | refine Follows.of_fst (by assumption) ?_
    | refine Follows.of_snd (by assumption) ?_ | split | dsimp only

/-! ## Identity -/

theorem State.noteSecurity_follows {s₀ s : State}  (keep₀ : Follows s₀ s) : Follows s₀ (State.noteSecurity s) := by
  unfold State.noteSecurity
  with_reducible repeat' first
    | assumption | apply State.extend_follows | split | dsimp only

theorem State.loadFuses_follows {s₀ s : State}  (keep₀ : Follows s₀ s) : Follows s₀ (State.loadFuses s) := by
  unfold State.loadFuses
  with_reducible repeat' first
    | assumption | apply State.setReg_follows | apply State.showFuse_follows | apply Follows.foldl | apply Follows.foldl_fst
    | apply Follows.foldl_snd | intro _ | split | dsimp only

theorem State.bootStep1_follows {s₀ s : State}  (keep₀ : Follows s₀ s) : Follows s₀ (State.bootStep1 s) := by
  unfold State.bootStep1
  with_reducible repeat' first
    | assumption | apply State.setReg_follows | apply State.extend_follows | apply State.noteSecurity_follows | simp only [Follows.same]
    | apply Follows.foldl | apply Follows.foldl_fst | apply Follows.foldl_snd | intro _ | split | dsimp only

/-! ## Power -/

theorem State.loseMem_follows {s₀ s : State} (p : Nat → Bool) (keep₀ : Follows s₀ s) : Follows s₀ (State.loseMem s p) := by
  unfold State.loseMem
  with_reducible repeat' first
    | assumption | simp only [Follows.same] | split | dsimp only | exact List.prefix_rfl | with_unfolding_all exact List.prefix_append _ _
    | exact List.prefix_append _ _ | exact Nat.le_refl _ | exact Nat.le_succ _ | exact id | exact Tbl.wf_set _ _ | exact Tbl.wf_clear _
    | apply Follows.update

theorem State.loadRepair_follows {s₀ s : State} (k : Nat) (keep₀ : Follows s₀ s) : Follows s₀ (State.loadRepair s k) := by
  unfold State.loadRepair
  with_reducible repeat' first
    | assumption | apply State.setField_follows | apply Follows.foldl | apply Follows.foldl_fst | apply Follows.foldl_snd | intro _ | split
    | dsimp only

theorem State.coreReset_follows {s₀ s : State} (k : Nat) (keep₀ : Follows s₀ s) : Follows s₀ (State.coreReset s k) := by
  unfold State.coreReset
  with_reducible repeat' first
    | assumption | apply State.setFlag_follows | apply State.resetRegs_follows | apply State.setCore_follows | apply State.loadRepair_follows
    | simp only [Follows.same] | split | dsimp only | exact List.prefix_rfl | with_unfolding_all exact List.prefix_append _ _
    | exact List.prefix_append _ _ | exact Nat.le_refl _ | exact Nat.le_succ _ | exact id | exact Tbl.wf_set _ _ | exact Tbl.wf_clear _
    | apply Follows.update

theorem State.resetCores_follows {s₀ s : State}  (keep₀ : Follows s₀ s) : Follows s₀ (State.resetCores s) := by
  unfold State.resetCores
  with_reducible repeat' first
    | assumption | apply State.coreReset_follows | simp only [Follows.same] | apply Follows.foldl | apply Follows.foldl_fst
    | apply Follows.foldl_snd | intro _ | split | dsimp only

theorem State.napLoss_follows {s₀ s : State}  (keep₀ : Follows s₀ s) : Follows s₀ (State.napLoss s) := by
  unfold State.napLoss
  with_reducible repeat' first
    | assumption | apply State.writeBack_follows | apply State.loseMem_follows | apply State.resetCores_follows | simp only [Follows.same] | split
    | dsimp only

theorem State.deepLoss_follows {s₀ s : State}  (keep₀ : Follows s₀ s) : Follows s₀ (State.deepLoss s) := by
  unfold State.deepLoss
  with_reducible repeat' first
    | assumption | apply State.writeBack_follows | apply State.loseMem_follows | apply State.resetCores_follows | simp only [Follows.same] | split
    | dsimp only

theorem State.loadStacks_follows {s₀ s : State}  (keep₀ : Follows s₀ s) : Follows s₀ (State.loadStacks s) := by
  unfold State.loadStacks
  with_reducible repeat' first
    | assumption | apply State.setField_follows | apply State.setFlag_follows | apply Follows.foldl | apply Follows.foldl_fst
    | apply Follows.foldl_snd | intro _ | split | dsimp only

theorem State.ringsOff_follows {s₀ s : State}  (keep₀ : Follows s₀ s) : Follows s₀ (State.ringsOff s) := by
  unfold State.ringsOff
  with_reducible repeat' first
    | assumption | apply State.setFlag_follows | apply Follows.foldl | apply Follows.foldl_fst | apply Follows.foldl_snd | intro _ | split
    | dsimp only

theorem State.noteDeepProts_follows {s₀ t : State} (s : State) (keep : Follows s₀ t) : Follows s₀ (s.noteDeepProts t) := by
  unfold State.noteDeepProts
  dsimp only
  exact Follows.foldl (fun _ _ h => State.noteProt_follows _ _ _ _ h) _ (Follows.foldl (fun _ _ h => State.noteProt_follows _ _ _ _ h) _ keep)

theorem State.deepRegs_follows {s₀ s : State}  (keep₀ : Follows s₀ s) : Follows s₀ (State.deepRegs s) := by
  unfold State.deepRegs
  with_reducible repeat' first
    | assumption | apply State.setFlag_follows | apply State.resetRegs_follows | apply State.resetCores_follows | apply State.loadStacks_follows
    | apply State.ringsOff_follows | apply State.noteDeepProts_follows | simp only [Follows.same] | split | dsimp only

theorem State.syncPower_follows {s₀ s : State}  (keep₀ : Follows s₀ s) : Follows s₀ (State.syncPower s) := by
  unfold State.syncPower
  with_reducible repeat' first
    | assumption | apply State.setField_follows | apply State.setFlag_follows | split | dsimp only

theorem State.setPower_follows {s₀ s : State} (st : Nat) (keep₀ : Follows s₀ s) : Follows s₀ (State.setPower s st) := by
  unfold State.setPower
  with_reducible repeat' first
    | assumption | apply State.setField_follows | apply State.syncPower_follows | split | dsimp only

theorem State.wakeNow_follows {s₀ s : State} (cause : Nat) (keep₀ : Follows s₀ s) : Follows s₀ (State.wakeNow s cause) := by
  unfold State.wakeNow
  with_reducible repeat' first
    | assumption | apply State.setFlag_follows | apply State.noteWake_follows | apply State.deepRegs_follows | apply State.setPower_follows
    | simp only [Follows.same] | split | dsimp only

theorem State.wakeFrom_follows {s₀ s : State} (cause : Nat) (keep₀ : Follows s₀ s) : Follows s₀ (State.wakeFrom s cause) := by
  unfold State.wakeFrom
  with_reducible repeat' first
    | assumption | apply State.wakeNow_follows | simp only [Follows.same] | split | dsimp only

theorem State.wakeSource_follows {s₀ s : State} (cause : Nat) (privileged : Bool) (wakes : List Nat) (keep₀ : Follows s₀ s) : Follows s₀ (State.wakeSource s cause privileged wakes) := by
  unfold State.wakeSource
  with_reducible repeat' first
    | assumption | apply State.leaveIdle_follows | apply State.wakeFrom_follows | simp only [Follows.same] | split | dsimp only

theorem State.heldWake_follows {s₀ s : State}  (keep₀ : Follows s₀ s) : Follows s₀ (State.heldWake s) := by
  unfold State.heldWake
  with_reducible repeat' first
    | assumption | apply State.wakeNow_follows | simp only [Follows.same] | split | dsimp only

theorem State.actReq_follows {s₀ s : State} (t : Nat) (keep₀ : Follows s₀ s) : Follows s₀ (State.actReq s t) := by
  unfold State.actReq
  with_reducible repeat' first
    | assumption | apply State.setFlag_follows | apply State.setPower_follows | apply State.wakeFrom_follows | simp only [Follows.same] | split
    | dsimp only

theorem State.actHeld_follows {s₀ s : State}  (keep₀ : Follows s₀ s) : Follows s₀ (State.actHeld s) := by
  unfold State.actHeld
  with_reducible repeat' first
    | assumption | apply State.actReq_follows | simp only [Follows.same] | split | dsimp only

theorem State.powerWrite_follows {s₀ s : State} (t : Nat) (keep₀ : Follows s₀ s) : Follows s₀ (State.powerWrite s t) := by
  unfold State.powerWrite
  with_reducible repeat' first
    | assumption | apply State.setField_follows | apply State.actReq_follows | simp only [Follows.same] | split | dsimp only

theorem State.cancelFetched_follows {s₀ s : State}  (keep₀ : Follows s₀ s) : Follows s₀ (State.cancelFetched s) := by
  unfold State.cancelFetched
  with_reducible repeat' first
    | assumption | apply State.setSlot_follows | apply State.stage_follows | simp only [Follows.same] | apply Follows.foldl
    | apply Follows.foldl_fst | apply Follows.foldl_snd | intro _ | split | dsimp only

theorem State.protectedOff_follows {s₀ s : State}  (keep₀ : Follows s₀ s) : Follows s₀ (State.protectedOff s) := by
  unfold State.protectedOff
  with_reducible repeat' first
    | assumption | apply State.setFlag_follows | apply State.allPortsDown_follows | apply State.deepLoss_follows | apply State.ringsOff_follows
    | apply State.setPower_follows | apply State.cancelFetched_follows | simp only [Follows.same] | split | dsimp only

theorem State.shedRecord_follows {s₀ s : State} (rose : Bool) (keep₀ : Follows s₀ s) : Follows s₀ (State.shedRecord s rose) := by
  unfold State.shedRecord
  with_reducible repeat' first
    | assumption | apply State.raise_follows | split | dsimp only

theorem State.ratio_follows {s₀ s : State} (a b : Nat) (keep₀ : Follows s₀ s) : Follows s₀ (State.ratio s a b).2 := by
  unfold State.ratio
  with_reducible repeat' first
    | assumption | apply State.takeFree_follows | refine Follows.of_fst (by assumption) ?_ | refine Follows.of_snd (by assumption) ?_ | split
    | dsimp only

theorem State.thermalAlarm_follows {s₀ s : State} (i t : Nat) (keep₀ : Follows s₀ s) : Follows s₀ (State.thermalAlarm s i t).1 := by
  unfold State.thermalAlarm
  with_reducible repeat' first
    | assumption | apply State.internal_follows | apply State.syncPower_follows | simp only [Follows.same] | split | dsimp only

theorem State.thermalCheck_follows {s₀ s : State}  (keep₀ : Follows s₀ s) : Follows s₀ (State.thermalCheck s) := by
  unfold State.thermalCheck
  with_reducible repeat' first
    | assumption | apply State.internal_follows | apply State.thermalAlarm_follows | apply State.wakeSource_follows | apply State.heldWake_follows
    | apply State.protectedOff_follows | simp only [Follows.same] | refine Follows.of_fst (by assumption) ?_
    | refine Follows.of_snd (by assumption) ?_ | split | dsimp only

theorem State.clkWrite_follows {s₀ s : State} (v : Nat) (keep₀ : Follows s₀ s) : Follows s₀ (State.clkWrite s v) := by
  unfold State.clkWrite
  with_reducible repeat' first
    | assumption | apply State.setField_follows | apply State.setFlag_follows | apply State.syncPower_follows | split | dsimp only

theorem State.bootWaits_follows {s₀ s : State}  (keep₀ : Follows s₀ s) : Follows s₀ (State.bootWaits s) := by
  unfold State.bootWaits
  with_reducible repeat' first
    | assumption | apply State.setReg_follows | apply State.bootStep1_follows | split | dsimp only

theorem State.latch_follows {s₀ s : State} (cause event value : Nat) (keep₀ : Follows s₀ s) : Follows s₀ (State.latch s cause event value) := by
  unfold State.latch
  with_reducible repeat' first
    | assumption | apply State.setFlag_follows | apply State.internal_follows | apply State.syncPower_follows | split | dsimp only

/-! ## Launch -/

theorem State.enterQueues_follows {s₀ s : State} (n j : Nat) (keep : Follows s₀ s) : Follows s₀ (State.enterQueues n s j) := by
  induction n generalizing s with
  | zero => exact keep
  | succ n ih =>
    unfold State.enterQueues
    with_reducible repeat' first
      | assumption | apply ih | apply State.setCore_follows | apply State.leaveIdle_follows | apply State.setRun_follows | apply State.setStage_follows
      | simp only [Follows.same] | split | dsimp only

theorem State.loadProg_follows {s₀ s : State} (k n : Nat) (bs : List Byte) (keep₀ : Follows s₀ s) : Follows s₀ (State.loadProg s k n bs) := by
  unfold State.loadProg
  with_reducible repeat' first
    | assumption | apply State.setCore_follows | simp only [Follows.same] | apply Follows.foldl | apply Follows.foldl_fst
    | apply Follows.foldl_snd | intro _ | split | dsimp only

theorem State.clearCistern_follows {s₀ s : State} (k : Nat) (keep₀ : Follows s₀ s) : Follows s₀ (State.clearCistern s k) := by
  unfold State.clearCistern
  with_reducible repeat' first
    | assumption | apply State.setReg_follows | apply State.loseMem_follows | apply Follows.foldl | apply Follows.foldl_fst
    | apply Follows.foldl_snd | intro _ | split | dsimp only

theorem State.cisControl_follows {s₀ s : State} (k : Nat) (v : Slot) (keep₀ : Follows s₀ s) : Follows s₀ (State.cisControl s k v) := by
  unfold State.cisControl
  with_reducible repeat' first
    | assumption | apply State.setReg_follows | apply State.incReg_follows | apply State.setField_follows | apply State.clearCistern_follows
    | split | dsimp only

theorem State.beginRun_follows {s₀ s : State} (k i ix : Nat) (rest : List (Nat × Nat)) (keep₀ : Follows s₀ s) : Follows s₀ (State.beginRun s k i ix rest) := by
  unfold State.beginRun
  with_reducible repeat' first
    | assumption | apply State.setReg_follows | apply State.setCore_follows | apply State.markRun_follows | apply State.cisControl_follows
    | simp only [Follows.same] | split | dsimp only

theorem State.beginBuiltin_follows {s₀ s : State} (k i ix : Nat) (rest : List (Nat × Nat)) (keep₀ : Follows s₀ s) : Follows s₀ (State.beginBuiltin s k i ix rest) := by
  unfold State.beginBuiltin
  with_reducible repeat' first
    | assumption | apply State.setReg_follows | apply State.setCore_follows | apply State.voidOut_follows | simp only [Follows.same] | split
    | dsimp only

theorem State.askProg_follows {s₀ s : State} (k i : Nat) (keep₀ : Follows s₀ s) : Follows s₀ (State.askProg s k i) := by
  unfold State.askProg
  with_reducible repeat' first
    | assumption | apply State.setCore_follows | apply State.loadRange_follows | simp only [Follows.same] | split | dsimp only

theorem State.progCame_follows {s₀ s : State} (k i ix : Nat) (rest : List (Nat × Nat)) (a : Access) (keep₀ : Follows s₀ s) : Follows s₀ (State.progCame s k i ix rest a) := by
  unfold State.progCame
  with_reducible repeat' first
    | assumption | apply State.setCore_follows | apply State.setSlot_follows | apply State.stopLaunch_follows | apply State.markDead_follows
    | apply State.loadProg_follows | apply State.beginRun_follows | simp only [Follows.same] | split | dsimp only

theorem State.cancelLaunch_follows {s₀ s : State} (i : Nat) (keep₀ : Follows s₀ s) : Follows s₀ (State.cancelLaunch s i) := by
  unfold State.cancelLaunch
  with_reducible repeat' first
    | assumption | apply State.stopLaunch_follows | apply State.markRun_follows | simp only [Follows.same] | split | dsimp only

theorem State.enterBuiltin_follows {s₀ s : State} (i : Nat) (ks : List Nat) (keep₀ : Follows s₀ s) : Follows s₀ (State.enterBuiltin s i ks) := by
  unfold State.enterBuiltin
  with_reducible repeat' first
    | assumption | apply State.setSlot_follows | apply State.setRun_follows | apply State.enterQueues_follows | simp only [Follows.same] | split
    | dsimp only

theorem State.enterOn_follows {s₀ s : State} (i : Nat) (keep₀ : Follows s₀ s) : Follows s₀ (State.enterOn s i) := by
  unfold State.enterOn
  with_reducible repeat' first
    | assumption | apply State.enterQueues_follows | split | dsimp only

theorem State.builtinTaker_follows {s₀ s : State} (i : Nat) (keep₀ : Follows s₀ s) : Follows s₀ (State.builtinTaker s i).1 := by
  unfold State.builtinTaker
  with_reducible repeat' first
    | assumption | apply State.takeFree_follows | simp only [Follows.same] | refine Follows.of_fst (by assumption) ?_
    | refine Follows.of_snd (by assumption) ?_ | split | dsimp only

theorem State.endBuiltin_follows {s₀ s : State} (i : Nat) (keep₀ : Follows s₀ s) : Follows s₀ (State.endBuiltin s i) := by
  unfold State.endBuiltin
  with_reducible repeat' first
    | assumption | apply State.coreOver_follows | apply Follows.foldl | apply Follows.foldl_fst | apply Follows.foldl_snd | intro _ | split
    | dsimp only

theorem State.builtinOver_follows {s₀ s : State} (i st info : Nat) (keep₀ : Follows s₀ s) : Follows s₀ (State.builtinOver s i st info) := by
  unfold State.builtinOver
  with_reducible repeat' first
    | assumption | apply State.endSlot_follows | apply State.endBuiltin_follows | split | dsimp only

theorem State.builtinVx_follows {s₀ s : State} (k i n : Nat) (cell : Nat → State → Option DipCell) (keep : Follows s₀ s) :
    Follows s₀ (s.builtinVx k i n cell) := by
  have h1 : ∀ t : State, ∀ d : List Dip, Follows s₀ t → Follows s₀ { t with dips := d, free := t.free + 1 } := fun t d h =>
    Follows.update h List.prefix_rfl List.prefix_rfl (Nat.le_succ _) id id id id
  unfold State.builtinVx
  dsimp only
  refine State.incReg_follows _ _ (State.incReg_follows _ _ (State.setCore_follows _ _ (State.takeFree_follows ?_)))
  split
  · refine Follows.foldl (fun t j h => ?_) _ keep
    split
    · exact h
    · exact h1 _ _ h
  · exact keep

theorem State.coreCtlWrite_follows {s₀ s : State} (k v : Nat) (keep₀ : Follows s₀ s) : Follows s₀ (State.coreCtlWrite s k v) := by
  unfold State.coreCtlWrite
  with_reducible repeat' first
    | assumption | apply State.setFlag_follows | apply State.setCore_follows | simp only [Follows.same] | split | dsimp only

/-! ## Pantry -/

theorem State.setRef_follows {s₀ s : State} (p b n : Nat) (keep₀ : Follows s₀ s) : Follows s₀ (State.setRef s p b n) := by
  unfold State.setRef
  with_reducible repeat' first
    | assumption | simp only [Follows.same] | split | dsimp only

theorem State.ringTake_follows {s₀ s : State} (p m : Nat) (keep₀ : Follows s₀ s) : Follows s₀ (State.ringTake s p m) := by
  unfold State.ringTake
  with_reducible repeat' first
    | assumption | apply State.readNotes_follows | apply State.setPool_follows | apply Follows.foldl | apply Follows.foldl_fst
    | apply Follows.foldl_snd | intro _ | split | dsimp only

theorem State.ringPut_follows {s₀ s : State} (p : Nat) (l : List Nat) (keep₀ : Follows s₀ s) : Follows s₀ (State.ringPut s p l) := by
  unfold State.ringPut
  with_reducible repeat' first
    | assumption | apply State.memWrite_follows | apply State.setPool_follows | simp only [Follows.same] | apply Follows.foldl
    | apply Follows.foldl_fst | apply Follows.foldl_snd | intro _ | split | dsimp only | exact List.prefix_rfl
    | with_unfolding_all exact List.prefix_append _ _ | exact List.prefix_append _ _ | exact Nat.le_refl _ | exact Nat.le_succ _ | exact id
    | exact Tbl.wf_set _ _ | exact Tbl.wf_clear _ | apply Follows.update

theorem State.allocOne_follows {s₀ s : State} (p : Nat) (keep₀ : Follows s₀ s) : Follows s₀ (State.allocOne s p).1 := by
  unfold State.allocOne
  with_reducible repeat' first
    | assumption | apply State.incReg_follows | apply State.takeFree_follows | apply State.setPool_follows | apply State.setRef_follows
    | apply State.ringTake_follows | simp only [Follows.same] | refine Follows.of_fst (by assumption) ?_
    | refine Follows.of_snd (by assumption) ?_ | split | dsimp only

theorem State.allocMany_follows {s₀ s : State} (p n : Nat) (keep : Follows s₀ s) : Follows s₀ (s.allocMany p n).1 := by
  induction n generalizing s with
  | zero => exact keep
  | succ n ih =>
    unfold State.allocMany
    with_reducible repeat' first
      | assumption | apply ih | apply State.allocOne_follows | refine Follows.of_fst (by assumption) ?_ | refine Follows.of_snd (by assumption) ?_ | split
      | dsimp only

theorem State.alloc_follows {s₀ s t : State} (p n : Nat) {l : List Nat} (keep : Follows s₀ s) (e : s.alloc p n = some (t, l)) :
    Follows s₀ t := by
  unfold State.alloc at e
  split at e
  · exact Follows.of_fst (Option.some.inj e) (State.allocMany_follows _ _ keep)
  · cases e

theorem State.allocUnless_follows {s₀ s t : State} {p n : Nat} {l l' : List Nat} {c d : Prop} [Decidable c] [Decidable d] (keep : Follows s₀ s)
    (e : (if c then some (s, l') else if d then none else s.alloc p n) = some (t, l)) : Follows s₀ t := by
  split at e
  · exact (Prod.mk.inj (Option.some.inj e)).1 ▸ keep
  · split at e
    · cases e
    · exact State.alloc_follows _ _ keep e

theorem State.allocIf_follows {s₀ s t : State} {p n : Nat} {l : List Nat} {c : Prop} [Decidable c] (keep : Follows s₀ s)
    (e : (if c then none else s.alloc p n) = some (t, l)) : Follows s₀ t := by
  split at e
  · cases e
  · exact State.alloc_follows _ _ keep e

theorem State.waterPool_follows {s₀ s : State} (p old : Nat) (keep₀ : Follows s₀ s) : Follows s₀ (State.waterPool s p old) := by
  unfold State.waterPool
  with_reducible repeat' first
    | assumption | apply State.eventSet_follows | split | dsimp only

theorem State.freeBuf_follows {s₀ s : State} (p b : Nat) (keep₀ : Follows s₀ s) : Follows s₀ (State.freeBuf s p b) := by
  unfold State.freeBuf
  with_reducible repeat' first
    | assumption | apply State.incReg_follows | apply State.setPool_follows | apply State.ringPut_follows | apply State.waterPool_follows
    | simp only [Follows.same] | split | dsimp only

theorem State.addRef_follows {s₀ s : State} (h : Nat) (keep₀ : Follows s₀ s) : Follows s₀ (State.addRef s h).1 := by
  unfold State.addRef
  with_reducible repeat' first
    | assumption | apply State.incReg_follows | apply State.setRef_follows | split | dsimp only

theorem State.dropRef_follows {s₀ s : State} (h : Nat) (keep₀ : Follows s₀ s) : Follows s₀ (State.dropRef s h).1 := by
  unfold State.dropRef
  with_reducible repeat' first
    | assumption | apply State.incReg_follows | apply State.setRef_follows | apply State.freeBuf_follows | split | dsimp only

theorem State.refAll_follows {s₀ s : State} (drop : Bool) (hs : List Nat) (keep₀ : Follows s₀ s) : Follows s₀ (State.refAll s drop hs).1 := by
  unfold State.refAll
  with_reducible repeat' first
    | assumption | apply State.addRef_follows | apply State.dropRef_follows | apply Follows.foldl | apply Follows.foldl_fst
    | apply Follows.foldl_snd | intro _ | refine Follows.of_fst (by assumption) ?_ | refine Follows.of_snd (by assumption) ?_ | split | dsimp only

theorem State.poolEnable_follows {s₀ s : State} (p v : Nat) (keep₀ : Follows s₀ s) : Follows s₀ (State.poolEnable s p v) := by
  unfold State.poolEnable
  with_reducible repeat' first
    | assumption | apply State.setReg_follows | apply State.memWrite_follows | apply State.setPool_follows | apply State.waterPool_follows
    | simp only [Follows.same] | split | dsimp only

theorem State.poolDisable_follows {s₀ s : State} (p v : Nat) (keep₀ : Follows s₀ s) : Follows s₀ (State.poolDisable s p v) := by
  unfold State.poolDisable
  with_reducible repeat' first
    | assumption | apply State.setReg_follows | apply State.setFlag_follows | apply State.setPool_follows | split | dsimp only

theorem State.freePools_follows {s₀ s : State}  (keep₀ : Follows s₀ s) : Follows s₀ (State.freePools s) := by
  unfold State.freePools
  with_reducible repeat' first
    | assumption | apply State.ringPut_follows | apply State.waterPool_follows | simp only [Follows.same] | apply Follows.foldl
    | apply Follows.foldl_fst | apply Follows.foldl_snd | intro _ | split | dsimp only

theorem State.parkOr_follows {s₀ s : State} (i p : Nat) (keep₀ : Follows s₀ s) : Follows s₀ (State.parkOr s i p) := by
  unfold State.parkOr
  with_reducible repeat' first
    | assumption | apply State.setField_follows | apply State.setStage_follows | apply State.endSlot_follows | split | dsimp only

theorem State.poolAsk_follows {s₀ s : State} (i : Nat) (hs : List Nat) (keep₀ : Follows s₀ s) : Follows s₀ (State.poolAsk s i hs) := by
  unfold State.poolAsk
  with_reducible repeat' first
    | assumption | apply State.takeFree_follows | apply State.setSlot_follows | apply State.request_follows | simp only [Follows.same]
    | refine Follows.of_fst (by assumption) ?_ | refine Follows.of_snd (by assumption) ?_ | split | dsimp only | exact List.prefix_rfl
    | with_unfolding_all exact List.prefix_append _ _ | exact List.prefix_append _ _ | exact Nat.le_refl _ | exact Nat.le_succ _ | exact id
    | exact Tbl.wf_set _ _ | exact Tbl.wf_clear _ | apply Follows.update

theorem State.poolRefs_follows {s₀ s : State} (i : Nat) (drop : Bool) (keep₀ : Follows s₀ s) : Follows s₀ (State.poolRefs s i drop) := by
  unfold State.poolRefs
  with_reducible repeat' first
    | assumption | apply State.setSlot_follows | apply State.endSlot_follows | apply State.fetchTabs_follows | apply State.refAll_follows
    | apply State.poolAsk_follows | simp only [Follows.same] | refine Follows.of_fst (by assumption) ?_ | refine Follows.of_snd (by assumption) ?_
    | split | dsimp only

theorem State.poolAnswer_follows {s₀ s : State} (house room : Nat) (m : Sys2Proof.PoolMsg) (keep₀ : Follows s₀ s) : Follows s₀ (State.poolAnswer s house room m) := by
  unfold State.poolAnswer
  with_reducible repeat' first
    | assumption | apply State.takeFree_follows | apply State.request_follows | simp only [Follows.same]
    | refine Follows.of_fst (by assumption) ?_ | refine Follows.of_snd (by assumption) ?_ | split | dsimp only | exact List.prefix_rfl
    | with_unfolding_all exact List.prefix_append _ _ | exact List.prefix_append _ _ | exact Nat.le_refl _ | exact Nat.le_succ _ | exact id
    | exact Tbl.wf_set _ _ | exact Tbl.wf_clear _ | apply Follows.update

theorem State.poolMsg_follows {s₀ s : State} (house room : Nat) (m : Sys2Proof.PoolMsg) (keep₀ : Follows s₀ s) : Follows s₀ (State.poolMsg s house room m) := by
  unfold State.poolMsg
  with_reducible repeat' first
    | assumption | apply State.incReg_follows | apply State.setSlot_follows | refine State.alloc_follows _ _ ?_ (by assumption)
    | apply State.refAll_follows | apply State.poolAnswer_follows | apply State.stage_follows | simp only [Follows.same]
    | refine Follows.of_fst (by assumption) ?_ | refine Follows.of_snd (by assumption) ?_ | split | dsimp only

/-! ## Vector -/

theorem State.vecEnter_follows {s₀ s : State} (k : Nat) (f : Flight) (keep₀ : Follows s₀ s) : Follows s₀ (State.vecEnter s k f) := by
  unfold State.vecEnter
  with_reducible repeat' first
    | assumption | apply State.setCore_follows | apply State.issued_follows | simp only [Follows.same] | split | dsimp only

theorem State.vx_follows {s₀ s : State} (k op : Nat) (keep₀ : Follows s₀ s) : Follows s₀ (State.vx s k op) := by
  unfold State.vx
  with_reducible repeat' first
    | assumption | apply State.setCore_follows | apply State.progFault_follows | apply State.issue_follows | apply State.hold_follows
    | apply State.holdEngine_follows | apply State.vecEnter_follows | apply State.scalar_follows | simp only [Follows.same] | apply Follows.foldl
    | apply Follows.foldl_fst | apply Follows.foldl_snd | intro _ | apply Follows.ite | split | dsimp only

theorem State.vxStore_follows {s₀ s : State} (k w : Nat) (f : Flight) (a d : Handle) (bf : Bool) (vs : List (List FVal)) (keep₀ : Follows s₀ s) : Follows s₀ (State.vxStore s k w f a d bf vs) := by
  unfold State.vxStore
  with_reducible repeat' first
    | assumption | apply State.putRows_follows | apply State.putPairRows_follows | apply State.countConv_follows
    | refine Follows.of_fst (by assumption) ?_ | refine Follows.of_snd (by assumption) ?_ | split | dsimp only

theorem State.vxWrite_follows {s₀ s : State} (k : Nat) (f : Flight) (a b c d : Handle) (keep₀ : Follows s₀ s) : Follows s₀ (State.vxWrite s k f a b c d) := by
  unfold State.vxWrite
  with_reducible repeat' first
    | assumption | apply State.incReg_follows | apply State.putRows_follows | apply State.markRun_follows | apply State.vxStore_follows
    | apply State.scalar_follows | simp only [Follows.same] | refine Follows.of_fst (by assumption) ?_ | refine Follows.of_snd (by assumption) ?_
    | split | dsimp only | exact List.prefix_rfl | with_unfolding_all exact List.prefix_append _ _ | exact List.prefix_append _ _
    | exact Nat.le_refl _ | exact Nat.le_succ _ | exact id | exact Tbl.wf_set _ _ | exact Tbl.wf_clear _ | apply Follows.update

/-! ## Scale -/

theorem State.setHist_follows {s₀ s : State} (h : Nat) (v : Hist) (keep₀ : Follows s₀ s) : Follows s₀ (State.setHist s h v) := by
  unfold State.setHist
  with_reducible repeat' first
    | assumption | simp only [Follows.same] | split | dsimp only

theorem State.scaleOp_follows {s₀ s : State} (k op : Nat) (keep₀ : Follows s₀ s) : Follows s₀ (State.scaleOp s k op) := by
  unfold State.scaleOp
  with_reducible repeat' first
    | assumption | apply State.progFault_follows | apply State.issue_follows | apply State.hold_follows | apply State.holdEngine_follows
    | apply State.pendReg_follows | apply State.vecEnter_follows | apply State.scalar_follows | simp only [Follows.same] | intro _
    | apply Follows.ite | split | dsimp only

theorem State.sconvWrite_follows {s₀ s : State} (f : Flight) (d : Handle) (vs : List (List FVal)) (keep₀ : Follows s₀ s) : Follows s₀ (State.sconvWrite s f d vs).1 := by
  unfold State.sconvWrite
  with_reducible repeat' first
    | assumption | apply State.writeTile_follows | split | dsimp only

theorem State.scaleWrite_follows {s₀ s : State} (k : Nat) (f : Flight) (a : Handle) (keep₀ : Follows s₀ s) : Follows s₀ (State.scaleWrite s k f a) := by
  unfold State.scaleWrite
  with_reducible repeat' first
    | assumption | apply State.markRun_follows | apply State.putReg_follows | apply State.writeTile_follows | apply State.setHist_follows
    | apply State.sconvWrite_follows | simp only [Follows.same] | refine Follows.of_fst (by assumption) ?_
    | refine Follows.of_snd (by assumption) ?_ | split | dsimp only

theorem State.supplyLost_follows {s₀ s : State} (k n : Nat) (f : Flight) (a b c d : Handle) (keep₀ : Follows s₀ s) : Follows s₀ (State.supplyLost s k n f a b c d).2 := by
  unfold State.supplyLost
  with_reducible repeat' first
    | assumption | apply State.takeFree_follows | apply State.scalar_follows | simp only [Follows.same] | apply Follows.foldl
    | apply Follows.foldl_fst | apply Follows.foldl_snd | intro _ | refine Follows.of_fst (by assumption) ?_
    | refine Follows.of_snd (by assumption) ?_ | split | dsimp only

end Sys2Proof.Machine
end

