-- ==== Sys2Proof/Laws/KeepEngines.lean ====
section
/-! SUPPORT. Every operation of the movers, the Sluice and the collective engines keeps what `Follows` says. -/

namespace Sys2Proof.Machine

set_option linter.unusedSimpArgs false

/-! ## Tensor -/

theorem State.fetchTensors_follows {s₀ s : State} (i : Nat) (l : List Nat) (keep₀ : Follows s₀ s) : Follows s₀ (State.fetchTensors s i l).1 := by
  unfold State.fetchTensors
  with_reducible repeat' first
    | assumption | apply State.fetchTabs_follows | simp only [Follows.same] | refine Follows.of_fst (by assumption) ?_
    | refine Follows.of_snd (by assumption) ?_ | split | dsimp only

theorem State.putRuns_follows {s₀ s : State} (i kind : Nat) (l : List (Nat × List Byte)) (keep₀ : Follows s₀ s) : Follows s₀ (State.putRuns s i kind l) := by
  unfold State.putRuns
  with_reducible repeat' first
    | assumption | apply State.descWrite_follows | apply Follows.foldl | apply Follows.foldl_fst | apply Follows.foldl_snd | intro _ | split
    | dsimp only

theorem State.addElems_follows {s₀ s : State} (i kind : Nat) (b : Tensor) (op w : Nat) (ct : EType) (es : List (List Nat × Nat)) (keep₀ : Follows s₀ s) : Follows s₀ (State.addElems s i kind b op w ct es) := by
  unfold State.addElems
  with_reducible repeat' first
    | assumption | apply State.eatomic_follows | apply State.setSlot_follows | apply State.request_follows | apply State.slotCut_follows
    | simp only [Follows.same] | apply Follows.foldl | apply Follows.foldl_fst | apply Follows.foldl_snd | intro _
    | refine Follows.of_fst (by assumption) ?_ | refine Follows.of_snd (by assumption) ?_ | split | dsimp only

theorem State.noteElems_follows {s₀ s : State} (kind : Nat) (t : Tensor) (ixs : List (List Nat)) (keep₀ : Follows s₀ s) : Follows s₀ (State.noteElems s kind t ixs) := by
  unfold State.noteElems
  with_reducible repeat' first
    | assumption | apply State.descNotes_follows | apply Follows.foldl | apply Follows.foldl_fst | apply Follows.foldl_snd | intro _ | split
    | dsimp only

/-! ## Mover -/

theorem State.moverFail_follows {s₀ s : State} (i st : Nat) (keep₀ : Follows s₀ s) : Follows s₀ (State.moverFail s i st) := by
  unfold State.moverFail
  with_reducible repeat' first
    | assumption | apply State.incReg_follows | apply State.endSlot_follows | split | dsimp only

theorem State.moverBytes_follows {s₀ s : State} (m : Nat) (dense : Bool) (rd wr : List (Nat × List Byte)) (keep₀ : Follows s₀ s) : Follows s₀ (State.moverBytes s m dense rd wr) := by
  unfold State.moverBytes
  with_reducible repeat' first
    | assumption | apply State.incReg_follows | split | dsimp only

theorem State.freeBytes_follows {s₀ s : State} (n : Nat) (keep₀ : Follows s₀ s) : Follows s₀ (State.freeBytes s n).1 := by
  unfold State.freeBytes
  with_reducible repeat' first
    | assumption | apply State.takeFree_follows | refine Follows.of_fst (by assumption) ?_ | refine Follows.of_snd (by assumption) ?_ | split
    | dsimp only

theorem State.moverLoads_follows {s₀ s : State} (i step : Nat) (l : List (Nat × Nat)) (keep₀ : Follows s₀ s) : Follows s₀ (State.moverLoads s i step l) := by
  unfold State.moverLoads
  with_reducible repeat' first
    | assumption | apply State.setSlot_follows | apply State.loadAll_follows | apply State.stage_follows | simp only [Follows.same] | split
    | dsimp only

theorem State.moverRead_follows {s₀ s : State} (i : Nat) (go : State → State) (hf : ∀ t, Follows s₀ t → Follows s₀ (go t)) (keep : Follows s₀ s) :
    Follows s₀ (s.moverRead i go) := by
  unfold State.moverRead
  with_reducible repeat' first | assumption | apply hf | apply State.builtinOver_follows | split

theorem State.mvWrite_follows {s₀ s : State} (i : Nat) (v : Slot) (a b : Tensor) (get : List Nat → Nat × Nat × FVal) (keep₀ : Follows s₀ s) : Follows s₀ (State.mvWrite s i v a b get) := by
  unfold State.mvWrite
  with_reducible repeat' first
    | assumption | apply State.countConv_follows | apply State.putRuns_follows | refine Follows.of_fst (by assumption) ?_
    | refine Follows.of_snd (by assumption) ?_ | split | dsimp only

theorem State.mvStage_follows {s₀ s : State} (i : Nat) (v : Slot) (a : Tensor) (keep₀ : Follows s₀ s) : Follows s₀ (State.mvStage s i v a) := by
  unfold State.mvStage
  with_reducible repeat' first
    | assumption | apply State.incReg_follows | apply State.descWrite_follows | split | dsimp only

theorem State.mvCopy_follows {s₀ s : State} (i : Nat) (a b : Tensor) (keep₀ : Follows s₀ s) : Follows s₀ (State.mvCopy s i a b) := by
  unfold State.mvCopy
  with_reducible repeat' first
    | assumption | apply State.incReg_follows | apply State.setSlot_follows | apply State.noteElems_follows | apply State.builtinOver_follows
    | apply State.moverBytes_follows | apply State.mvWrite_follows | apply State.mvStage_follows | simp only [Follows.same] | split | dsimp only

theorem State.mvGo_follows {s₀ s : State} (i : Nat) (keep₀ : Follows s₀ s) : Follows s₀ (State.mvGo s i) := by
  unfold State.mvGo
  with_reducible repeat' first
    | assumption | apply State.builtinOver_follows | apply State.moverLoads_follows | apply State.moverRead_follows | apply State.mvCopy_follows
    | simp only [Follows.same] | intro _ | split | dsimp only

theorem State.mvStart_follows {s₀ s : State} (i : Nat) (a b : Tensor) (keep₀ : Follows s₀ s) : Follows s₀ (State.mvStart s i a b) := by
  unfold State.mvStart
  with_reducible repeat' first
    | assumption | apply State.setSlot_follows | apply State.endSlot_follows | apply State.enterBuiltin_follows | apply State.mvGo_follows
    | apply State.stage_follows | simp only [Follows.same] | split | dsimp only

theorem State.takeIndices_follows {s₀ s : State} (i : Nat) (x : Tensor) (n : Nat) (keep₀ : Follows s₀ s) : Follows s₀ (State.takeIndices s i x n) := by
  unfold State.takeIndices
  with_reducible repeat' first
    | assumption | apply State.incReg_follows | apply State.setSlot_follows | apply State.noteElems_follows | simp only [Follows.same] | split
    | dsimp only

theorem State.gaWrite_follows {s₀ s : State} (i : Nat) (a b : Tensor) (keep₀ : Follows s₀ s) : Follows s₀ (State.gaWrite s i a b) := by
  unfold State.gaWrite
  with_reducible repeat' first
    | assumption | apply State.setSlot_follows | apply State.endSlot_follows | apply State.descNotes_follows | apply State.putRuns_follows
    | apply State.moverBytes_follows | simp only [Follows.same] | apply Follows.foldl | apply Follows.foldl_fst | apply Follows.foldl_snd
    | intro _ | split | dsimp only

theorem State.gaGo_follows {s₀ s : State} (i : Nat) (keep₀ : Follows s₀ s) : Follows s₀ (State.gaGo s i) := by
  unfold State.gaGo
  with_reducible repeat' first
    | assumption | apply State.moverLoads_follows | apply State.moverRead_follows | apply State.takeIndices_follows | apply State.gaWrite_follows
    | simp only [Follows.same] | intro _ | split | dsimp only

theorem State.scSlice_follows {s₀ s : State} (i : Nat) (v : Slot) (b : Tensor) (es : List (List Nat × Nat)) (keep₀ : Follows s₀ s) : Follows s₀ (State.scSlice s i v b es) := by
  unfold State.scSlice
  with_reducible repeat' first
    | assumption | apply State.putRuns_follows | apply State.addElems_follows | split | dsimp only

theorem State.scChunk_follows {s₀ s : State} (i k : Nat) (a b : Tensor) (p m : Nat) (keep₀ : Follows s₀ s) : Follows s₀ (State.scChunk s i k a b p m) := by
  unfold State.scChunk
  with_reducible repeat' first
    | assumption | apply State.countConv_follows | apply State.putRuns_follows | apply State.addElems_follows | apply State.builtinVx_follows
    | simp only [Follows.same] | apply Follows.foldl | apply Follows.foldl_fst | apply Follows.foldl_snd | intro _ | split | dsimp only

theorem State.scProgGo_follows {s₀ s : State} (i : Nat) (a b : Tensor) (keep₀ : Follows s₀ s) : Follows s₀ (State.scProgGo s i a b) := by
  unfold State.scProgGo
  with_reducible repeat' first
    | assumption | apply State.setSlot_follows | apply State.markRun_follows | apply State.builtinOver_follows | apply State.scChunk_follows
    | simp only [Follows.same] | split | dsimp only

theorem State.scProgStart_follows {s₀ s : State} (i : Nat) (a : Tensor) (keep₀ : Follows s₀ s) : Follows s₀ (State.scProgStart s i a) := by
  unfold State.scProgStart
  with_reducible repeat' first
    | assumption | apply State.memWrite_follows | apply State.freeBytes_follows | apply State.scChunk_follows
    | refine Follows.of_fst (by assumption) ?_ | refine Follows.of_snd (by assumption) ?_ | split | dsimp only

theorem State.scWrite_follows {s₀ s : State} (i : Nat) (a b : Tensor) (keep₀ : Follows s₀ s) : Follows s₀ (State.scWrite s i a b) := by
  unfold State.scWrite
  with_reducible repeat' first
    | assumption | apply State.takeFree_follows | apply State.endSlot_follows | apply State.moverBytes_follows | apply State.scSlice_follows
    | apply Follows.foldl | apply Follows.foldl_fst | apply Follows.foldl_snd | intro _ | refine Follows.of_fst (by assumption) ?_
    | refine Follows.of_snd (by assumption) ?_ | split | dsimp only

theorem State.scGo_follows {s₀ s : State} (i : Nat) (keep₀ : Follows s₀ s) : Follows s₀ (State.scGo s i) := by
  unfold State.scGo
  with_reducible repeat' first
    | assumption | apply State.setSlot_follows | apply State.noteElems_follows | apply State.builtinOver_follows | apply State.moverLoads_follows
    | apply State.moverRead_follows | apply State.takeIndices_follows | apply State.scProgGo_follows | apply State.scProgStart_follows
    | apply State.scWrite_follows | simp only [Follows.same] | intro _ | split | dsimp only

/-! ## Rounds -/

theorem State.noteLayer_follows {s₀ s : State} (n : Nat) (keep₀ : Follows s₀ s) : Follows s₀ (State.noteLayer s n) := by
  unfold State.noteLayer
  with_reducible repeat' first
    | assumption | apply State.readNotes_follows | split | dsimp only

theorem State.waterRr_follows {s₀ s : State} (old : Nat) (freed : Bool) (keep₀ : Follows s₀ s) : Follows s₀ (State.waterRr s old freed) := by
  unfold State.waterRr
  with_reducible repeat' first
    | assumption | apply State.eventSet_follows | split | dsimp only

theorem State.modExch_follows {s₀ s : State} (i : Nat) (f : Exch → Exch) (keep₀ : Follows s₀ s) : Follows s₀ (State.modExch s i f) := by
  unfold State.modExch
  with_reducible repeat' first
    | assumption | simp only [Follows.same] | split | dsimp only

theorem State.sluReply_follows {s₀ s : State} (h r layer gen : Nat) (b : SluBody) (keep₀ : Follows s₀ s) : Follows s₀ (State.sluReply s h r layer gen b) := by
  unfold State.sluReply
  with_reducible repeat' first
    | assumption | apply State.sendUnit_follows | split | dsimp only

theorem State.sluSend_follows {s₀ s : State} (i : Nat) (h r : Nat) (x : Exch) (b : SluBody) (keep : Bool) (keep₀ : Follows s₀ s) : Follows s₀ (State.sluSend s i h r x b keep) := by
  unfold State.sluSend
  with_reducible repeat' first
    | assumption | apply State.sendUnit_follows | apply State.sendKept_follows | split | dsimp only

theorem State.putArrived_follows {s₀ s : State} (handle cap : Nat) (f : RowFmt) (n : Nat) (a : Arrived) (elems scales : List Byte) (keep₀ : Follows s₀ s) : Follows s₀ (State.putArrived s handle cap f n a elems scales) := by
  unfold State.putArrived
  with_reducible repeat' first
    | assumption | apply State.memWrite_follows | split | dsimp only

theorem State.setServed_follows {s₀ s : State} (layer gen : Nat) (v : Served) (keep₀ : Follows s₀ s) : Follows s₀ (State.setServed s layer gen v) := by
  unfold State.setServed
  with_reducible repeat' first
    | assumption | simp only [Follows.same] | split | dsimp only

theorem State.answersGone_follows {s₀ s : State} (p : Nat → Nat → Nat → Nat × Nat × Nat → Bool) (keep₀ : Follows s₀ s) : Follows s₀ (State.answersGone s p) := by
  unfold State.answersGone
  with_reducible repeat' first
    | assumption | apply State.dropRef_follows | simp only [Follows.same] | apply Follows.foldl | apply Follows.foldl_fst
    | apply Follows.foldl_snd | intro _ | split | dsimp only

theorem State.settleAnswers_follows {s₀ s : State}  (keep₀ : Follows s₀ s) : Follows s₀ (State.settleAnswers s) := by
  unfold State.settleAnswers
  with_reducible repeat' first
    | assumption | apply State.answersGone_follows | split | dsimp only

theorem State.closeCounting_follows {s₀ s : State} (layer gen : Nat) (keep₀ : Follows s₀ s) : Follows s₀ (State.closeCounting s layer gen) := by
  unfold State.closeCounting
  with_reducible repeat' first
    | assumption | apply State.eatomic_follows | simp only [Follows.same] | apply Follows.foldl | apply Follows.foldl_fst
    | apply Follows.foldl_snd | intro _ | split | dsimp only

theorem State.closeReturned_follows {s₀ s : State}  (keep₀ : Follows s₀ s) : Follows s₀ (State.closeReturned s) := by
  unfold State.closeReturned
  with_reducible repeat' first
    | assumption | apply State.closeCounting_follows | apply Follows.foldl | apply Follows.foldl_fst | apply Follows.foldl_snd | intro _ | split
    | dsimp only

theorem State.roomsLost_follows {s₀ s : State}  (keep₀ : Follows s₀ s) : Follows s₀ (State.roomsLost s) := by
  unfold State.roomsLost
  with_reducible repeat' first
    | assumption | apply State.settleAnswers_follows | apply State.closeReturned_follows | split | dsimp only

theorem State.endRound_follows {s₀ s : State} (e : Nat) (keep₀ : Follows s₀ s) : Follows s₀ (State.endRound s e) := by
  unfold State.endRound
  with_reducible repeat' first
    | assumption | apply State.setRound_follows | apply State.hold_follows | apply State.dropRef_follows | apply State.waterRr_follows
    | apply State.settleAnswers_follows | simp only [Follows.same] | apply Follows.foldl | apply Follows.foldl_fst | apply Follows.foldl_snd
    | intro _ | apply Follows.elim | split | dsimp only

/-! ## Sluice -/

theorem State.fetchExch_follows {s₀ s : State} (i : Nat) (tensors : List Nat) (tabs : List (Nat × Nat)) (keep₀ : Follows s₀ s) : Follows s₀ (State.fetchExch s i tensors tabs).1 := by
  unfold State.fetchExch
  with_reducible repeat' first
    | assumption | apply State.fetchTabs_follows | apply State.fetchTensors_follows | simp only [Follows.same]
    | refine Follows.of_fst (by assumption) ?_ | refine Follows.of_snd (by assumption) ?_ | split | dsimp only

theorem State.dropTry_follows {s₀ s : State} (i : Nat) (t : Try) (o : Nat) (live : Bool) (keep₀ : Follows s₀ s) : Follows s₀ (State.dropTry s i t o live) := by
  unfold State.dropTry
  with_reducible repeat' first
    | assumption | apply State.incReg_follows | apply State.modExch_follows | simp only [Follows.same] | refine Follows.of_fst (by assumption) ?_
    | refine Follows.of_snd (by assumption) ?_ | split | dsimp only

theorem State.judge_follows {s₀ s : State} (i token : Nat) (keep₀ : Follows s₀ s) : Follows s₀ (State.judge s i token) := by
  unfold State.judge
  with_reducible repeat' first
    | assumption | apply State.incReg_follows | apply State.readNotes_follows | apply State.noteElems_follows | apply State.modExch_follows
    | apply State.sluSend_follows | apply State.dropTry_follows | simp only [Follows.same] | refine Follows.of_fst (by assumption) ?_
    | refine Follows.of_snd (by assumption) ?_ | split | dsimp only

theorem State.fill_follows {s₀ s : State} (f j token lim : Nat) (keep : Follows s₀ s) : Follows s₀ (State.fill f s j token lim) := by
  induction f generalizing s with
  | zero => exact keep
  | succ n ih =>
    unfold State.fill
    with_reducible repeat' first
      | assumption | apply ih | apply State.judge_follows | simp only [Follows.same] | split | dsimp only

theorem State.settleToken_follows {s₀ s : State} (i token : Nat) (keep₀ : Follows s₀ s) : Follows s₀ (State.settleToken s i token) := by
  unfold State.settleToken
  with_reducible repeat' first
    | assumption | apply State.incReg_follows | apply State.putRoute_follows | apply State.putRuns_follows | apply State.modExch_follows
    | simp only [Follows.same] | apply Follows.foldl | apply Follows.foldl_fst | apply Follows.foldl_snd | intro _
    | refine Follows.of_fst (by assumption) ?_ | refine Follows.of_snd (by assumption) ?_ | split | dsimp only

theorem State.sendCounts_follows {s₀ s : State} (i : Nat) (keep₀ : Follows s₀ s) : Follows s₀ (State.sendCounts s i) := by
  unfold State.sendCounts
  with_reducible repeat' first
    | assumption | apply State.sluSend_follows | simp only [Follows.same] | apply Follows.foldl | apply Follows.foldl_fst
    | apply Follows.foldl_snd | intro _ | split | dsimp only

theorem State.admitGo_follows {s₀ s : State} (i : Nat) (keep₀ : Follows s₀ s) : Follows s₀ (State.admitGo s i) := by
  unfold State.admitGo
  with_reducible repeat' first
    | assumption | apply State.modExch_follows | apply State.fill_follows | apply State.settleToken_follows | apply State.sendCounts_follows
    | simp only [Follows.same] | apply Follows.foldl | apply Follows.foldl_fst | apply Follows.foldl_snd | intro _ | split | dsimp only

theorem State.admitTry_follows {s₀ s : State} (i : Nat) (t : Try) (row handle : Nat) (keep₀ : Follows s₀ s) : Follows s₀ (State.admitTry s i t row handle) := by
  unfold State.admitTry
  with_reducible repeat' first
    | assumption | apply State.incReg_follows | apply State.putRoute_follows | apply State.noteElems_follows | apply State.modExch_follows
    | apply State.sluSend_follows | simp only [Follows.same] | refine Follows.of_fst (by assumption) ?_ | refine Follows.of_snd (by assumption) ?_
    | split | dsimp only

theorem State.verdict_follows {s₀ s : State} (i : Nat) (t : Try) (v : Verdict) (keep₀ : Follows s₀ s) : Follows s₀ (State.verdict s i t v) := by
  unfold State.verdict
  with_reducible repeat' first
    | assumption | apply State.dropTry_follows | apply State.admitTry_follows | simp only [Follows.same] | split | dsimp only

theorem State.xEnd_follows {s₀ s : State} (i st info : Nat) (keep₀ : Follows s₀ s) : Follows s₀ (State.xEnd s i st info) := by
  unfold State.xEnd
  with_reducible repeat' first
    | assumption | apply State.setSlot_follows | apply State.endSlot_follows | simp only [Follows.same] | split | dsimp only

theorem State.xReturn_follows {s₀ s : State} (x : Exch) (keep₀ : Follows s₀ s) : Follows s₀ (State.xReturn s x) := by
  unfold State.xReturn
  with_reducible repeat' first
    | assumption | apply State.setRound_follows | apply State.waterRr_follows | simp only [Follows.same] | split | dsimp only

theorem State.xStop_follows {s₀ s : State} (x : Exch) (st : Nat) (keep₀ : Follows s₀ s) : Follows s₀ (State.xStop s x st) := by
  unfold State.xStop
  with_reducible repeat' first
    | assumption | apply State.xEnd_follows | apply State.xReturn_follows | split | dsimp only

theorem State.dispatchEnd_follows {s₀ s : State} (x : Exch) (e : Nat) (keep₀ : Follows s₀ s) : Follows s₀ (State.dispatchEnd s x e) := by
  unfold State.dispatchEnd
  with_reducible repeat' first
    | assumption | apply State.setRound_follows | apply State.descWrite_follows | apply State.xEnd_follows | apply State.xReturn_follows
    | simp only [Follows.same] | split | dsimp only

theorem State.slottedSums_follows {s₀ s : State} (x : Exch) (e : Nat) (keep₀ : Follows s₀ s) : Follows s₀ (State.slottedSums s x e) := by
  unfold State.slottedSums
  with_reducible repeat' first
    | assumption | apply State.readNotes_follows | apply State.setSlot_follows | apply State.putRuns_follows | apply State.noteElems_follows
    | simp only [Follows.same] | apply Follows.foldl | apply Follows.foldl_fst | apply Follows.foldl_snd | intro _
    | refine Follows.of_fst (by assumption) ?_ | refine Follows.of_snd (by assumption) ?_ | split | dsimp only | exact List.prefix_rfl
    | with_unfolding_all exact List.prefix_append _ _ | exact List.prefix_append _ _ | exact Nat.le_refl _ | exact Nat.le_succ _ | exact id
    | exact Tbl.wf_set _ _ | exact Tbl.wf_clear _ | apply Follows.update

theorem State.combineEnd_follows {s₀ s : State} (x : Exch) (e : Nat) (keep₀ : Follows s₀ s) : Follows s₀ (State.combineEnd s x e) := by
  unfold State.combineEnd
  with_reducible repeat' first
    | assumption | apply State.incReg_follows | apply State.setRound_follows | apply State.dropRef_follows | apply State.endRound_follows
    | apply State.xEnd_follows | apply State.slottedSums_follows | simp only [Follows.same] | apply Follows.foldl | apply Follows.foldl_fst
    | apply Follows.foldl_snd | intro _ | refine Follows.of_fst (by assumption) ?_ | refine Follows.of_snd (by assumption) ?_ | split | dsimp only

theorem State.bwdRows_follows {s₀ s : State} (i : Nat) (x : Exch) (keep₀ : Follows s₀ s) : Follows s₀ (State.bwdRows s i x) := by
  unfold State.bwdRows
  with_reducible repeat' first
    | assumption | apply State.countConv_follows | apply State.noteElems_follows | apply State.modExch_follows | apply State.sluSend_follows
    | simp only [Follows.same] | apply Follows.foldl | apply Follows.foldl_fst | apply Follows.foldl_snd | intro _
    | refine Follows.of_fst (by assumption) ?_ | refine Follows.of_snd (by assumption) ?_ | apply Follows.elim | split | dsimp only

theorem State.xBegin_follows {s₀ s : State} (i : Nat) (x : Exch) (keep₀ : Follows s₀ s) : Follows s₀ (State.xBegin s i x) := by
  unfold State.xBegin
  with_reducible repeat' first
    | assumption | apply State.fill_follows | apply State.sendCounts_follows | apply State.bwdRows_follows | apply Follows.foldl
    | apply Follows.foldl_fst | apply Follows.foldl_snd | intro _ | split | dsimp only

theorem State.sendDone_follows {s₀ s : State} (i : Nat) (x : Exch) (keep₀ : Follows s₀ s) : Follows s₀ (State.sendDone s i x) := by
  unfold State.sendDone
  with_reducible repeat' first
    | assumption | apply State.modExch_follows | apply State.sluSend_follows | simp only [Follows.same] | apply Follows.foldl
    | apply Follows.foldl_fst | apply Follows.foldl_snd | intro _ | split | dsimp only

theorem State.sluRun_follows {s₀ s : State} (i : Nat) (x : Exch) (keep₀ : Follows s₀ s) : Follows s₀ (State.sluRun s i x) := by
  unfold State.sluRun
  with_reducible repeat' first
    | assumption | apply State.setSlot_follows | apply State.loadAll_follows | apply State.answersGone_follows | apply State.closeReturned_follows
    | apply State.dropTry_follows | apply State.admitGo_follows | apply State.dispatchEnd_follows | apply State.combineEnd_follows
    | apply State.sendDone_follows | simp only [Follows.same] | apply Follows.foldl | apply Follows.foldl_fst | apply Follows.foldl_snd | intro _
    | apply Follows.elim | split | dsimp only

theorem State.sluGo_follows {s₀ s : State} (i : Nat) (keep₀ : Follows s₀ s) : Follows s₀ (State.sluGo s i) := by
  unfold State.sluGo
  with_reducible repeat' first
    | assumption | apply State.setSlot_follows | apply State.modExch_follows | apply State.xStop_follows | apply State.xBegin_follows
    | apply State.sluRun_follows | simp only [Follows.same] | intro _ | apply Follows.elim | split | dsimp only

theorem State.sluWake_follows {s₀ s : State} (layer gen : Nat) (keep₀ : Follows s₀ s) : Follows s₀ (State.sluWake s layer gen) := by
  unfold State.sluWake
  with_reducible repeat' first
    | assumption | apply State.sluGo_follows | apply Follows.foldl | apply Follows.foldl_fst | apply Follows.foldl_snd | intro _ | split
    | dsimp only

theorem State.xStart_follows {s₀ s : State} (i : Nat) (x : Exch) (keep₀ : Follows s₀ s) : Follows s₀ (State.xStart s i x) := by
  unfold State.xStart
  with_reducible repeat' first
    | assumption | apply State.setSlot_follows | apply State.loadAll_follows | apply State.stage_follows | simp only [Follows.same] | split
    | dsimp only

theorem State.fwdBegin_follows {s₀ s : State} (i : Nat) (keep₀ : Follows s₀ s) : Follows s₀ (State.fwdBegin s i) := by
  unfold State.fwdBegin
  with_reducible repeat' first
    | assumption | apply State.setRound_follows | apply State.parkOr_follows | apply State.noteLayer_follows | apply State.fetchExch_follows
    | apply State.xEnd_follows | apply State.sluGo_follows | apply State.xStart_follows | simp only [Follows.same]
    | refine Follows.of_fst (by assumption) ?_ | refine Follows.of_snd (by assumption) ?_ | split | dsimp only

theorem State.bwdBegin_follows {s₀ s : State} (i : Nat) (keep₀ : Follows s₀ s) : Follows s₀ (State.bwdBegin s i) := by
  unfold State.bwdBegin
  with_reducible repeat' first
    | assumption | apply State.setRound_follows | apply State.noteLayer_follows | apply State.fetchExch_follows | apply State.xEnd_follows
    | apply State.sluGo_follows | apply State.xStart_follows | simp only [Follows.same] | intro _ | refine Follows.of_fst (by assumption) ?_
    | refine Follows.of_snd (by assumption) ?_ | apply Follows.elim | split | dsimp only

theorem State.sendAnswer_follows {s₀ s : State} (i : Nat) (x : Exch) (k rows : Nat) (a : Arrived) (keep₀ : Follows s₀ s) : Follows s₀ (State.sendAnswer s i x k rows a) := by
  unfold State.sendAnswer
  with_reducible repeat' first
    | assumption | apply State.readNotes_follows | apply State.answer_follows | apply State.modExch_follows | apply State.sluSend_follows
    | simp only [Follows.same] | refine Follows.of_fst (by assumption) ?_ | refine Follows.of_snd (by assumption) ?_ | split | dsimp only

theorem State.sendAnswers_follows {s₀ s : State} (i : Nat) (x : Exch) (keep₀ : Follows s₀ s) : Follows s₀ (State.sendAnswers s i x) := by
  unfold State.sendAnswers
  with_reducible repeat' first
    | assumption | apply State.addRef_follows | apply State.setServed_follows | apply State.sendAnswer_follows | simp only [Follows.same]
    | apply Follows.foldl | apply Follows.foldl_fst | apply Follows.foldl_snd | intro _ | apply Follows.elim | split | dsimp only

theorem State.combBegin_follows {s₀ s : State} (i : Nat) (keep₀ : Follows s₀ s) : Follows s₀ (State.combBegin s i) := by
  unfold State.combBegin
  with_reducible repeat' first
    | assumption | apply State.incReg_follows | apply State.setRound_follows | apply State.putRuns_follows
    | refine State.alloc_follows _ _ ?_ (by assumption) | apply State.parkOr_follows | apply State.noteLayer_follows
    | apply State.fetchExch_follows | apply State.xEnd_follows | apply State.sluGo_follows | apply State.xStart_follows
    | apply State.sendAnswers_follows | refine State.allocUnless_follows ?_ (by assumption) | simp only [Follows.same] | intro _
    | refine Follows.of_fst (by assumption) ?_ | refine Follows.of_snd (by assumption) ?_ | apply Follows.elim | apply Follows.ite | split
    | dsimp only

/-! ## Exchange -/

theorem State.sluTake_follows {s₀ s : State} (m : Sys2Proof.SluMsg) (f : State → State) (hf : ∀ t, Follows s₀ t → Follows s₀ (f t))
    (keep : Follows s₀ s) : Follows s₀ (s.sluTake m f) := by
  unfold State.sluTake
  with_reducible repeat' first
    | assumption | apply hf | apply State.takeLoop_follows | refine Follows.of_fst (by assumption) ?_ | split | dsimp only

theorem State.sluRefuse_follows {s₀ s : State} (m : Sys2Proof.SluMsg) (empty counted : Bool) (keep₀ : Follows s₀ s) : Follows s₀ (State.sluRefuse s m empty counted) := by
  unfold State.sluRefuse
  with_reducible repeat' first
    | assumption | apply State.incReg_follows | apply State.refuseMsg_follows | split | dsimp only

theorem State.sluBack_follows {s₀ s : State} (m : Sys2Proof.SluMsg) (b : SluBody) (keep₀ : Follows s₀ s) : Follows s₀ (State.sluBack s m b) := by
  unfold State.sluBack
  with_reducible repeat' first
    | assumption | apply State.sluReply_follows | split | dsimp only

theorem State.seatBuffer_follows {s₀ s : State} (m : Sys2Proof.SluMsg) (v : Served) (f : RowFmt) (keep₀ : Follows s₀ s) : Follows s₀ (State.seatBuffer s m v f).1 := by
  unfold State.seatBuffer
  with_reducible repeat' first
    | assumption | apply State.incReg_follows | apply State.memWrite_follows | refine State.alloc_follows _ _ ?_ (by assumption)
    | apply State.setServed_follows | simp only [Follows.same] | refine Follows.of_fst (by assumption) ?_
    | refine Follows.of_snd (by assumption) ?_ | split | dsimp only

theorem State.seat_follows {s₀ s : State} (m : Sys2Proof.SluMsg) (e n ver : Nat) (f : RowFmt) (keep₀ : Follows s₀ s) : Follows s₀ (State.seat s m e n ver f).1 := by
  unfold State.seat
  with_reducible repeat' first
    | assumption | apply State.readNotes_follows | apply State.noteLayer_follows | apply State.seatBuffer_follows | simp only [Follows.same]
    | apply Follows.ite | split | dsimp only

theorem State.answerStep_follows {s₀ s : State} (layer gen : Nat) (v : Served) (step : Nat) (keep₀ : Follows s₀ s) : Follows s₀ (State.answerStep s layer gen v step) := by
  unfold State.answerStep
  with_reducible repeat' first
    | assumption | apply State.sluReply_follows | apply State.setServed_follows | simp only [Follows.same] | apply Follows.foldl
    | apply Follows.foldl_fst | apply Follows.foldl_snd | intro _ | split | dsimp only

theorem State.tryStep_follows {s₀ s : State} (f layer gen slot : Nat) (keep : Follows s₀ s) : Follows s₀ (State.tryStep f s layer gen slot) := by
  induction f generalizing s with
  | zero => exact keep
  | succ n ih =>
    unfold State.tryStep
    with_reducible repeat' first
      | assumption | apply ih | apply State.answerStep_follows | simp only [Follows.same] | apply Follows.foldl | apply Follows.foldl_fst
      | apply Follows.foldl_snd | intro _ | apply Follows.elim | split | dsimp only

theorem State.browTaken_follows {s₀ s : State} (m : Sys2Proof.SluMsg) (token rank : Nat) (keep₀ : Follows s₀ s) : Follows s₀ (State.browTaken s m token rank) := by
  unfold State.browTaken
  with_reducible repeat' first
    | assumption | apply State.putRoute_follows | apply State.dropKept_follows | apply State.sluWake_follows | simp only [Follows.same] | split
    | dsimp only

theorem State.scaledAdd_follows {s₀ s : State} (i : Nat) (b : Tensor) (token w : Nat) (vals : List FVal) (keep₀ : Follows s₀ s) : Follows s₀ (State.scaledAdd s i b token w vals) := by
  unfold State.scaledAdd
  with_reducible repeat' first
    | assumption | apply State.addElems_follows | split | dsimp only

theorem State.applyAnswer_follows {s₀ s : State} (x : Exch) (e : Nat) (r : Route) (f : RowFmt) (elems scales : List Byte) (keep₀ : Follows s₀ s) : Follows s₀ (State.applyAnswer s x e r f elems scales) := by
  unfold State.applyAnswer
  with_reducible repeat' first
    | assumption | apply State.memWrite_follows | apply State.modExch_follows | apply State.scaledAdd_follows | simp only [Follows.same] | split
    | dsimp only

theorem State.sendAgain_follows {s₀ s : State} (k : Kept) (keep₀ : Follows s₀ s) : Follows s₀ (State.sendAgain s k) := by
  unfold State.sendAgain
  with_reducible repeat' first
    | assumption | apply State.sendUnit_follows | split | dsimp only

theorem State.giveUp_follows {s₀ s : State} (k : Kept) (x : Exch) (keep₀ : Follows s₀ s) : Follows s₀ (State.giveUp s k x) := by
  unfold State.giveUp
  with_reducible repeat' first
    | assumption | apply State.dropKept_follows | apply State.dropTry_follows | apply State.sluGo_follows | simp only [Follows.same]
    | apply Follows.foldl | apply Follows.foldl_fst | apply Follows.foldl_snd | intro _ | split | dsimp only

/-! ## Collective -/

theorem State.cEnd_follows {s₀ s : State} (i st info : Nat) (keep₀ : Follows s₀ s) : Follows s₀ (State.cEnd s i st info) := by
  unfold State.cEnd
  with_reducible repeat' first
    | assumption | apply State.incReg_follows | apply State.endSlot_follows | split | dsimp only

theorem State.gatherStart_follows {s₀ s : State} (i at_ : Nat) (a : Tensor) (keep₀ : Follows s₀ s) : Follows s₀ (State.gatherStart s i at_ a) := by
  unfold State.gatherStart
  with_reducible repeat' first
    | assumption | apply State.setSlot_follows | apply State.sendUnit_follows | apply State.loadAll_follows | apply State.stage_follows
    | simp only [Follows.same] | apply Follows.foldl | apply Follows.foldl_fst | apply Follows.foldl_snd | intro _ | split | dsimp only

theorem State.gatherCopy_follows {s₀ s : State} (i : Nat) (a b : Tensor) (keep₀ : Follows s₀ s) : Follows s₀ (State.gatherCopy s i a b) := by
  unfold State.gatherCopy
  with_reducible repeat' first
    | assumption | apply State.setSlot_follows | apply State.putRuns_follows | apply State.noteElems_follows | simp only [Follows.same] | split
    | dsimp only

theorem State.gatherGo_follows {s₀ s : State} (i : Nat) (keep₀ : Follows s₀ s) : Follows s₀ (State.gatherGo s i) := by
  unfold State.gatherGo
  with_reducible repeat' first
    | assumption | apply State.descWrite_follows | apply State.cEnd_follows | apply State.gatherCopy_follows | simp only [Follows.same]
    | apply Follows.foldl | apply Follows.foldl_fst | apply Follows.foldl_snd | intro _ | split | dsimp only

theorem State.putHead_follows {s₀ s : State} (x : Red) (i o n v : Nat) (keep₀ : Follows s₀ s) : Follows s₀ (State.putHead s x i o n v) := by
  unfold State.putHead
  with_reducible repeat' first
    | assumption | apply State.memWrite_follows | split | dsimp only

theorem State.setBands_follows {s₀ s : State} (o : Nat) (l : List Nat) (keep₀ : Follows s₀ s) : Follows s₀ (State.setBands s o l) := by
  unfold State.setBands
  with_reducible repeat' first
    | assumption | apply State.memWrite_follows | apply Follows.foldl | apply Follows.foldl_fst | apply Follows.foldl_snd | intro _ | split
    | dsimp only

theorem State.areaRead_follows {s₀ s : State} (x : Red) (o n : Nat) (keep₀ : Follows s₀ s) : Follows s₀ (State.areaRead s x o n) := by
  unfold State.areaRead
  with_reducible repeat' first
    | assumption | apply State.readNotes_follows | apply State.setSlot_follows | simp only [Follows.same] | split | dsimp only

theorem State.addWords_follows {s₀ s : State} (x : Red) (l : List (Nat × Nat)) (keep₀ : Follows s₀ s) : Follows s₀ (State.addWords s x l) := by
  unfold State.addWords
  with_reducible repeat' first
    | assumption | apply State.eatomic_follows | apply State.setSlot_follows | simp only [Follows.same] | apply Follows.foldl
    | apply Follows.foldl_fst | apply Follows.foldl_snd | intro _ | refine Follows.of_fst (by assumption) ?_
    | refine Follows.of_snd (by assumption) ?_ | split | dsimp only

theorem State.sendChunks_follows {s₀ s : State} (x : Red) (i : Nat) (to_ : Nat × Nat) (relay : Bool) (absent : List (Nat × Nat)) (l : List Chunk) (keep₀ : Follows s₀ s) : Follows s₀ (State.sendChunks s x i to_ relay absent l) := by
  unfold State.sendChunks
  with_reducible repeat' first
    | assumption | apply State.sendKept_follows | apply Follows.foldl | apply Follows.foldl_fst | apply Follows.foldl_snd | intro _ | split
    | dsimp only

theorem State.setRed_follows {s₀ s : State} (x : Red) (keep₀ : Follows s₀ s) : Follows s₀ (State.setRed s x) := by
  unfold State.setRed
  with_reducible repeat' first
    | assumption | simp only [Follows.same] | split | dsimp only

theorem State.freeBufs_follows {s₀ s : State} (l : List Nat) (keep₀ : Follows s₀ s) : Follows s₀ (State.freeBufs s l) := by
  unfold State.freeBufs
  with_reducible repeat' first
    | assumption | apply State.dropRef_follows | apply Follows.foldl | apply Follows.foldl_fst | apply Follows.foldl_snd | intro _ | split
    | dsimp only

theorem State.sumpClear_follows {s₀ s : State} (x : Red) (i : Nat) (keep₀ : Follows s₀ s) : Follows s₀ (State.sumpClear s x i) := by
  unfold State.sumpClear
  with_reducible repeat' first
    | assumption | apply State.memWrite_follows | apply State.putHead_follows | simp only [Follows.same] | split | dsimp only

theorem State.sumpAdd_follows {s₀ s : State} (x : Red) (i : Nat) (from_ : Nat × Nat) (cs : List Chunk) (keep₀ : Follows s₀ s) : Follows s₀ (State.sumpAdd s x i from_ cs).1 := by
  unfold State.sumpAdd
  with_reducible repeat' first
    | assumption | apply State.incReg_follows | apply State.putHead_follows | apply State.setBands_follows | apply State.areaRead_follows
    | apply State.addWords_follows | simp only [Follows.same] | split | dsimp only

theorem State.lateDrop_follows {s₀ s : State} (x : Red) (i : Nat) (keep₀ : Follows s₀ s) : Follows s₀ (State.lateDrop s x i) := by
  unfold State.lateDrop
  with_reducible repeat' first
    | assumption | apply State.incReg_follows | apply State.putHead_follows | split | dsimp only

theorem State.colReply_follows {s₀ s : State} (m : Sys2Proof.ColMsg) (relay : Bool) (r : Nat) (keep₀ : Follows s₀ s) : Follows s₀ (State.colReply s m relay r) := by
  unfold State.colReply
  with_reducible repeat' first
    | assumption | apply State.sendUnit_follows | apply State.reply_follows | split | dsimp only

theorem State.lateChunk_follows {s₀ s : State} (x : Red) (m : Sys2Proof.ColMsg) (relay dead : Bool) (total : Nat) (keep₀ : Follows s₀ s) : Follows s₀ (State.lateChunk s x m relay dead total) := by
  unfold State.lateChunk
  with_reducible repeat' first
    | assumption | apply State.sumpAdd_follows | apply State.lateDrop_follows | apply State.colReply_follows | simp only [Follows.same]
    | refine Follows.of_fst (by assumption) ?_ | refine Follows.of_snd (by assumption) ?_ | split | dsimp only

theorem State.openArea_follows {s₀ s : State} (x : Red) (i : Nat) (keep₀ : Follows s₀ s) : Follows s₀ (State.openArea s x i).1 := by
  unfold State.openArea
  with_reducible repeat' first
    | assumption | apply State.incReg_follows | apply State.memWrite_follows | apply State.putHead_follows | apply State.areaRead_follows
    | apply State.sumpClear_follows | simp only [Follows.same] | split | dsimp only

theorem State.closeMember_follows {s₀ s : State} (x : Red) (i : Nat) (m : Nat × Nat) (status : Nat) (counts carried : Bool) (keep₀ : Follows s₀ s) : Follows s₀ (State.closeMember s x i m status counts carried) := by
  unfold State.closeMember
  with_reducible repeat' first
    | assumption | apply State.incReg_follows | apply State.raise_follows | apply State.memWrite_follows | apply State.areaRead_follows
    | simp only [Follows.same] | split | dsimp only

theorem State.closeRecv_follows {s₀ s : State} (x : Red) (r : Recv) (keep₀ : Follows s₀ s) : Follows s₀ (State.closeRecv s x r) := by
  unfold State.closeRecv
  with_reducible repeat' first
    | assumption | apply State.incReg_follows | apply State.putHead_follows | apply State.closeMember_follows | apply Follows.foldl
    | apply Follows.foldl_fst | apply Follows.foldl_snd | intro _ | split | dsimp only

theorem State.ownerWrite_follows {s₀ s : State} (x : Red) (r : Recv) (keep₀ : Follows s₀ s) : Follows s₀ (State.ownerWrite s x r) := by
  unfold State.ownerWrite
  with_reducible repeat' first
    | assumption | apply State.memWrite_follows | apply State.countConv_follows | apply State.putRuns_follows | split | dsimp only

theorem State.relaySend_follows {s₀ s : State} (x : Red) (r : Recv) (keep₀ : Follows s₀ s) : Follows s₀ (State.relaySend s x r) := by
  unfold State.relaySend
  with_reducible repeat' first
    | assumption | apply State.incReg_follows | apply State.memWrite_follows | apply State.areaRead_follows | apply State.sendChunks_follows
    | apply State.setRed_follows | simp only [Follows.same] | apply Follows.foldl | apply Follows.foldl_fst | apply Follows.foldl_snd | intro _
    | split | dsimp only

theorem State.formRecv_follows {s₀ s : State} (i : Nat) (shard : Nat) (keep₀ : Follows s₀ s) : Follows s₀ (State.formRecv s i shard) := by
  unfold State.formRecv
  with_reducible repeat' first
    | assumption | apply State.setRed_follows | apply State.freeBufs_follows | apply State.closeRecv_follows | apply State.ownerWrite_follows
    | apply State.relaySend_follows | simp only [Follows.same] | refine Follows.of_fst (by assumption) ?_
    | refine Follows.of_snd (by assumption) ?_ | split | dsimp only

theorem State.efReturn_follows {s₀ s : State} (x : Red) (t : Sent) (keep₀ : Follows s₀ s) : Follows s₀ (State.efReturn s x t) := by
  unfold State.efReturn
  with_reducible repeat' first
    | assumption | apply State.incReg_follows | apply State.memWrite_follows | apply State.areaRead_follows | apply Follows.foldl
    | apply Follows.foldl_fst | apply Follows.foldl_snd | intro _ | split | dsimp only

theorem State.resolve_follows {s₀ s : State} (x : Red) (t : Sent) (r : Nat) (keep₀ : Follows s₀ s) : Follows s₀ (State.resolve s x t r) := by
  unfold State.resolve
  with_reducible repeat' first
    | assumption | apply State.dropKept_follows | apply State.setRed_follows | apply State.efReturn_follows | apply State.reply_follows
    | simp only [Follows.same] | split | dsimp only

theorem State.reduceEnd_follows {s₀ s : State} (x : Red) (keep₀ : Follows s₀ s) : Follows s₀ (State.reduceEnd s x) := by
  unfold State.reduceEnd
  with_reducible repeat' first
    | assumption | apply State.cEnd_follows | apply State.reply_follows | simp only [Follows.same] | refine Follows.of_fst (by assumption) ?_
    | refine Follows.of_snd (by assumption) ?_ | split | dsimp only

theorem State.colGo_follows {s₀ s : State} (i : Nat) (keep₀ : Follows s₀ s) : Follows s₀ (State.colGo s i) := by
  unfold State.colGo
  with_reducible repeat' first
    | assumption | apply State.setRed_follows | apply State.formRecv_follows | apply State.resolve_follows | apply State.reduceEnd_follows
    | apply State.reply_follows | simp only [Follows.same] | apply Follows.foldl | apply Follows.foldl_fst | apply Follows.foldl_snd | intro _
    | refine Follows.of_fst (by assumption) ?_ | refine Follows.of_snd (by assumption) ?_ | split | dsimp only

theorem State.redStart_follows {s₀ s : State} (i : Nat) (x : Red) (a : Tensor) (pair mask : Bool) (keep₀ : Follows s₀ s) : Follows s₀ (State.redStart s i x a pair mask) := by
  unfold State.redStart
  with_reducible repeat' first
    | assumption | apply State.readNotes_follows | apply State.setSlot_follows | apply State.setStage_follows | apply State.sendChunks_follows
    | apply State.setRed_follows | apply State.freeBufs_follows | apply State.openArea_follows | apply State.colGo_follows
    | simp only [Follows.same] | apply Follows.foldl | apply Follows.foldl_fst | apply Follows.foldl_snd | intro _
    | refine Follows.of_fst (by assumption) ?_ | refine Follows.of_snd (by assumption) ?_ | split | dsimp only

theorem State.fetchReduce_follows {s₀ s : State} (i : Nat) (keep₀ : Follows s₀ s) : Follows s₀ (State.fetchReduce s i).1 := by
  unfold State.fetchReduce
  with_reducible repeat' first
    | assumption | apply State.fetchTabs_follows | apply State.fetchExch_follows | simp only [Follows.same]
    | refine Follows.of_fst (by assumption) ?_ | refine Follows.of_snd (by assumption) ?_ | split | dsimp only

theorem State.redBegin_follows {s₀ s : State} (i : Nat) (keep₀ : Follows s₀ s) : Follows s₀ (State.redBegin s i) := by
  unfold State.redBegin
  with_reducible repeat' first
    | assumption | apply State.cEnd_follows | apply State.redStart_follows | apply State.fetchReduce_follows | simp only [Follows.same]
    | refine Follows.of_fst (by assumption) ?_ | refine Follows.of_snd (by assumption) ?_ | split | dsimp only

theorem State.setShed_follows {s₀ s : State} (x : Red) (keep₀ : Follows s₀ s) : Follows s₀ (State.setShed s x) := by
  unfold State.setShed
  with_reducible repeat' first
    | assumption | apply State.setRed_follows | apply State.freeBufs_follows | split | dsimp only

theorem State.stage_follows {s₀ s : State} (x : Red) (r : Recv) (p : Contrib) (m : Sys2Proof.ColMsg) (relay : Bool) (total : Nat) (absent : List (Nat × Nat)) (c : Option Chunk) (keep₀ : Follows s₀ s) : Follows s₀ (State.stage s x r p m relay total absent c) := by
  unfold State.stage
  with_reducible repeat' first
    | assumption | apply State.incReg_follows | apply State.memWrite_follows | apply State.refuseMsg_follows
    | refine State.alloc_follows _ _ ?_ (by assumption) | apply State.freeBytes_follows | apply State.colReply_follows | apply State.colGo_follows
    | apply State.setShed_follows | simp only [Follows.same] | refine Follows.of_fst (by assumption) ?_ | refine Follows.of_snd (by assumption) ?_
    | split | dsimp only

theorem State.closeClass_follows {s₀ s : State} (i : Nat) (relays : Bool) (keep₀ : Follows s₀ s) : Follows s₀ (State.closeClass s i relays) := by
  unfold State.closeClass
  with_reducible repeat' first
    | assumption | apply State.sendUnit_follows | apply State.setRed_follows | apply State.freeBufs_follows | apply State.colGo_follows
    | apply State.setShed_follows | simp only [Follows.same] | apply Follows.foldl | apply Follows.foldl_fst | apply Follows.foldl_snd | intro _
    | refine Follows.of_fst (by assumption) ?_ | refine Follows.of_snd (by assumption) ?_ | split | dsimp only

end Sys2Proof.Machine
end

