-- ==== Sys2Proof/Laws/KeepEdges.lean ====
section
/-! SUPPORT. Every operation of the host link, the stacks and start-up, the fabric, the doors, unit commands, register writes, the sideband, updates and time keeps what `Follows` says. -/

namespace Sys2Proof.Machine

set_option linter.unusedSimpArgs false

/-! ## Host -/

theorem State.dropHeld_follows {s₀ s : State} (i : Nat) (keep₀ : Follows s₀ s) : Follows s₀ (State.dropHeld s i) := by
  unfold State.dropHeld
  with_reducible repeat' first
    | assumption | simp only [Follows.same] | split | dsimp only

theorem State.stopSlot_follows {s₀ s : State} (i : Nat) (keep₀ : Follows s₀ s) : Follows s₀ (State.stopSlot s i) := by
  unfold State.stopSlot
  with_reducible repeat' first
    | assumption | apply State.endSlot_follows | apply State.cancelLaunch_follows | apply State.xStop_follows | apply State.cEnd_follows
    | simp only [Follows.same] | split | dsimp only

theorem State.cancelSlot_follows {s₀ s : State} (i : Nat) (keep₀ : Follows s₀ s) : Follows s₀ (State.cancelSlot s i) := by
  unfold State.cancelSlot
  with_reducible repeat' first
    | assumption | apply State.dropWaiters_follows | apply State.setSlot_follows | apply State.stage_follows | apply State.dropHeld_follows
    | apply State.stopSlot_follows | simp only [Follows.same] | split | dsimp only

theorem State.cancelRing_follows {s₀ s : State} (n : Nat) (keep₀ : Follows s₀ s) : Follows s₀ (State.cancelRing s n) := by
  unfold State.cancelRing
  with_reducible repeat' first
    | assumption | apply State.setFlag_follows | apply State.fetchMany_follows | apply State.cancelSlot_follows | simp only [Follows.same]
    | apply Follows.foldl | apply Follows.foldl_fst | apply Follows.foldl_snd | intro _ | split | dsimp only

theorem State.cancelAll_follows {s₀ s : State}  (keep₀ : Follows s₀ s) : Follows s₀ (State.cancelAll s) := by
  unfold State.cancelAll
  with_reducible repeat' first
    | assumption | apply State.cancelRing_follows | apply Follows.foldl | apply Follows.foldl_fst | apply Follows.foldl_snd | intro _ | split
    | dsimp only

theorem State.cancelWrite_follows {s₀ s : State} (v : Nat) (keep₀ : Follows s₀ s) : Follows s₀ (State.cancelWrite s v) := by
  unfold State.cancelWrite
  with_reducible repeat' first
    | assumption | apply State.cancelRing_follows | apply State.cancelAll_follows | split | dsimp only

theorem State.ringCfgWrite_follows {s₀ s : State} (n v : Nat) (keep₀ : Follows s₀ s) : Follows s₀ (State.ringCfgWrite s n v) := by
  unfold State.ringCfgWrite
  with_reducible repeat' first
    | assumption | apply State.setReg_follows | apply State.noteProt_follows | split | dsimp only

theorem State.keeperRing_follows {s₀ s : State} (n : Nat) (job : Bool) (keep₀ : Follows s₀ s) : Follows s₀ (State.keeperRing s n job) := by
  unfold State.keeperRing
  with_reducible repeat' first
    | assumption | apply State.setProt_follows | split | dsimp only

theorem State.flushRecords_follows {s₀ s : State}  (keep₀ : Follows s₀ s) : Follows s₀ (State.flushRecords s) := by
  unfold State.flushRecords
  with_reducible repeat' first
    | assumption | apply State.flushFaults_follows | apply State.flushComps_follows | split | dsimp only

theorem State.cqWrite_follows {s₀ s : State} (cfg base rec v : Nat) (keep₀ : Follows s₀ s) : Follows s₀ (State.cqWrite s cfg base rec v) := by
  unfold State.cqWrite
  with_reducible repeat' first
    | assumption | apply State.setReg_follows | apply State.flushRecords_follows | split | dsimp only

theorem State.irqClear_follows {s₀ s : State} (v : Nat) (keep₀ : Follows s₀ s) : Follows s₀ (State.irqClear s v) := by
  unfold State.irqClear
  with_reducible repeat' first
    | assumption | apply State.setReg_follows | split | dsimp only

theorem State.maskWrite_follows {s₀ s : State} (v : Nat) (keep₀ : Follows s₀ s) : Follows s₀ (State.maskWrite s v) := by
  unfold State.maskWrite
  with_reducible repeat' first
    | assumption | apply State.setReg_follows | simp only [Follows.same] | split | dsimp only | exact List.prefix_rfl
    | with_unfolding_all exact List.prefix_append _ _ | exact List.prefix_append _ _ | exact Nat.le_refl _ | exact Nat.le_succ _ | exact id
    | exact Tbl.wf_set _ _ | exact Tbl.wf_clear _ | apply Follows.update

theorem State.jobAssign_follows {s₀ s : State} (v : Nat) (keep₀ : Follows s₀ s) : Follows s₀ (State.jobAssign s v) := by
  unfold State.jobAssign
  with_reducible repeat' first
    | assumption | apply State.setFlag_follows | apply State.setProt_follows | apply State.syncPower_follows | split | dsimp only

theorem State.clearWindows_follows {s₀ s : State} (keeper : Bool) (keep₀ : Follows s₀ s) : Follows s₀ (State.clearWindows s keeper) := by
  unfold State.clearWindows
  with_reducible repeat' first
    | assumption | apply State.setProt_follows | apply Follows.foldl | apply Follows.foldl_fst | apply Follows.foldl_snd | intro _ | split
    | dsimp only

theorem State.clearHists_follows {s₀ s : State}  (keep₀ : Follows s₀ s) : Follows s₀ (State.clearHists s) := by
  unfold State.clearHists
  with_reducible repeat' first
    | assumption | apply State.resetRegs_follows | apply State.setHist_follows | simp only [Follows.same] | apply Follows.foldl
    | apply Follows.foldl_fst | apply Follows.foldl_snd | intro _ | split | dsimp only

theorem State.jobOff_follows {s₀ s : State} (keeper : Bool) (keep₀ : Follows s₀ s) : Follows s₀ (State.jobOff s keeper) := by
  unfold State.jobOff
  with_reducible repeat' first
    | assumption | apply State.setFlag_follows | apply State.setProt_follows | split | dsimp only

theorem State.jobRelease_follows {s₀ s : State}  (keep₀ : Follows s₀ s) : Follows s₀ (State.jobRelease s) := by
  unfold State.jobRelease
  with_reducible repeat' first
    | assumption | apply State.jobOff_follows | split | dsimp only

theorem State.seedWrite_follows {s₀ s : State} (h v : Nat) (keep₀ : Follows s₀ s) : Follows s₀ (State.seedWrite s h v) := by
  unfold State.seedWrite
  with_reducible repeat' first
    | assumption | apply State.setHist_follows | simp only [Follows.same] | split | dsimp only

theorem State.dipCtlWrite_follows {s₀ s : State} (keeper : Bool) (v : Nat) (keep₀ : Follows s₀ s) : Follows s₀ (State.dipCtlWrite s keeper v) := by
  unfold State.dipCtlWrite
  with_reducible repeat' first
    | assumption | apply State.setReg_follows | apply State.noteProt_follows | split | dsimp only

theorem State.alertClear_follows {s₀ s : State} (v : Nat) (keep₀ : Follows s₀ s) : Follows s₀ (State.alertClear s v) := by
  unfold State.alertClear
  with_reducible repeat' first
    | assumption | apply State.setReg_follows | split | dsimp only

/-! ## Stacks -/

theorem State.declareFailed_follows {s₀ s : State} (st c : Nat) (keep₀ : Follows s₀ s) : Follows s₀ (State.declareFailed s st c) := by
  unfold State.declareFailed
  with_reducible repeat' first
    | assumption | apply State.setFlag_follows | apply State.internal_follows | apply State.chanPend_follows | simp only [Follows.same] | split
    | dsimp only

theorem State.spent_follows {s₀ s : State} (o : Nat) (keep₀ : Follows s₀ s) : Follows s₀ (State.spent s o) := by
  unfold State.spent
  with_reducible repeat' first
    | assumption | apply State.raise_follows | split | dsimp only

theorem State.mapoutReq_follows {s₀ s : State} (v : Nat) (keep₀ : Follows s₀ s) : Follows s₀ (State.mapoutReq s v) := by
  unfold State.mapoutReq
  with_reducible repeat' first
    | assumption | apply State.chanPend_follows | apply State.spent_follows | split | dsimp only

theorem State.memCtlWrite_follows {s₀ s : State} (keeper : Bool) (v : Nat) (keep₀ : Follows s₀ s) : Follows s₀ (State.memCtlWrite s keeper v) := by
  unfold State.memCtlWrite
  with_reducible repeat' first
    | assumption | apply State.setFlag_follows | apply State.setProt_follows | split | dsimp only

theorem State.larderCfgWrite_follows {s₀ s : State} (keeper : Bool) (v : Nat) (keep₀ : Follows s₀ s) : Follows s₀ (State.larderCfgWrite s keeper v) := by
  unfold State.larderCfgWrite
  with_reducible repeat' first
    | assumption | apply State.voidOut_follows | apply State.evict_follows | apply State.setProt_follows | apply Follows.foldl
    | apply Follows.foldl_fst | apply Follows.foldl_snd | intro _ | split | dsimp only

/-! ## Boot -/

theorem State.afresh_follows {s₀ s : State} (keep : Follows s₀ s) : Follows s₀ s.afresh :=
  keep.trans ⟨rfl, List.prefix_rfl, rfl, List.prefix_rfl, Nat.le_refl _, fun _ => rfl, id, fun _ => Nat.zero_le _, fun _ => Nat.zero_le _⟩

theorem State.showMarks_follows {s₀ s : State} (keep₀ : Follows s₀ s) : Follows s₀ (State.showMarks s) := by
  unfold State.showMarks
  with_reducible repeat' first
    | assumption | apply State.setFlag_follows | apply Follows.foldl | intro _ | dsimp only

theorem State.afterReset_follows {s₀ s : State}  (keep₀ : Follows s₀ s) : Follows s₀ (State.afterReset s) := by
  unfold State.afterReset
  with_reducible repeat' first
    | assumption | apply State.setFlag_follows | apply State.setPower_follows | apply State.showMarks_follows | apply State.afresh_follows
    | simp only [Follows.same]
    | apply Follows.foldl | apply Follows.foldl_fst | apply Follows.foldl_snd | intro _ | split | dsimp only

theorem State.resetTo_follows {s₀ s : State} (k : Nat) (keep₀ : Follows s₀ s) : Follows s₀ (State.resetTo s k) := by
  unfold State.resetTo
  with_reducible repeat' first
    | assumption | apply State.loadFuses_follows | apply State.loadStacks_follows | apply State.afterReset_follows | simp only [Follows.same]
    | split | dsimp only

theorem State.fwGo_follows {s₀ s : State} (v : Nat) (keep₀ : Follows s₀ s) : Follows s₀ (State.fwGo s v) := by
  unfold State.fwGo
  with_reducible repeat' first
    | assumption | apply State.setReg_follows | split | dsimp only

theorem State.revoke_follows {s₀ s : State} (k : Nat) (keep₀ : Follows s₀ s) : Follows s₀ (State.revoke s k) := by
  unfold State.revoke
  with_reducible repeat' first
    | assumption | apply State.setFlag_follows | apply State.blow_follows | apply State.noteSecurity_follows | split | dsimp only

theorem State.startImage_follows {s₀ s : State} (bs : List Byte) (keep₀ : Follows s₀ s) : Follows s₀ (State.startImage s bs) := by
  unfold State.startImage
  with_reducible repeat' first
    | assumption | apply State.setReg_follows | apply State.setField_follows | apply State.setFlag_follows | apply State.extend_follows
    | apply State.noteSecurity_follows | apply State.revoke_follows | apply Follows.foldl | apply Follows.foldl_fst | apply Follows.foldl_snd
    | intro _ | split | dsimp only

theorem State.retireStack_follows {s₀ s : State} (st : Nat) (keep₀ : Follows s₀ s) : Follows s₀ (State.retireStack s st) := by
  unfold State.retireStack
  with_reducible repeat' first
    | assumption | apply State.setFlag_follows | apply State.blow_follows | simp only [Follows.same] | split | dsimp only

theorem State.stackFuses_follows {s₀ s : State} (st : Nat) (keep₀ : Follows s₀ s) : Follows s₀ (State.stackFuses s st) := by
  unfold State.stackFuses
  with_reducible repeat' first
    | assumption | apply State.setReg_follows | apply State.setField_follows | apply State.blow_follows | apply State.retireStack_follows
    | simp only [Follows.same] | apply Follows.foldl | apply Follows.foldl_fst | apply Follows.foldl_snd | intro _ | split | dsimp only

theorem State.stackOut_follows {s₀ s : State} (st : Nat) (keep₀ : Follows s₀ s) : Follows s₀ (State.stackOut s st) := by
  unfold State.stackOut
  with_reducible repeat' first
    | assumption | apply State.setReg_follows | apply State.setFlag_follows | split | dsimp only

theorem State.sumStacks_follows {s₀ s : State}  (keep₀ : Follows s₀ s) : Follows s₀ (State.sumStacks s) := by
  unfold State.sumStacks
  with_reducible repeat' first
    | assumption | apply State.setReg_follows | split | dsimp only

theorem State.loadStack_follows {s₀ s : State} (failed : List (Fin 16)) (st : Nat) (keep₀ : Follows s₀ s) : Follows s₀ (State.loadStack s failed st) := by
  unfold State.loadStack
  with_reducible repeat' first
    | assumption | apply State.setReg_follows | apply State.setFlag_follows | apply State.stackOut_follows | split | dsimp only

theorem State.trainPorts_follows {s₀ s : State} (ports : List Sys2Proof.PortUp) (keep₀ : Follows s₀ s) : Follows s₀ (State.trainPorts s ports) := by
  unfold State.trainPorts
  with_reducible repeat' first
    | assumption | apply State.syncPort_follows | apply State.portTrain_follows | apply State.fillRooms_follows | apply Follows.foldl
    | apply Follows.foldl_fst | apply Follows.foldl_snd | intro _ | split | dsimp only

theorem State.retireNoFuse_follows {s₀ s : State} (k : Nat) (keep₀ : Follows s₀ s) : Follows s₀ (State.retireNoFuse s k) := by
  unfold State.retireNoFuse
  with_reducible repeat' first
    | assumption | apply State.setFlag_follows | apply State.setCore_follows | apply State.internal_follows | simp only [Follows.same] | split
    | dsimp only

theorem State.loadCores_follows {s₀ s : State}  (keep₀ : Follows s₀ s) : Follows s₀ (State.loadCores s) := by
  unfold State.loadCores
  with_reducible repeat' first
    | assumption | apply State.setFlag_follows | apply State.setCore_follows | apply State.loadRepair_follows | simp only [Follows.same]
    | apply Follows.foldl | apply Follows.foldl_fst | apply Follows.foldl_snd | intro _ | split | dsimp only

theorem State.startTests_follows {s₀ s : State}  (keep₀ : Follows s₀ s) : Follows s₀ (State.startTests s) := by
  unfold State.startTests
  with_reducible repeat' first
    | assumption | apply State.setField_follows | apply Follows.foldl | apply Follows.foldl_fst | apply Follows.foldl_snd | intro _ | split
    | dsimp only

theorem State.loadMap_follows {s₀ s : State}  (keep₀ : Follows s₀ s) : Follows s₀ (State.loadMap s) := by
  unfold State.loadMap
  with_reducible repeat' first
    | assumption | apply State.setReg_follows | apply State.setField_follows | simp only [Follows.same] | apply Follows.foldl
    | apply Follows.foldl_fst | apply Follows.foldl_snd | intro _ | split | dsimp only

theorem State.setProtections_follows {s₀ s : State}  (keep₀ : Follows s₀ s) : Follows s₀ (State.setProtections s) := by
  unfold State.setProtections
  with_reducible repeat' first
    | assumption | apply State.setReg_follows | apply State.noteProt_follows | apply State.setProt_follows | apply State.clearWindows_follows
    | apply State.dipCtlWrite_follows | apply Follows.foldl | apply Follows.foldl_fst | apply Follows.foldl_snd | intro _ | split | dsimp only

theorem State.stackDown_follows {s₀ s : State} (st : Nat) (keep₀ : Follows s₀ s) : Follows s₀ (State.stackDown s st) := by
  unfold State.stackDown
  with_reducible repeat' first
    | assumption | apply State.markStack_follows | apply State.loseMem_follows | apply State.stackOut_follows | split | dsimp only

theorem State.raiseCounter_follows {s₀ s : State}  (keep₀ : Follows s₀ s) : Follows s₀ (State.raiseCounter s) := by
  unfold State.raiseCounter
  with_reducible repeat' first
    | assumption | apply State.setField_follows | apply State.blow_follows | apply State.noteSecurity_follows | split | dsimp only

theorem State.rollbackReq_follows {s₀ s : State} (v : Nat) (keep₀ : Follows s₀ s) : Follows s₀ (State.rollbackReq s v) := by
  unfold State.rollbackReq
  with_reducible repeat' first
    | assumption | apply State.spent_follows | apply State.raiseCounter_follows | apply Follows.foldl | apply Follows.foldl_fst
    | apply Follows.foldl_snd | intro _ | split | dsimp only

theorem State.attestGo_follows {s₀ s : State} (v : Nat) (keep₀ : Follows s₀ s) : Follows s₀ (State.attestGo s v) := by
  unfold State.attestGo
  with_reducible repeat' first
    | assumption | apply State.setReg_follows | simp only [Follows.same] | split | dsimp only

theorem State.secExtendWrite_follows {s₀ s : State} (v : Nat) (keep₀ : Follows s₀ s) : Follows s₀ (State.secExtendWrite s v) := by
  unfold State.secExtendWrite
  with_reducible repeat' first
    | assumption | apply State.extend_follows | split | dsimp only

/-! ## Fabric -/

theorem State.respond_follows {s₀ s : State} (c : Cell) (ty aux : Nat) (payload : List Byte) (keep₀ : Follows s₀ s) : Follows s₀ (State.respond s c ty aux payload) := by
  unfold State.respond
  with_reducible repeat' first
    | assumption | apply State.sendCell_follows | split | dsimp only

theorem State.queueCell_follows {s₀ s : State} (c : Cell) (ty aux : Nat) (payload : List Byte) (keep₀ : Follows s₀ s) : Follows s₀ (State.queueCell s c ty aux payload) := by
  unfold State.queueCell
  with_reducible repeat' first
    | assumption | simp only [Follows.same] | split | dsimp only

theorem State.noteApplied_follows {s₀ s : State} (c : Cell) (old : Nat) (keep₀ : Follows s₀ s) : Follows s₀ (State.noteApplied s c old) := by
  unfold State.noteApplied
  with_reducible repeat' first
    | assumption | simp only [Follows.same] | split | dsimp only

theorem State.noteRefused_follows {s₀ s : State} (p : Nat) (c : Cell) (keep₀ : Follows s₀ s) : Follows s₀ (State.noteRefused s p c) := by
  unfold State.noteRefused
  with_reducible repeat' first
    | assumption | apply State.incReg_follows | apply State.raise_follows | split | dsimp only

theorem State.applyMem_follows {s₀ s : State} (c : Cell) (keep₀ : Follows s₀ s) : Follows s₀ (State.applyMem s c).1 := by
  unfold State.applyMem
  with_reducible repeat' first
    | assumption | apply State.readNotes_follows | apply State.memWrite_follows | apply State.amoApply_follows | apply State.eatomic_follows
    | apply State.noteApplied_follows | simp only [Follows.same] | refine Follows.of_fst (by assumption) ?_
    | refine Follows.of_snd (by assumption) ?_ | split | dsimp only

theorem State.serveReq_follows {s₀ s : State} (p : Nat) (c : Cell) (keep₀ : Follows s₀ s) : Follows s₀ (State.serveReq s p c) := by
  unfold State.serveReq
  with_reducible repeat' first
    | assumption | apply State.incReg_follows | apply State.respond_follows | apply State.noteApplied_follows | apply State.noteRefused_follows
    | apply State.applyMem_follows | simp only [Follows.same] | refine Follows.of_fst (by assumption) ?_
    | refine Follows.of_snd (by assumption) ?_ | split | dsimp only

theorem State.takeCell_follows {s₀ s : State} (p ty : Nat) (c : Cell) (f : State → State) (hf : ∀ t, Follows s₀ t → Follows s₀ (f t))
    (keep : Follows s₀ s) : Follows s₀ (s.takeCell p ty c f) := by
  unfold State.takeCell
  with_reducible repeat' first
    | assumption | apply hf | apply State.incReg_follows | split | dsimp only

theorem State.doorTake_follows {s₀ s : State} (c : Cell) (keep₀ : Follows s₀ s) : Follows s₀ (State.doorTake s c) := by
  unfold State.doorTake
  with_reducible repeat' first
    | assumption | apply State.incReg_follows | apply State.packDoor_follows | apply State.queueCell_follows | split | dsimp only

theorem State.throughDoor_follows {s₀ s : State} (p ty : Nat) (c : Cell) (keep₀ : Follows s₀ s) : Follows s₀ (State.throughDoor s p ty c) := by
  unfold State.throughDoor
  with_reducible repeat' first
    | assumption | apply State.incReg_follows | apply State.portsChanged_follows | apply State.doorTake_follows | split | dsimp only

theorem State.request1_follows {s₀ s : State} (ty : Nat) (a : Arrival) (keep₀ : Follows s₀ s) : Follows s₀ (State.request1 s ty a) := by
  unfold State.request1
  with_reducible repeat' first
    | assumption | apply State.serveReq_follows | apply State.takeCell_follows | apply State.throughDoor_follows | intro _ | split | dsimp only

theorem State.amoTogether_follows {s₀ s : State} (l : List Arrival) (keep₀ : Follows s₀ s) : Follows s₀ (State.amoTogether s l) := by
  unfold State.amoTogether
  with_reducible repeat' first
    | assumption | apply State.incReg_follows | apply State.amoApply_follows | apply State.respond_follows | apply State.noteApplied_follows
    | simp only [Follows.same] | apply Follows.foldl | apply Follows.foldl_fst | apply Follows.foldl_snd | intro _
    | refine Follows.of_fst (by assumption) ?_ | refine Follows.of_snd (by assumption) ?_ | split | dsimp only

theorem State.eaTogether_follows {s₀ s : State} (l : List Arrival) (keep₀ : Follows s₀ s) : Follows s₀ (State.eaTogether s l) := by
  unfold State.eaTogether
  with_reducible repeat' first
    | assumption | apply State.incReg_follows | apply State.eatomic_follows | apply State.respond_follows | apply State.noteApplied_follows
    | simp only [Follows.same] | apply Follows.foldl | apply Follows.foldl_fst | apply Follows.foldl_snd | intro _
    | refine Follows.of_fst (by assumption) ?_ | refine Follows.of_snd (by assumption) ?_ | split | dsimp only

theorem State.complete_follows {s₀ s : State} (i : Nat) (c : Cell) (keep₀ : Follows s₀ s) : Follows s₀ (State.complete s i c) := by
  unfold State.complete
  with_reducible repeat' first
    | assumption | apply State.endReq_follows | apply State.respond_follows | simp only [Follows.same] | apply Follows.foldl
    | apply Follows.foldl_fst | apply Follows.foldl_snd | intro _ | split | dsimp only

theorem State.response_follows {s₀ s : State} (p ty : Nat) (c : Cell) (keep₀ : Follows s₀ s) : Follows s₀ (State.response s p ty c) := by
  unfold State.response
  with_reducible repeat' first
    | assumption | apply State.incReg_follows | apply State.takeCell_follows | apply State.complete_follows | simp only [Follows.same] | intro _
    | split | dsimp only

theorem State.spillFrom_follows {s₀ s : State} (idle used : List Nat) (p : Nat) (c : Cell) (keep₀ : Follows s₀ s) : Follows s₀ (State.spillFrom s idle used p c).1 := by
  unfold State.spillFrom
  with_reducible repeat' first
    | assumption | apply State.incReg_follows | apply State.emit_follows | apply State.spill_follows | simp only [Follows.same] | split
    | dsimp only

theorem State.combTransit_follows {s₀ s : State} (p : Nat) (c : Cell) (keep₀ : Follows s₀ s) : Follows s₀ (State.combTransit s p c).1 := by
  unfold State.combTransit
  with_reducible repeat' first
    | assumption | apply State.absorb_follows | apply State.openComb_follows | simp only [Follows.same] | refine Follows.of_fst (by assumption) ?_
    | refine Follows.of_snd (by assumption) ?_ | split | dsimp only

theorem State.transit_follows {s₀ s : State} (idle used : List Nat) (a : Arrival) (keep₀ : Follows s₀ s) : Follows s₀ (State.transit s idle used a).1 := by
  unfold State.transit
  with_reducible repeat' first
    | assumption | apply State.incReg_follows | apply State.emit_follows | apply State.doorTake_follows | apply State.spillFrom_follows
    | apply State.combTransit_follows | simp only [Follows.same] | refine Follows.of_fst (by assumption) ?_
    | refine Follows.of_snd (by assumption) ?_ | split | dsimp only

theorem State.slowSend_follows {s₀ s : State} (idle : List Nat) (keep₀ : Follows s₀ s) : Follows s₀ (State.slowSend s idle).1 := by
  unfold State.slowSend
  with_reducible repeat' first
    | assumption | apply State.emitAll_follows | simp only [Follows.same] | apply Follows.foldl | apply Follows.foldl_fst
    | apply Follows.foldl_snd | intro _ | split | dsimp only

theorem State.endAll_follows {s₀ s : State} (n room : Nat) (keep : Follows s₀ s) : Follows s₀ (State.endAll n s room) := by
  induction n generalizing s with
  | zero => exact keep
  | succ n ih =>
    unfold State.endAll
    with_reducible repeat' first
      | assumption | apply ih | apply State.incReg_follows | apply State.endReq_follows | simp only [Follows.same] | split | dsimp only

theorem State.doorsGo_follows {s₀ s : State}  (keep₀ : Follows s₀ s) : Follows s₀ (State.doorsGo s) := by
  unfold State.doorsGo
  with_reducible repeat' first
    | assumption | apply State.trySend_follows | apply Follows.foldl | apply Follows.foldl_fst | apply Follows.foldl_snd | intro _ | split
    | dsimp only

/-! ## Doors -/

theorem State.ackMsg_follows {s₀ s : State} (m : BulkMsg) (back : List Cell) (keep₀ : Follows s₀ s) : Follows s₀ (State.ackMsg s m back) := by
  unfold State.ackMsg
  with_reducible repeat' first
    | assumption | apply State.updMsg_follows | apply State.closeMsg_follows | apply State.newMsg_follows | simp only [Follows.same]
    | refine Follows.of_fst (by assumption) ?_ | refine Follows.of_snd (by assumption) ?_ | split | dsimp only

theorem State.applyCells_follows {s₀ s : State} (m : BulkMsg) (keep₀ : Follows s₀ s) : Follows s₀ (State.applyCells s m).1 := by
  unfold State.applyCells
  with_reducible repeat' first
    | assumption | apply State.incReg_follows | apply State.noteRefused_follows | apply State.applyMem_follows | apply Follows.foldl
    | apply Follows.foldl_fst | apply Follows.foldl_snd | intro _ | refine Follows.of_fst (by assumption) ?_
    | refine Follows.of_snd (by assumption) ?_ | split | dsimp only

theorem State.sendData_follows {s₀ s : State} (m : BulkMsg) (c : Cell) (aux first : Nat) (bs : List Byte) (keep₀ : Follows s₀ s) : Follows s₀ (State.sendData s m c aux first bs) := by
  unfold State.sendData
  with_reducible repeat' first
    | assumption | apply State.updMsg_follows | apply State.closeMsg_follows | apply State.newMsg_follows | simp only [Follows.same]
    | refine Follows.of_fst (by assumption) ?_ | refine Follows.of_snd (by assumption) ?_ | split | dsimp only

theorem State.serveGet_follows {s₀ s : State} (m : BulkMsg) (keep₀ : Follows s₀ s) : Follows s₀ (State.serveGet s m).1 := by
  unfold State.serveGet
  with_reducible repeat' first
    | assumption | apply State.incReg_follows | apply State.raise_follows | apply State.noteElems_follows | apply State.sendData_follows
    | simp only [Follows.same] | apply Follows.foldl | apply Follows.foldl_fst | apply Follows.foldl_snd | intro _ | split | dsimp only

theorem State.getWrite_follows {s₀ s : State} (g : Get) (keep₀ : Follows s₀ s) : Follows s₀ (State.getWrite s g) := by
  unfold State.getWrite
  with_reducible repeat' first
    | assumption | apply State.countConv_follows | apply State.putRuns_follows | refine Follows.of_fst (by assumption) ?_
    | refine Follows.of_snd (by assumption) ?_ | split | dsimp only

theorem State.getOver_follows {s₀ s : State} (g : Get) (dead : Bool) (keep₀ : Follows s₀ s) : Follows s₀ (State.getOver s g dead) := by
  unfold State.getOver
  with_reducible repeat' first
    | assumption | apply State.setSlot_follows | apply State.endSlot_follows | apply State.mvWrite_follows | apply State.stage_follows
    | apply State.getWrite_follows | simp only [Follows.same] | split | dsimp only

theorem State.getDone_follows {s₀ s : State} (g : Get) (keep₀ : Follows s₀ s) : Follows s₀ (State.getDone s g) := by
  unfold State.getDone
  with_reducible repeat' first
    | assumption | apply State.setSlot_follows | apply State.stage_follows | apply State.getOver_follows | simp only [Follows.same] | split
    | dsimp only

theorem State.takeData_follows {s₀ s : State} (m : BulkMsg) (keep₀ : Follows s₀ s) : Follows s₀ (State.takeData s m) := by
  unfold State.takeData
  with_reducible repeat' first
    | assumption | apply State.dropMsg_follows | apply State.updMsg_follows | apply State.getDone_follows | simp only [Follows.same] | split
    | dsimp only

theorem State.applyMsg_follows {s₀ s : State} (m : BulkMsg) (keep₀ : Follows s₀ s) : Follows s₀ (State.applyMsg s m) := by
  unfold State.applyMsg
  with_reducible repeat' first
    | assumption | apply State.incReg_follows | apply State.ackMsg_follows | apply State.applyCells_follows | apply State.serveGet_follows
    | apply State.takeData_follows | simp only [Follows.same] | refine Follows.of_fst (by assumption) ?_
    | refine Follows.of_snd (by assumption) ?_ | split | dsimp only

theorem State.setSide_follows {s₀ s : State} (key : Nat) (d : DoorIn) (keep₀ : Follows s₀ s) : Follows s₀ (State.setSide s key d) := by
  unfold State.setSide
  with_reducible repeat' first
    | assumption | simp only [Follows.same] | split | dsimp only

theorem State.drainHeld_follows {s₀ s : State} (n key : Nat) (keep : Follows s₀ s) : Follows s₀ (State.drainHeld n s key) := by
  induction n generalizing s with
  | zero => exact keep
  | succ n ih =>
    unfold State.drainHeld
    with_reducible repeat' first
      | assumption | apply ih | apply State.applyMsg_follows | apply State.setSide_follows | simp only [Follows.same] | split | dsimp only

theorem State.passOn_follows {s₀ s : State} (m : BulkMsg) (keep₀ : Follows s₀ s) : Follows s₀ (State.passOn s m) := by
  unfold State.passOn
  with_reducible repeat' first
    | assumption | apply State.trySend_follows | apply State.sendCell_follows | simp only [Follows.same] | apply Follows.foldl
    | apply Follows.foldl_fst | apply Follows.foldl_snd | intro _ | split | dsimp only

theorem State.freeDoor_follows {s₀ s : State} (m : BulkMsg) (keep₀ : Follows s₀ s) : Follows s₀ (State.freeDoor s m) := by
  unfold State.freeDoor
  with_reducible repeat' first
    | assumption | simp only [Follows.same] | split | dsimp only | exact List.prefix_rfl | with_unfolding_all exact List.prefix_append _ _
    | exact List.prefix_append _ _ | exact Nat.le_refl _ | exact Nat.le_succ _ | exact id | exact Tbl.wf_set _ _ | exact Tbl.wf_clear _
    | apply Follows.update

theorem State.bulk_follows {s₀ s : State} (kind : Nat) (m : BulkMsg) (keep₀ : Follows s₀ s) : Follows s₀ (State.bulk s kind m) := by
  unfold State.bulk
  with_reducible repeat' first
    | assumption | apply State.incReg_follows | apply State.ackMsg_follows | apply State.applyMsg_follows | apply State.setSide_follows
    | apply State.drainHeld_follows | apply State.passOn_follows | apply State.freeDoor_follows | simp only [Follows.same] | apply Follows.ite
    | split | dsimp only

theorem State.serveAsk_follows {s₀ s : State} (q : ShardAsk) (keep₀ : Follows s₀ s) : Follows s₀ (State.serveAsk s q) := by
  unfold State.serveAsk
  with_reducible repeat' first
    | assumption | apply State.incReg_follows | apply State.raise_follows | apply State.readNotes_follows | apply State.request_follows
    | apply State.sendUnit_follows | simp only [Follows.same] | apply Follows.foldl | apply Follows.foldl_fst | apply Follows.foldl_snd | intro _
    | split | dsimp only | exact List.prefix_rfl | with_unfolding_all exact List.prefix_append _ _ | exact List.prefix_append _ _
    | exact Nat.le_refl _ | exact Nat.le_succ _ | exact id | exact Tbl.wf_set _ _ | exact Tbl.wf_clear _ | apply Follows.update

theorem State.takeShard_follows {s₀ s : State} (q : ShardData) (keep₀ : Follows s₀ s) : Follows s₀ (State.takeShard s q) := by
  unfold State.takeShard
  with_reducible repeat' first
    | assumption | apply State.stage_follows | simp only [Follows.same] | split | dsimp only

theorem State.endContained_follows {s₀ s : State} (c : Cell) (back : Option Cell) (dead : Bool) (keep₀ : Follows s₀ s) : Follows s₀ (State.endContained s c back dead) := by
  unfold State.endContained
  with_reducible repeat' first
    | assumption | apply State.incReg_follows | apply State.endReq_follows | apply State.respond_follows | simp only [Follows.same] | split
    | dsimp only

theorem State.getStart_follows {s₀ s : State} (i : Nat) (a b : Tensor) (keep₀ : Follows s₀ s) : Follows s₀ (State.getStart s i a b) := by
  unfold State.getStart
  with_reducible repeat' first
    | assumption | apply State.incReg_follows | apply State.updMsg_follows | apply State.closeMsg_follows | apply State.newMsg_follows
    | apply State.deadRecord_follows | apply State.setStage_follows | apply State.endSlot_follows | apply State.getOver_follows
    | simp only [Follows.same] | refine Follows.of_fst (by assumption) ?_ | refine Follows.of_snd (by assumption) ?_ | split | dsimp only

/-! ## Units -/

theorem State.cancelUnit_follows {s₀ s : State} (u : Nat) (keep₀ : Follows s₀ s) : Follows s₀ (State.cancelUnit s u) := by
  unfold State.cancelUnit
  with_reducible repeat' first
    | assumption | apply State.cancelSlot_follows | apply State.cancelRing_follows | apply Follows.foldl | apply Follows.foldl_fst
    | apply Follows.foldl_snd | intro _ | split | dsimp only

theorem State.disableUnit_follows {s₀ s : State} (u : Nat) (failed : Bool) (keep₀ : Follows s₀ s) : Follows s₀ (State.disableUnit s u failed) := by
  unfold State.disableUnit
  with_reducible repeat' first
    | assumption | apply State.setField_follows | apply State.setFlag_follows | apply State.noteProt_follows | apply State.cancelUnit_follows
    | split | dsimp only

theorem State.enableUnit_follows {s₀ s : State} (u : Nat) (keep₀ : Follows s₀ s) : Follows s₀ (State.enableUnit s u) := by
  unfold State.enableUnit
  with_reducible repeat' first
    | assumption | apply State.setField_follows | apply State.noteProt_follows | split | dsimp only

theorem State.keeperEnable_follows {s₀ s : State} (u : Nat) (keep₀ : Follows s₀ s) : Follows s₀ (State.keeperEnable s u) := by
  unfold State.keeperEnable
  with_reducible repeat' first
    | assumption | apply State.setField_follows | apply State.noteProt_follows | split | dsimp only

theorem State.unitCmdWrite_follows {s₀ s : State} (v : Nat) (keep₀ : Follows s₀ s) : Follows s₀ (State.unitCmdWrite s v) := by
  unfold State.unitCmdWrite
  with_reducible repeat' first
    | assumption | apply State.disableUnit_follows | apply State.enableUnit_follows | split | dsimp only

/-! ## RegFile -/

theorem State.rw_follows {s₀ s : State} (o mask v : Nat) (keep₀ : Follows s₀ s) : Follows s₀ (State.rw s o mask v) := by
  unfold State.rw
  with_reducible repeat' first
    | assumption | apply State.setReg_follows | split | dsimp only

theorem State.ranged_follows {s₀ s : State} (o hi lo a b v : Nat) (keep₀ : Follows s₀ s) : Follows s₀ (State.ranged s o hi lo a b v) := by
  unfold State.ranged
  with_reducible repeat' first
    | assumption | apply State.setField_follows | split | dsimp only

theorem State.rwProt_follows {s₀ s : State} (o mask v : Nat) (keep₀ : Follows s₀ s) : Follows s₀ (State.rwProt s o mask v) := by
  unfold State.rwProt
  with_reducible repeat' first
    | assumption | apply State.setProt_follows | split | dsimp only

theorem State.hostWrite_follows {s₀ s : State} (o w z : Nat) (low : Bool) (keep₀ : Follows s₀ s) : Follows s₀ (State.hostWrite s o w z low) := by
  unfold State.hostWrite
  with_reducible repeat' first
    | assumption | apply State.cancelWrite_follows | apply State.ringCfgWrite_follows | apply State.flushRecords_follows
    | apply State.cqWrite_follows | apply State.irqClear_follows | apply State.maskWrite_follows | apply State.jobAssign_follows
    | apply State.jobRelease_follows | apply State.rw_follows | apply State.ranged_follows | apply State.rwProt_follows | apply Follows.ite
    | split | dsimp only

theorem State.capWrite_follows {s₀ s : State} (v : Nat) (keep₀ : Follows s₀ s) : Follows s₀ (State.capWrite s v) := by
  unfold State.capWrite
  with_reducible repeat' first
    | assumption | apply State.ranged_follows | split | dsimp only

theorem State.powerCtlWrite_follows {s₀ s : State} (v : Nat) (keep₀ : Follows s₀ s) : Follows s₀ (State.powerCtlWrite s v) := by
  unfold State.powerCtlWrite
  with_reducible repeat' first
    | assumption | apply State.setField_follows | apply State.ranged_follows | split | dsimp only

theorem State.powerBlockWrite_follows {s₀ s : State} (o w : Nat) (low : Bool) (keep₀ : Follows s₀ s) : Follows s₀ (State.powerBlockWrite s o w low) := by
  unfold State.powerBlockWrite
  with_reducible repeat' first
    | assumption | apply State.setReg_follows | apply State.powerWrite_follows | apply State.clkWrite_follows | apply State.rw_follows
    | apply State.capWrite_follows | apply State.powerCtlWrite_follows | apply Follows.ite | split | dsimp only

theorem State.thermWrite_follows {s₀ s : State} (v : Nat) (keep₀ : Follows s₀ s) : Follows s₀ (State.thermWrite s v) := by
  unfold State.thermWrite
  with_reducible repeat' first
    | assumption | apply State.rw_follows | split | dsimp only

theorem State.faultWrite_follows {s₀ s : State} (o w z : Nat) (low : Bool) (keep₀ : Follows s₀ s) : Follows s₀ (State.faultWrite s o w z low) := by
  unfold State.faultWrite
  with_reducible repeat' first
    | assumption | apply State.setReg_follows | apply State.dipCtlWrite_follows | apply State.alertClear_follows
    | apply State.unitCmdWrite_follows | apply State.rw_follows | apply State.thermWrite_follows | apply Follows.ite | split | dsimp only

theorem State.routeWrite_follows {s₀ s : State} (b : Bool) (o mask w : Nat) (keep₀ : Follows s₀ s) : Follows s₀ (State.routeWrite s b o mask w) := by
  unfold State.routeWrite
  with_reducible repeat' first
    | assumption | apply State.portsChanged_follows | apply State.rw_follows | split | dsimp only

theorem State.fabWrite_follows {s₀ s : State} (o w z : Nat) (keep₀ : Follows s₀ s) : Follows s₀ (State.fabWrite s o w z) := by
  unfold State.fabWrite
  with_reducible repeat' first
    | assumption | apply State.portMask_follows | apply State.swapWrite_follows | apply State.deadClear_follows | apply State.coordWrite_follows
    | apply State.rw_follows | apply State.ranged_follows | apply State.rwProt_follows | apply State.routeWrite_follows | apply Follows.ite
    | split | dsimp only

theorem State.memBlockWrite_follows {s₀ s : State} (o w : Nat) (low : Bool) (keep₀ : Follows s₀ s) : Follows s₀ (State.memBlockWrite s o w low) := by
  unfold State.memBlockWrite
  with_reducible repeat' first
    | assumption | apply State.seedWrite_follows | apply State.mapoutReq_follows | apply State.memCtlWrite_follows
    | apply State.larderCfgWrite_follows | apply State.rw_follows | apply Follows.ite | split | dsimp only

theorem State.panWrite_follows {s₀ s : State} (o w : Nat) (keep₀ : Follows s₀ s) : Follows s₀ (State.panWrite s o w) := by
  unfold State.panWrite
  with_reducible repeat' first
    | assumption | apply State.poolEnable_follows | apply State.poolDisable_follows | apply State.rw_follows | split | dsimp only

theorem State.sluWrite_follows {s₀ s : State} (o w : Nat) (keep₀ : Follows s₀ s) : Follows s₀ (State.sluWrite s o w) := by
  unfold State.sluWrite
  with_reducible repeat' first
    | assumption | apply State.rw_follows | apply State.ranged_follows | split | dsimp only

theorem State.coreWrite_follows {s₀ s : State} (k o w : Nat) (keep₀ : Follows s₀ s) : Follows s₀ (State.coreWrite s k o w) := by
  unfold State.coreWrite
  with_reducible repeat' first
    | assumption | apply State.testNow_follows | apply State.coreCtlWrite_follows | split | dsimp only

theorem State.secWrite_follows {s₀ s : State} (o w : Nat) (low : Bool) (keep₀ : Follows s₀ s) : Follows s₀ (State.secWrite s o w low) := by
  unfold State.secWrite
  with_reducible repeat' first
    | assumption | apply State.resetTo_follows | apply State.fwGo_follows | apply State.rollbackReq_follows | apply State.attestGo_follows
    | apply State.secExtendWrite_follows | apply State.rw_follows | apply Follows.ite | split | dsimp only

theorem State.regWrite_follows {s₀ s : State} (o w z : Nat) (low : Bool) (keep₀ : Follows s₀ s) : Follows s₀ (State.regWrite s o w z low) := by
  unfold State.regWrite
  with_reducible repeat' first
    | assumption | apply State.advance_follows | apply State.hostWrite_follows | apply State.powerBlockWrite_follows
    | apply State.faultWrite_follows | apply State.fabWrite_follows | apply State.memBlockWrite_follows | apply State.panWrite_follows
    | apply State.sluWrite_follows | apply State.coreWrite_follows | apply State.secWrite_follows | apply Follows.ite | split | dsimp only

theorem State.hostRegWrite_follows {s₀ s : State} (off size v : Nat) (keep₀ : Follows s₀ s) : Follows s₀ (State.hostRegWrite s off size v) := by
  unfold State.hostRegWrite
  with_reducible repeat' first
    | assumption | apply State.regWrite_follows | split | dsimp only

theorem State.keeperWrite_follows {s₀ s : State} (o w : Nat) (keep₀ : Follows s₀ s) : Follows s₀ (State.keeperWrite s o w) := by
  unfold State.keeperWrite
  with_reducible repeat' first
    | assumption | apply State.setFlag_follows | apply State.setProt_follows | apply State.keeperRing_follows | apply State.dipCtlWrite_follows
    | apply State.memCtlWrite_follows | apply State.larderCfgWrite_follows | apply State.disableUnit_follows | apply State.keeperEnable_follows
    | apply Follows.ite | split | dsimp only

/-! ## Scalar -/

theorem State.scalar_follows {s₀ s : State} (k op : Nat) (useA useB : Bool) (f : Nat → Nat → Nat → Nat) (keep₀ : Follows s₀ s) : Follows s₀ (State.scalar s k op useA useB f) := by
  unfold State.scalar
  with_reducible repeat' first
    | assumption | apply State.setCore_follows | apply State.progFault_follows | apply State.issue_follows | apply State.retire_follows
    | apply State.hold_follows | intro _ | split | dsimp only

theorem State.scalar2_follows {s₀ s : State} (k op : Nat) (keep₀ : Follows s₀ s) : Follows s₀ (State.scalar2 s k op) := by
  unfold State.scalar2
  with_reducible repeat' first
    | assumption | apply State.scalar_follows | split | dsimp only

theorem State.goto_follows {s₀ s : State} (k : Nat) (w : Nat) (t : Int) (keep₀ : Follows s₀ s) : Follows s₀ (State.goto s k w t) := by
  unfold State.goto
  with_reducible repeat' first
    | assumption | apply State.progFault_follows | apply State.issued_follows | apply State.instrDone_follows | simp only [Follows.same] | split
    | dsimp only

theorem State.branch_follows {s₀ s : State} (k op : Nat) (keep₀ : Follows s₀ s) : Follows s₀ (State.branch s k op) := by
  unfold State.branch
  with_reducible repeat' first
    | assumption | apply State.progFault_follows | apply State.issue_follows | apply State.retire_follows | apply State.hold_follows
    | apply State.goto_follows | intro _ | split | dsimp only

/-! ## Sideband -/

theorem State.reply_follows {s₀ s : State} (o : Out) (keep₀ : Follows s₀ s) : Follows s₀ (State.reply s o) := by
  unfold State.reply
  with_reducible repeat' first
    | assumption | simp only [Follows.same] | split | dsimp only | exact List.prefix_rfl | with_unfolding_all exact List.prefix_append _ _
    | exact List.prefix_append _ _ | exact Nat.le_refl _ | exact Nat.le_succ _ | exact id | exact Tbl.wf_set _ _ | exact Tbl.wf_clear _
    | apply Follows.update

theorem State.respondVendor_follows {s₀ s : State} (cmd code : Nat) (data : List Byte) (keep₀ : Follows s₀ s) : Follows s₀ (State.respondVendor s cmd code data) := by
  unfold State.respondVendor
  with_reducible repeat' first
    | assumption | apply State.reply_follows | split | dsimp only

theorem State.endAlert_follows {s₀ s : State}  (keep₀ : Follows s₀ s) : Follows s₀ (State.endAlert s) := by
  unfold State.endAlert
  with_reducible repeat' first
    | assumption | simp only [Follows.same] | split | dsimp only | exact List.prefix_rfl | with_unfolding_all exact List.prefix_append _ _
    | exact List.prefix_append _ _ | exact Nat.le_refl _ | exact Nat.le_succ _ | exact id | exact Tbl.wf_set _ _ | exact Tbl.wf_clear _
    | apply Follows.update

/-! ## StepClose -/

theorem State.closeHists_follows {s₀ s : State}  (keep₀ : Follows s₀ s) : Follows s₀ (State.closeHists s) := by
  unfold State.closeHists
  with_reducible repeat' first
    | assumption | apply State.setReg_follows | apply State.resetRegs_follows | apply State.setHist_follows | apply Follows.foldl
    | apply Follows.foldl_fst | apply Follows.foldl_snd | intro _ | split | dsimp only

theorem State.closeCounts_follows {s₀ s : State}  (keep₀ : Follows s₀ s) : Follows s₀ (State.closeCounts s) := by
  unfold State.closeCounts
  with_reducible repeat' first
    | assumption | apply State.setReg_follows | apply State.incReg_follows | simp only [Follows.same] | apply Follows.foldl
    | apply Follows.foldl_fst | apply Follows.foldl_snd | intro _ | split | dsimp only

theorem State.swapLayer_follows {s₀ s : State} (n : Nat) (keep₀ : Follows s₀ s) : Follows s₀ (State.swapLayer s n) := by
  unfold State.swapLayer
  with_reducible repeat' first
    | assumption | apply State.incReg_follows | apply State.memWrite_follows | split | dsimp only

/-! ## Update -/

theorem State.noteConvs_follows {s₀ s : State} (i : Nat) (t : EType) (l : List (Nat × Ev)) (keep₀ : Follows s₀ s) : Follows s₀ (State.noteConvs s i t l) := by
  unfold State.noteConvs
  with_reducible repeat' first
    | assumption | apply State.setSlot_follows | simp only [Follows.same] | split | dsimp only

theorem State.putPiece_follows {s₀ s : State} (i : Nat) (t : Tensor) (mode : Rnd) (ixs : List (List Nat)) (val : List Nat → FVal) (r : List Nat → Nat) (keep₀ : Follows s₀ s) : Follows s₀ (State.putPiece s i t mode ixs val r) := by
  unfold State.putPiece
  with_reducible repeat' first
    | assumption | apply State.putRuns_follows | apply State.noteConvs_follows | split | dsimp only

theorem State.updPiece_follows {s₀ s : State} (i k : Nat) (e : Entry) (c : Coef) (j : Nat) (keep₀ : Follows s₀ s) : Follows s₀ (State.updPiece s i k e c j) := by
  unfold State.updPiece
  with_reducible repeat' first
    | assumption | apply State.incReg_follows | apply State.takeFree_follows | apply State.setSlot_follows | apply State.descNotes_follows
    | apply State.descWrite_follows | apply State.putRuns_follows | apply State.builtinVx_follows | apply State.noteConvs_follows
    | apply State.putPiece_follows | simp only [Follows.same] | apply Follows.foldl | apply Follows.foldl_fst | apply Follows.foldl_snd | intro _
    | refine Follows.of_fst (by assumption) ?_ | refine Follows.of_snd (by assumption) ?_ | apply Follows.ite | split | dsimp only

theorem State.fetchUpdate_follows {s₀ s : State} (i : Nat) (keep₀ : Follows s₀ s) : Follows s₀ (State.fetchUpdate s i).1 := by
  unfold State.fetchUpdate
  with_reducible repeat' first
    | assumption | apply State.fetchTabs_follows | simp only [Follows.same] | refine Follows.of_fst (by assumption) ?_
    | refine Follows.of_snd (by assumption) ?_ | split | dsimp only

theorem State.updGo_follows {s₀ s : State} (i : Nat) (keep₀ : Follows s₀ s) : Follows s₀ (State.updGo s i) := by
  unfold State.updGo
  with_reducible repeat' first
    | assumption | apply State.markRun_follows | apply State.builtinTaker_follows | apply State.builtinOver_follows | apply State.updPiece_follows
    | simp only [Follows.same] | refine Follows.of_fst (by assumption) ?_ | refine Follows.of_snd (by assumption) ?_ | split | dsimp only

/-! ## Tick -/

theorem State.tick_follows {s₀ s : State}  (keep₀ : Follows s₀ s) : Follows s₀ (State.tick s) := by
  unfold State.tick
  with_reducible repeat' first
    | assumption | simp only [Follows.same] | split | dsimp only

end Sys2Proof.Machine
end

