-- ==== Sys2Proof/Laws/KeepCommands.lean ====
section
/-! SUPPORT. Every command's meaning keeps what `Follows` says, whatever it answers. -/

namespace Sys2Proof.Machine

set_option linter.unusedSimpArgs false

/-- An outcome that leads to a next state leads to one that follows. -/
def OutKeeps (s : State) (o : Host.Outcome State Fault Refusal) : Prop := ∀ t, o = .next t → Follows s t

theorem OutKeeps.next {s t : State} (h : Follows s t) : OutKeeps s (.next t) := fun _ e => by cases e; exact h

theorem OutKeeps.fault {s : State} {r : Fault} : OutKeeps s (.fault r) := fun _ e => by cases e

theorem execMma_keeps (k : Fin 256) (s₀ : State) : OutKeeps s₀ (execMma k s₀) := by
  unfold execMma
  with_reducible repeat' first
    | assumption | apply OutKeeps.next | apply OutKeeps.fault | exact Follows.refl _ | apply State.progFault_follows | apply State.issue_follows | apply State.hold_follows | apply State.holdEngine_follows
    | apply State.noteHeld_follows | apply State.mmaGo_follows | simp only [Follows.same] | intro _ | apply Follows.ite | split | dsimp only

theorem execMxComplete_keeps (k : Fin 256) (s₀ : State) : OutKeeps s₀ (execMxComplete k s₀) := by
  unfold execMxComplete
  with_reducible repeat' first
    | assumption | apply OutKeeps.next | apply OutKeeps.fault | exact Follows.refl _ | apply State.setCore_follows | apply State.handleNotes_follows | apply State.settle_follows | apply State.markDead_follows
    | apply State.instrDone_follows | apply State.mxWrite_follows | apply State.mxCounts_follows | apply State.resident_follows
    | simp only [Follows.same] | refine Follows.of_fst (by assumption) ?_ | refine Follows.of_snd (by assumption) ?_ | split | dsimp only

theorem execSld_keeps (k : Fin 256) (s₀ : State) : OutKeeps s₀ (execSld k s₀) := by
  unfold execSld
  with_reducible repeat' first
    | assumption | apply OutKeeps.next | apply OutKeeps.fault | exact Follows.refl _ | apply State.loadRange_follows | apply State.scalarAcc_follows | intro _ | split | dsimp only

theorem execSst_keeps (k : Fin 256) (s₀ : State) : OutKeeps s₀ (execSst k s₀) := by
  unfold execSst
  with_reducible repeat' first
    | assumption | apply OutKeeps.next | apply OutKeeps.fault | exact Follows.refl _ | apply State.storeRange_follows | apply State.scalarAcc_follows | intro _ | split | dsimp only

theorem execAmoSwap_keeps (k : Fin 256) (s₀ : State) : OutKeeps s₀ (execAmoSwap k s₀) := by
  unfold execAmoSwap
  with_reducible repeat' first
    | assumption | apply OutKeeps.next | apply OutKeeps.fault | exact Follows.refl _ | apply State.amo_follows | split | dsimp only

theorem execAmoCas_keeps (k : Fin 256) (s₀ : State) : OutKeeps s₀ (execAmoCas k s₀) := by
  unfold execAmoCas
  with_reducible repeat' first
    | assumption | apply OutKeeps.next | apply OutKeeps.fault | exact Follows.refl _ | apply State.amo_follows | split | dsimp only

theorem execAmoAdd_keeps (k : Fin 256) (s₀ : State) : OutKeeps s₀ (execAmoAdd k s₀) := by
  unfold execAmoAdd
  with_reducible repeat' first
    | assumption | apply OutKeeps.next | apply OutKeeps.fault | exact Follows.refl _ | apply State.amo_follows | split | dsimp only

theorem execAmoAnd_keeps (k : Fin 256) (s₀ : State) : OutKeeps s₀ (execAmoAnd k s₀) := by
  unfold execAmoAnd
  with_reducible repeat' first
    | assumption | apply OutKeeps.next | apply OutKeeps.fault | exact Follows.refl _ | apply State.amo_follows | split | dsimp only

theorem execAmoOr_keeps (k : Fin 256) (s₀ : State) : OutKeeps s₀ (execAmoOr k s₀) := by
  unfold execAmoOr
  with_reducible repeat' first
    | assumption | apply OutKeeps.next | apply OutKeeps.fault | exact Follows.refl _ | apply State.amo_follows | split | dsimp only

theorem execAmoXor_keeps (k : Fin 256) (s₀ : State) : OutKeeps s₀ (execAmoXor k s₀) := by
  unfold execAmoXor
  with_reducible repeat' first
    | assumption | apply OutKeeps.next | apply OutKeeps.fault | exact Follows.refl _ | apply State.amo_follows | split | dsimp only

theorem execAmoSmax_keeps (k : Fin 256) (s₀ : State) : OutKeeps s₀ (execAmoSmax k s₀) := by
  unfold execAmoSmax
  with_reducible repeat' first
    | assumption | apply OutKeeps.next | apply OutKeeps.fault | exact Follows.refl _ | apply State.amo_follows | split | dsimp only

theorem execAmoSmin_keeps (k : Fin 256) (s₀ : State) : OutKeeps s₀ (execAmoSmin k s₀) := by
  unfold execAmoSmin
  with_reducible repeat' first
    | assumption | apply OutKeeps.next | apply OutKeeps.fault | exact Follows.refl _ | apply State.amo_follows | split | dsimp only

theorem execAmoUmax_keeps (k : Fin 256) (s₀ : State) : OutKeeps s₀ (execAmoUmax k s₀) := by
  unfold execAmoUmax
  with_reducible repeat' first
    | assumption | apply OutKeeps.next | apply OutKeeps.fault | exact Follows.refl _ | apply State.amo_follows | split | dsimp only

theorem execAmoUmin_keeps (k : Fin 256) (s₀ : State) : OutKeeps s₀ (execAmoUmin k s₀) := by
  unfold execAmoUmin
  with_reducible repeat' first
    | assumption | apply OutKeeps.next | apply OutKeeps.fault | exact Follows.refl _ | apply State.amo_follows | split | dsimp only

theorem execAmoAdd32_keeps (k : Fin 256) (s₀ : State) : OutKeeps s₀ (execAmoAdd32 k s₀) := by
  unfold execAmoAdd32
  with_reducible repeat' first
    | assumption | apply OutKeeps.next | apply OutKeeps.fault | exact Follows.refl _ | apply State.amo_follows | split | dsimp only

theorem execAmoCas32_keeps (k : Fin 256) (s₀ : State) : OutKeeps s₀ (execAmoCas32 k s₀) := by
  unfold execAmoCas32
  with_reducible repeat' first
    | assumption | apply OutKeeps.next | apply OutKeeps.fault | exact Follows.refl _ | apply State.amo_follows | split | dsimp only

theorem execAmoFadd32_keeps (k : Fin 256) (s₀ : State) : OutKeeps s₀ (execAmoFadd32 k s₀) := by
  unfold execAmoFadd32
  with_reducible repeat' first
    | assumption | apply OutKeeps.next | apply OutKeeps.fault | exact Follows.refl _ | apply State.amo_follows | split | dsimp only

theorem execAmoFadd32x2_keeps (k : Fin 256) (s₀ : State) : OutKeeps s₀ (execAmoFadd32x2 k s₀) := by
  unfold execAmoFadd32x2
  with_reducible repeat' first
    | assumption | apply OutKeeps.next | apply OutKeeps.fault | exact Follows.refl _ | apply State.amo_follows | split | dsimp only

theorem execAmoFmax32_keeps (k : Fin 256) (s₀ : State) : OutKeeps s₀ (execAmoFmax32 k s₀) := by
  unfold execAmoFmax32
  with_reducible repeat' first
    | assumption | apply OutKeeps.next | apply OutKeeps.fault | exact Follows.refl _ | apply State.amo_follows | split | dsimp only

theorem execAmoFadd16x4_keeps (k : Fin 256) (s₀ : State) : OutKeeps s₀ (execAmoFadd16x4 k s₀) := by
  unfold execAmoFadd16x4
  with_reducible repeat' first
    | assumption | apply OutKeeps.next | apply OutKeeps.fault | exact Follows.refl _ | apply State.amo_follows | split | dsimp only

theorem execPendingValueArrives_keeps (k : Fin 256) (i : Nat) (s₀ : State) : OutKeeps s₀ (execPendingValueArrives k i s₀) := by
  unfold execPendingValueArrives
  with_reducible repeat' first
    | assumption | apply OutKeeps.next | apply OutKeeps.fault | exact Follows.refl _ | apply State.perform_follows | simp only [Follows.same] | refine Follows.of_fst (by assumption) ?_
    | refine Follows.of_snd (by assumption) ?_ | split | dsimp only

theorem execTdef_keeps (k : Fin 256) (s₀ : State) : OutKeeps s₀ (execTdef k s₀) := by
  unfold execTdef
  with_reducible repeat' first
    | assumption | apply OutKeeps.next | apply OutKeeps.fault | exact Follows.refl _ | apply State.setCore_follows | apply State.progFault_follows | apply State.issue_follows | apply State.retire_follows
    | apply State.hold_follows | simp only [Follows.same] | intro _ | split | dsimp only

theorem execTrel_keeps (k : Fin 256) (s₀ : State) : OutKeeps s₀ (execTrel k s₀) := by
  unfold execTrel
  with_reducible repeat' first
    | assumption | apply OutKeeps.next | apply OutKeeps.fault | exact Follows.refl _ | apply State.setCore_follows | apply State.progFault_follows | apply State.issue_follows | apply State.retire_follows
    | apply State.hold_follows | intro _ | split | dsimp only

theorem execTload_keeps (k : Fin 256) (s₀ : State) : OutKeeps s₀ (execTload k s₀) := by
  unfold execTload
  with_reducible repeat' first
    | assumption | apply OutKeeps.next | apply OutKeeps.fault | exact Follows.refl _ | apply State.setCore_follows | apply State.progFault_follows | apply State.issue_follows | apply State.issued_follows
    | apply State.hold_follows | apply State.loadRange_follows | apply State.startAccess_follows | simp only [Follows.same] | apply Follows.foldl
    | apply Follows.foldl_fst | apply Follows.foldl_snd | intro _ | split | dsimp only

theorem execTloadComplete_keeps (k : Fin 256) (h : Fin 64) (s₀ : State) : OutKeeps s₀ (execTloadComplete k h s₀) := by
  unfold execTloadComplete
  with_reducible repeat' first
    | assumption | apply OutKeeps.next | apply OutKeeps.fault | exact Follows.refl _ | apply State.accessOver_follows | apply State.tloadWrite_follows | apply State.perform_follows | simp only [Follows.same]
    | split | dsimp only

theorem execTstore_keeps (k : Fin 256) (s₀ : State) : OutKeeps s₀ (execTstore k s₀) := by
  unfold execTstore
  with_reducible repeat' first
    | assumption | apply OutKeeps.next | apply OutKeeps.fault | exact Follows.refl _ | apply State.incReg_follows | apply State.handleNotes_follows | apply State.progFault_follows | apply State.issue_follows
    | apply State.issued_follows | apply State.hold_follows | apply State.storeRange_follows | apply State.startAccess_follows
    | simp only [Follows.same] | apply Follows.foldl | apply Follows.foldl_fst | apply Follows.foldl_snd | intro _ | split | dsimp only

theorem execTzero_keeps (k : Fin 256) (s₀ : State) : OutKeeps s₀ (execTzero k s₀) := by
  unfold execTzero
  with_reducible repeat' first
    | assumption | apply OutKeeps.next | apply OutKeeps.fault | exact Follows.refl _ | apply State.setCore_follows | apply State.memWrite_follows | apply State.progFault_follows | apply State.issue_follows
    | apply State.retire_follows | apply State.hold_follows | apply State.resident_follows | simp only [Follows.same] | apply Follows.foldl
    | apply Follows.foldl_fst | apply Follows.foldl_snd | intro _ | split | dsimp only

theorem execTwait_keeps (k : Fin 256) (s₀ : State) : OutKeeps s₀ (execTwait k s₀) := by
  unfold execTwait
  with_reducible repeat' first
    | assumption | apply OutKeeps.next | apply OutKeeps.fault | exact Follows.refl _ | apply State.noteWait_follows | apply State.progFault_follows | apply State.issue_follows | apply State.retire_follows
    | apply State.resident_follows | intro _ | split | dsimp only

theorem execFence_keeps (k : Fin 256) (s₀ : State) : OutKeeps s₀ (execFence k s₀) := by
  unfold execFence
  with_reducible repeat' first
    | assumption | apply OutKeeps.next | apply OutKeeps.fault | exact Follows.refl _ | apply State.progFault_follows | apply State.issue_follows | apply State.retire_follows | intro _ | split | dsimp only

theorem execTqpop_keeps (k : Fin 256) (s₀ : State) : OutKeeps s₀ (execTqpop k s₀) := by
  unfold execTqpop
  with_reducible repeat' first
    | assumption | apply OutKeeps.next | apply OutKeeps.fault | exact Follows.refl _ | apply State.progFault_follows | apply State.issue_follows | apply State.issued_follows | apply State.hold_follows
    | apply State.pendReg_follows | apply State.startAccess_follows | intro _ | split | dsimp only

theorem execSemwait_keeps (k : Fin 256) (s₀ : State) : OutKeeps s₀ (execSemwait k s₀) := by
  unfold execSemwait
  with_reducible repeat' first
    | assumption | apply OutKeeps.next | apply OutKeeps.fault | exact Follows.refl _ | apply State.syncIssue_follows | split | dsimp only

theorem execSemsig_keeps (k : Fin 256) (s₀ : State) : OutKeeps s₀ (execSemsig k s₀) := by
  unfold execSemsig
  with_reducible repeat' first
    | assumption | apply OutKeeps.next | apply OutKeeps.fault | exact Follows.refl _ | apply State.syncIssue_follows | split | dsimp only

theorem execSemtry_keeps (k : Fin 256) (s₀ : State) : OutKeeps s₀ (execSemtry k s₀) := by
  unfold execSemtry
  with_reducible repeat' first
    | assumption | apply OutKeeps.next | apply OutKeeps.fault | exact Follows.refl _ | apply State.syncIssue_follows | split | dsimp only

theorem execEvwait_keeps (k : Fin 256) (s₀ : State) : OutKeeps s₀ (execEvwait k s₀) := by
  unfold execEvwait
  with_reducible repeat' first
    | assumption | apply OutKeeps.next | apply OutKeeps.fault | exact Follows.refl _ | apply State.syncIssue_follows | split | dsimp only

theorem execEvset_keeps (k : Fin 256) (s₀ : State) : OutKeeps s₀ (execEvset k s₀) := by
  unfold execEvset
  with_reducible repeat' first
    | assumption | apply OutKeeps.next | apply OutKeeps.fault | exact Follows.refl _ | apply State.syncIssue_follows | split | dsimp only

theorem execEvclr_keeps (k : Fin 256) (s₀ : State) : OutKeeps s₀ (execEvclr k s₀) := by
  unfold execEvclr
  with_reducible repeat' first
    | assumption | apply OutKeeps.next | apply OutKeeps.fault | exact Follows.refl _ | apply State.syncIssue_follows | split | dsimp only

theorem execSyncOpApply_keeps (k : Fin 256) (s₀ : State) : OutKeeps s₀ (execSyncOpApply k s₀) := by
  unfold execSyncOpApply
  with_reducible repeat' first
    | assumption | apply OutKeeps.next | apply OutKeeps.fault | exact Follows.refl _ | apply State.setCore_follows | apply State.settle_follows | apply State.applySync_follows | simp only [Follows.same] | split
    | dsimp only

theorem execDescriptorFetch_keeps (ring : Fin 4096) (n : Nat) (s₀ : State) : OutKeeps s₀ (execDescriptorFetch ring n s₀) := by
  unfold execDescriptorFetch
  with_reducible repeat' first
    | assumption | apply OutKeeps.next | apply OutKeeps.fault | exact Follows.refl _ | apply State.fetchMany_follows | split | dsimp only

theorem execDescriptorEnd_keeps (i : Nat) (s₀ : State) : OutKeeps s₀ (execDescriptorEnd i s₀) := by
  unfold execDescriptorEnd
  with_reducible repeat' first
    | assumption | apply OutKeeps.next | apply OutKeeps.fault | exact Follows.refl _ | apply State.finish_follows | apply State.stage_follows | simp only [Follows.same] | split | dsimp only

theorem execDescriptorStart_keeps (ctx : Fin 512) (s₀ : State) : OutKeeps s₀ (execDescriptorStart ctx s₀) := by
  unfold execDescriptorStart
  with_reducible repeat' first
    | assumption | apply OutKeeps.next | apply OutKeeps.fault | exact Follows.refl _ | apply State.semWait_follows | apply State.setStage_follows | apply State.endSlot_follows | apply State.headReady_follows
    | simp only [Follows.same] | refine Follows.of_fst (by assumption) ?_ | refine Follows.of_snd (by assumption) ?_ | split | dsimp only

theorem execFenceDescriptor_keeps (i : Nat) (s₀ : State) : OutKeeps s₀ (execFenceDescriptor i s₀) := by
  unfold execFenceDescriptor
  with_reducible repeat' first
    | assumption | apply OutKeeps.next | apply OutKeeps.fault | exact Follows.refl _ | apply State.endSlot_follows | apply State.fenceStep_follows | split | dsimp only

theorem execSignal_keeps (i : Nat) (s₀ : State) : OutKeeps s₀ (execSignal i s₀) := by
  unfold execSignal
  with_reducible repeat' first
    | assumption | apply OutKeeps.next | apply OutKeeps.fault | exact Follows.refl _ | apply State.setSlot_follows | apply State.endSlot_follows | apply State.descWrite_follows | apply State.signalRest_follows
    | simp only [Follows.same] | refine Follows.of_fst (by assumption) ?_ | refine Follows.of_snd (by assumption) ?_ | split | dsimp only

theorem execVxAdd_keeps (k : Fin 256) (s₀ : State) : OutKeeps s₀ (execVxAdd k s₀) := by
  unfold execVxAdd
  with_reducible repeat' first
    | assumption | apply OutKeeps.next | apply OutKeeps.fault | exact Follows.refl _ | apply State.vx_follows | split | dsimp only

theorem execVxSub_keeps (k : Fin 256) (s₀ : State) : OutKeeps s₀ (execVxSub k s₀) := by
  unfold execVxSub
  with_reducible repeat' first
    | assumption | apply OutKeeps.next | apply OutKeeps.fault | exact Follows.refl _ | apply State.vx_follows | split | dsimp only

theorem execVxMul_keeps (k : Fin 256) (s₀ : State) : OutKeeps s₀ (execVxMul k s₀) := by
  unfold execVxMul
  with_reducible repeat' first
    | assumption | apply OutKeeps.next | apply OutKeeps.fault | exact Follows.refl _ | apply State.vx_follows | split | dsimp only

theorem execFma_keeps (k : Fin 256) (s₀ : State) : OutKeeps s₀ (execFma k s₀) := by
  unfold execFma
  with_reducible repeat' first
    | assumption | apply OutKeeps.next | apply OutKeeps.fault | exact Follows.refl _ | apply State.vx_follows | split | dsimp only

theorem execVxMax_keeps (k : Fin 256) (s₀ : State) : OutKeeps s₀ (execVxMax k s₀) := by
  unfold execVxMax
  with_reducible repeat' first
    | assumption | apply OutKeeps.next | apply OutKeeps.fault | exact Follows.refl _ | apply State.vx_follows | split | dsimp only

theorem execVxMin_keeps (k : Fin 256) (s₀ : State) : OutKeeps s₀ (execVxMin k s₀) := by
  unfold execVxMin
  with_reducible repeat' first
    | assumption | apply OutKeeps.next | apply OutKeeps.fault | exact Follows.refl _ | apply State.vx_follows | split | dsimp only

theorem execMaxnum_keeps (k : Fin 256) (s₀ : State) : OutKeeps s₀ (execMaxnum k s₀) := by
  unfold execMaxnum
  with_reducible repeat' first
    | assumption | apply OutKeeps.next | apply OutKeeps.fault | exact Follows.refl _ | apply State.vx_follows | split | dsimp only

theorem execMinnum_keeps (k : Fin 256) (s₀ : State) : OutKeeps s₀ (execMinnum k s₀) := by
  unfold execMinnum
  with_reducible repeat' first
    | assumption | apply OutKeeps.next | apply OutKeeps.fault | exact Follows.refl _ | apply State.vx_follows | split | dsimp only

theorem execAbs_keeps (k : Fin 256) (s₀ : State) : OutKeeps s₀ (execAbs k s₀) := by
  unfold execAbs
  with_reducible repeat' first
    | assumption | apply OutKeeps.next | apply OutKeeps.fault | exact Follows.refl _ | apply State.vx_follows | split | dsimp only

theorem execNeg_keeps (k : Fin 256) (s₀ : State) : OutKeeps s₀ (execNeg k s₀) := by
  unfold execNeg
  with_reducible repeat' first
    | assumption | apply OutKeeps.next | apply OutKeeps.fault | exact Follows.refl _ | apply State.vx_follows | split | dsimp only

theorem execCvt_keeps (k : Fin 256) (s₀ : State) : OutKeeps s₀ (execCvt k s₀) := by
  unfold execCvt
  with_reducible repeat' first
    | assumption | apply OutKeeps.next | apply OutKeeps.fault | exact Follows.refl _ | apply State.vx_follows | split | dsimp only

theorem execCmp_keeps (k : Fin 256) (s₀ : State) : OutKeeps s₀ (execCmp k s₀) := by
  unfold execCmp
  with_reducible repeat' first
    | assumption | apply OutKeeps.next | apply OutKeeps.fault | exact Follows.refl _ | apply State.vx_follows | split | dsimp only

theorem execSel_keeps (k : Fin 256) (s₀ : State) : OutKeeps s₀ (execSel k s₀) := by
  unfold execSel
  with_reducible repeat' first
    | assumption | apply OutKeeps.next | apply OutKeeps.fault | exact Follows.refl _ | apply State.vx_follows | split | dsimp only

theorem execPadd_keeps (k : Fin 256) (s₀ : State) : OutKeeps s₀ (execPadd k s₀) := by
  unfold execPadd
  with_reducible repeat' first
    | assumption | apply OutKeeps.next | apply OutKeeps.fault | exact Follows.refl _ | apply State.vx_follows | split | dsimp only

theorem execExp_keeps (k : Fin 256) (s₀ : State) : OutKeeps s₀ (execExp k s₀) := by
  unfold execExp
  with_reducible repeat' first
    | assumption | apply OutKeeps.next | apply OutKeeps.fault | exact Follows.refl _ | apply State.vx_follows | split | dsimp only

theorem execLog_keeps (k : Fin 256) (s₀ : State) : OutKeeps s₀ (execLog k s₀) := by
  unfold execLog
  with_reducible repeat' first
    | assumption | apply OutKeeps.next | apply OutKeeps.fault | exact Follows.refl _ | apply State.vx_follows | split | dsimp only

theorem execRsqrt_keeps (k : Fin 256) (s₀ : State) : OutKeeps s₀ (execRsqrt k s₀) := by
  unfold execRsqrt
  with_reducible repeat' first
    | assumption | apply OutKeeps.next | apply OutKeeps.fault | exact Follows.refl _ | apply State.vx_follows | split | dsimp only

theorem execSigm_keeps (k : Fin 256) (s₀ : State) : OutKeeps s₀ (execSigm k s₀) := by
  unfold execSigm
  with_reducible repeat' first
    | assumption | apply OutKeeps.next | apply OutKeeps.fault | exact Follows.refl _ | apply State.vx_follows | split | dsimp only

theorem execLogit_keeps (k : Fin 256) (s₀ : State) : OutKeeps s₀ (execLogit k s₀) := by
  unfold execLogit
  with_reducible repeat' first
    | assumption | apply OutKeeps.next | apply OutKeeps.fault | exact Follows.refl _ | apply State.vx_follows | split | dsimp only

theorem execTanh_keeps (k : Fin 256) (s₀ : State) : OutKeeps s₀ (execTanh k s₀) := by
  unfold execTanh
  with_reducible repeat' first
    | assumption | apply OutKeeps.next | apply OutKeeps.fault | exact Follows.refl _ | apply State.vx_follows | split | dsimp only

theorem execSilu_keeps (k : Fin 256) (s₀ : State) : OutKeeps s₀ (execSilu k s₀) := by
  unfold execSilu
  with_reducible repeat' first
    | assumption | apply OutKeeps.next | apply OutKeeps.fault | exact Follows.refl _ | apply State.vx_follows | split | dsimp only

theorem execDiv_keeps (k : Fin 256) (s₀ : State) : OutKeeps s₀ (execDiv k s₀) := by
  unfold execDiv
  with_reducible repeat' first
    | assumption | apply OutKeeps.next | apply OutKeeps.fault | exact Follows.refl _ | apply State.vx_follows | split | dsimp only

theorem execSqrt_keeps (k : Fin 256) (s₀ : State) : OutKeeps s₀ (execSqrt k s₀) := by
  unfold execSqrt
  with_reducible repeat' first
    | assumption | apply OutKeeps.next | apply OutKeeps.fault | exact Follows.refl _ | apply State.vx_follows | split | dsimp only

theorem execRsum_keeps (k : Fin 256) (s₀ : State) : OutKeeps s₀ (execRsum k s₀) := by
  unfold execRsum
  with_reducible repeat' first
    | assumption | apply OutKeeps.next | apply OutKeeps.fault | exact Follows.refl _ | apply State.vx_follows | split | dsimp only

theorem execRssq_keeps (k : Fin 256) (s₀ : State) : OutKeeps s₀ (execRssq k s₀) := by
  unfold execRssq
  with_reducible repeat' first
    | assumption | apply OutKeeps.next | apply OutKeeps.fault | exact Follows.refl _ | apply State.vx_follows | split | dsimp only

theorem execRdot_keeps (k : Fin 256) (s₀ : State) : OutKeeps s₀ (execRdot k s₀) := by
  unfold execRdot
  with_reducible repeat' first
    | assumption | apply OutKeeps.next | apply OutKeeps.fault | exact Follows.refl _ | apply State.vx_follows | split | dsimp only

theorem execRmax_keeps (k : Fin 256) (s₀ : State) : OutKeeps s₀ (execRmax k s₀) := by
  unfold execRmax
  with_reducible repeat' first
    | assumption | apply OutKeeps.next | apply OutKeeps.fault | exact Follows.refl _ | apply State.vx_follows | split | dsimp only

theorem execRmsn_keeps (k : Fin 256) (s₀ : State) : OutKeeps s₀ (execRmsn k s₀) := by
  unfold execRmsn
  with_reducible repeat' first
    | assumption | apply OutKeeps.next | apply OutKeeps.fault | exact Follows.refl _ | apply State.vx_follows | split | dsimp only

theorem execDrmsn_keeps (k : Fin 256) (s₀ : State) : OutKeeps s₀ (execDrmsn k s₀) := by
  unfold execDrmsn
  with_reducible repeat' first
    | assumption | apply OutKeeps.next | apply OutKeeps.fault | exact Follows.refl _ | apply State.vx_follows | split | dsimp only

theorem execSmax_keeps (k : Fin 256) (s₀ : State) : OutKeeps s₀ (execSmax k s₀) := by
  unfold execSmax
  with_reducible repeat' first
    | assumption | apply OutKeeps.next | apply OutKeeps.fault | exact Follows.refl _ | apply State.vx_follows | split | dsimp only

theorem execDsmax_keeps (k : Fin 256) (s₀ : State) : OutKeeps s₀ (execDsmax k s₀) := by
  unfold execDsmax
  with_reducible repeat' first
    | assumption | apply OutKeeps.next | apply OutKeeps.fault | exact Follows.refl _ | apply State.vx_follows | split | dsimp only

theorem execXent_keeps (k : Fin 256) (s₀ : State) : OutKeeps s₀ (execXent k s₀) := by
  unfold execXent
  with_reducible repeat' first
    | assumption | apply OutKeeps.next | apply OutKeeps.fault | exact Follows.refl _ | apply State.vx_follows | split | dsimp only

theorem execDsigm_keeps (k : Fin 256) (s₀ : State) : OutKeeps s₀ (execDsigm k s₀) := by
  unfold execDsigm
  with_reducible repeat' first
    | assumption | apply OutKeeps.next | apply OutKeeps.fault | exact Follows.refl _ | apply State.vx_follows | split | dsimp only

theorem execDtanh_keeps (k : Fin 256) (s₀ : State) : OutKeeps s₀ (execDtanh k s₀) := by
  unfold execDtanh
  with_reducible repeat' first
    | assumption | apply OutKeeps.next | apply OutKeeps.fault | exact Follows.refl _ | apply State.vx_follows | split | dsimp only

theorem execDrelu_keeps (k : Fin 256) (s₀ : State) : OutKeeps s₀ (execDrelu k s₀) := by
  unfold execDrelu
  with_reducible repeat' first
    | assumption | apply OutKeeps.next | apply OutKeeps.fault | exact Follows.refl _ | apply State.vx_follows | split | dsimp only

theorem execDexp_keeps (k : Fin 256) (s₀ : State) : OutKeeps s₀ (execDexp k s₀) := by
  unfold execDexp
  with_reducible repeat' first
    | assumption | apply OutKeeps.next | apply OutKeeps.fault | exact Follows.refl _ | apply State.vx_follows | split | dsimp only

theorem execDsilu_keeps (k : Fin 256) (s₀ : State) : OutKeeps s₀ (execDsilu k s₀) := by
  unfold execDsilu
  with_reducible repeat' first
    | assumption | apply OutKeeps.next | apply OutKeeps.fault | exact Follows.refl _ | apply State.vx_follows | split | dsimp only

theorem execDsiluu_keeps (k : Fin 256) (s₀ : State) : OutKeeps s₀ (execDsiluu k s₀) := by
  unfold execDsiluu
  with_reducible repeat' first
    | assumption | apply OutKeeps.next | apply OutKeeps.fault | exact Follows.refl _ | apply State.vx_follows | split | dsimp only

theorem execTopk_keeps (k : Fin 256) (s₀ : State) : OutKeeps s₀ (execTopk k s₀) := by
  unfold execTopk
  with_reducible repeat' first
    | assumption | apply OutKeeps.next | apply OutKeeps.fault | exact Follows.refl _ | apply State.vx_follows | split | dsimp only

theorem execSort_keeps (k : Fin 256) (s₀ : State) : OutKeeps s₀ (execSort k s₀) := by
  unfold execSort
  with_reducible repeat' first
    | assumption | apply OutKeeps.next | apply OutKeeps.fault | exact Follows.refl _ | apply State.vx_follows | split | dsimp only

theorem execSegkey_keeps (k : Fin 256) (s₀ : State) : OutKeeps s₀ (execSegkey k s₀) := by
  unfold execSegkey
  with_reducible repeat' first
    | assumption | apply OutKeeps.next | apply OutKeeps.fault | exact Follows.refl _ | apply State.vx_follows | split | dsimp only

theorem execSegsum_keeps (k : Fin 256) (s₀ : State) : OutKeeps s₀ (execSegsum k s₀) := by
  unfold execSegsum
  with_reducible repeat' first
    | assumption | apply OutKeeps.next | apply OutKeeps.fault | exact Follows.refl _ | apply State.vx_follows | split | dsimp only

theorem execPantryCacheRefill_keeps (p : Fin 64) (s₀ : State) : OutKeeps s₀ (execPantryCacheRefill p s₀) := by
  unfold execPantryCacheRefill
  with_reducible repeat' first
    | assumption | apply OutKeeps.next | apply OutKeeps.fault | exact Follows.refl _ | apply State.takeFree_follows | apply State.ringTake_follows | refine Follows.of_fst (by assumption) ?_
    | refine Follows.of_snd (by assumption) ?_ | split | dsimp only

theorem execPoolEnable_keeps (p : Fin 64) (v : Word) (s₀ : State) : OutKeeps s₀ (execPoolEnable p v s₀) := by
  unfold execPoolEnable
  with_reducible repeat' first
    | assumption | apply OutKeeps.next | apply OutKeeps.fault | exact Follows.refl _ | apply State.poolEnable_follows | split | dsimp only

theorem execPoolDisable_keeps (p : Fin 64) (v : Word) (s₀ : State) : OutKeeps s₀ (execPoolDisable p v s₀) := by
  unfold execPoolDisable
  with_reducible repeat' first
    | assumption | apply OutKeeps.next | apply OutKeeps.fault | exact Follows.refl _ | apply State.poolDisable_follows | split | dsimp only

theorem execParkRestart_keeps (p : Fin 65) (s₀ : State) : OutKeeps s₀ (execParkRestart p s₀) := by
  unfold execParkRestart
  with_reducible repeat' first
    | assumption | apply OutKeeps.next | apply OutKeeps.fault | exact Follows.refl _ | apply State.eventClear_follows | apply State.setStage_follows | apply State.stage_follows | apply Follows.foldl
    | apply Follows.foldl_fst | apply Follows.foldl_snd | intro _ | split | dsimp only

theorem execAlloc_keeps (i : Nat) (s₀ : State) : OutKeeps s₀ (execAlloc i s₀) := by
  unfold execAlloc
  with_reducible repeat' first
    | assumption | apply OutKeeps.next | apply OutKeeps.fault | exact Follows.refl _ | apply State.incReg_follows | apply State.endSlot_follows | apply State.descWrite_follows
    | refine State.alloc_follows _ _ ?_ (by assumption) | apply State.parkOr_follows | apply State.poolAsk_follows | simp only [Follows.same]
    | refine Follows.of_fst (by assumption) ?_ | refine Follows.of_snd (by assumption) ?_ | split | dsimp only

theorem execRef_keeps (i : Nat) (s₀ : State) : OutKeeps s₀ (execRef i s₀) := by
  unfold execRef
  with_reducible repeat' first
    | assumption | apply OutKeeps.next | apply OutKeeps.fault | exact Follows.refl _ | apply State.poolRefs_follows | split | dsimp only

theorem execUnref_keeps (i : Nat) (s₀ : State) : OutKeeps s₀ (execUnref i s₀) := by
  unfold execUnref
  with_reducible repeat' first
    | assumption | apply OutKeeps.next | apply OutKeeps.fault | exact Follows.refl _ | apply State.poolRefs_follows | split | dsimp only

theorem execGeomEpochApply_keeps (s₀ : State) : OutKeeps s₀ (execGeomEpochApply s₀) := by
  unfold execGeomEpochApply
  with_reducible repeat' first
    | assumption | apply OutKeeps.next | apply OutKeeps.fault | exact Follows.refl _ | apply State.setReg_follows | apply State.setFlag_follows | apply State.remap_follows | apply State.newEpoch_follows
    | simp only [Follows.same] | split | dsimp only

theorem execAdvance_keeps (v : Word) (s₀ : State) : OutKeeps s₀ (execAdvance v s₀) := by
  unfold execAdvance
  with_reducible repeat' first
    | assumption | apply OutKeeps.next | apply OutKeeps.fault | exact Follows.refl _ | apply State.advance_follows | split | dsimp only

theorem execRotatingSelfTest_keeps (s₀ : State) : OutKeeps s₀ (execRotatingSelfTest s₀) := by
  unfold execRotatingSelfTest
  with_reducible repeat' first
    | assumption | apply OutKeeps.next | apply OutKeeps.fault | exact Follows.refl _ | apply State.holdCore_follows | apply Follows.foldl | apply Follows.foldl_fst | apply Follows.foldl_snd | intro _ | split
    | dsimp only

theorem execSelfTestStart_keeps (k : Fin 256) (s₀ : State) : OutKeeps s₀ (execSelfTestStart k s₀) := by
  unfold execSelfTestStart
  with_reducible repeat' first
    | assumption | apply OutKeeps.next | apply OutKeeps.fault | exact Follows.refl _ | apply State.setCore_follows | apply State.hold_follows | apply State.holdCore_follows | simp only [Follows.same] | split
    | dsimp only

theorem execSelfTestDone_keeps (k : Fin 256) (found : List ArrayFault) (vectorFails : Bool) (s₀ : State) : OutKeeps s₀ (execSelfTestDone k found vectorFails s₀) := by
  unfold execSelfTestDone
  with_reducible repeat' first
    | assumption | apply OutKeeps.next | apply OutKeeps.fault | exact Follows.refl _ | apply State.retire1_follows | apply State.repair_follows | apply State.testPassed_follows | simp only [Follows.same]
    | refine Follows.of_fst (by assumption) ?_ | refine Follows.of_snd (by assumption) ?_ | split | dsimp only

theorem execTestNow_keeps (k : Fin 256) (v : Word) (s₀ : State) : OutKeeps s₀ (execTestNow k v s₀) := by
  unfold execTestNow
  with_reducible repeat' first
    | assumption | apply OutKeeps.next | apply OutKeeps.fault | exact Follows.refl _ | apply State.testNow_follows | split | dsimp only

theorem execDipResolved_keeps (k : Fin 256) (s₀ : State) : OutKeeps s₀ (execDipResolved k s₀) := by
  unfold execDipResolved
  with_reducible repeat' first
    | assumption | apply OutKeeps.next | apply OutKeeps.fault | exact Follows.refl _ | apply State.dipCell_follows | simp only [Follows.same] | apply Follows.foldl | apply Follows.foldl_fst
    | apply Follows.foldl_snd | intro _ | split | dsimp only

theorem execForcedMxDip_keeps (k : Fin 256) (s₀ : State) : OutKeeps s₀ (execForcedMxDip k s₀) := by
  unfold execForcedMxDip
  with_reducible repeat' first
    | assumption | apply OutKeeps.next | apply OutKeeps.fault | exact Follows.refl _ | apply State.setCore_follows | simp only [Follows.same] | split | dsimp only

theorem execDipSelfCheck_keeps (d : Fin 16) (ok : Bool) (s₀ : State) : OutKeeps s₀ (execDipSelfCheck d ok s₀) := by
  unfold execDipSelfCheck
  with_reducible repeat' first
    | assumption | apply OutKeeps.next | apply OutKeeps.fault | exact Follows.refl _ | apply State.setFlag_follows | apply State.internal_follows | split | dsimp only

theorem execFarEndCoordinates_keeps (p : Fin 40) (house : Fin 65536) (room : Fin 32) (s₀ : State) : OutKeeps s₀ (execFarEndCoordinates p house room s₀) := by
  unfold execFarEndCoordinates
  with_reducible repeat' first
    | assumption | apply OutKeeps.next | apply OutKeeps.fault | exact Follows.refl _ | apply State.setField_follows | apply State.evalPort_follows | apply State.portsChanged_follows | split | dsimp only

theorem execPortDown_keeps (p : Fin 40) (n : Nat) (s₀ : State) : OutKeeps s₀ (execPortDown p n s₀) := by
  unfold execPortDown
  with_reducible repeat' first
    | assumption | apply OutKeeps.next | apply OutKeeps.fault | exact Follows.refl _ | apply State.portDown_follows | apply State.acked_follows | split | dsimp only

theorem execLinkReplay_keeps (p : Fin 40) (n : Nat) (s₀ : State) : OutKeeps s₀ (execLinkReplay p n s₀) := by
  unfold execLinkReplay
  with_reducible repeat' first
    | assumption | apply OutKeeps.next | apply OutKeeps.fault | exact Follows.refl _ | apply State.portDown_follows | apply State.acked_follows | simp only [Follows.same] | split | dsimp only
    | exact List.prefix_rfl | with_unfolding_all exact List.prefix_append _ _ | exact List.prefix_append _ _ | exact Nat.le_refl _
    | exact Nat.le_succ _ | exact id | exact Tbl.wf_set _ _ | exact Tbl.wf_clear _ | apply Follows.update

theorem execPortMaskWrite_keeps (v : Word) (s₀ : State) : OutKeeps s₀ (execPortMaskWrite v s₀) := by
  unfold execPortMaskWrite
  with_reducible repeat' first
    | assumption | apply OutKeeps.next | apply OutKeeps.fault | exact Follows.refl _ | apply State.portMask_follows | split | dsimp only

theorem execSwap_keeps (v : Word) (s₀ : State) : OutKeeps s₀ (execSwap v s₀) := by
  unfold execSwap
  with_reducible repeat' first
    | assumption | apply OutKeeps.next | apply OutKeeps.fault | exact Follows.refl _ | apply State.swapWrite_follows | split | dsimp only

theorem execDrainEnd_keeps (s₀ : State) : OutKeeps s₀ (execDrainEnd s₀) := by
  unfold execDrainEnd
  with_reducible repeat' first
    | assumption | apply OutKeeps.next | apply OutKeeps.fault | exact Follows.refl _ | apply State.setFlag_follows | split | dsimp only

theorem execRoomDeadClear_keeps (v : Word) (s₀ : State) : OutKeeps s₀ (execRoomDeadClear v s₀) := by
  unfold execRoomDeadClear
  with_reducible repeat' first
    | assumption | apply OutKeeps.next | apply OutKeeps.fault | exact Follows.refl _ | apply State.deadClear_follows | split | dsimp only

theorem execFabCoordWrite_keeps (v : Word) (s₀ : State) : OutKeeps s₀ (execFabCoordWrite v s₀) := by
  unfold execFabCoordWrite
  with_reducible repeat' first
    | assumption | apply OutKeeps.next | apply OutKeeps.fault | exact Follows.refl _ | apply State.coordWrite_follows | split | dsimp only

theorem execOnpkgLinkDown_keeps (a b : Fin 25) (s₀ : State) : OutKeeps s₀ (execOnpkgLinkDown a b s₀) := by
  unfold execOnpkgLinkDown
  with_reducible repeat' first
    | assumption | apply OutKeeps.next | apply OutKeeps.fault | exact Follows.refl _ | apply State.pkgLinkDown_follows | split | dsimp only

theorem execOnpkgLinkRetry_keeps (a b : Fin 25) (again : Bool) (s₀ : State) : OutKeeps s₀ (execOnpkgLinkRetry a b again s₀) := by
  unfold execOnpkgLinkRetry
  with_reducible repeat' first
    | assumption | apply OutKeeps.next | apply OutKeeps.fault | exact Follows.refl _ | apply State.pkgLinkDown_follows | simp only [Follows.same] | split | dsimp only

theorem execPowerReqNap_keeps (s₀ : State) : OutKeeps s₀ (execPowerReqNap s₀) := by
  unfold execPowerReqNap
  with_reducible repeat' first
    | assumption | apply OutKeeps.next | apply OutKeeps.fault | exact Follows.refl _ | apply State.powerWrite_follows | split | dsimp only

theorem execPowerReqDeep_keeps (s₀ : State) : OutKeeps s₀ (execPowerReqDeep s₀) := by
  unfold execPowerReqDeep
  with_reducible repeat' first
    | assumption | apply OutKeeps.next | apply OutKeeps.fault | exact Follows.refl _ | apply State.powerWrite_follows | split | dsimp only

theorem execPowerReqActive_keeps (s₀ : State) : OutKeeps s₀ (execPowerReqActive s₀) := by
  unfold execPowerReqActive
  with_reducible repeat' first
    | assumption | apply OutKeeps.next | apply OutKeeps.fault | exact Follows.refl _ | apply State.powerWrite_follows | split | dsimp only

theorem execStateEntryQuiet_keeps (s₀ : State) : OutKeeps s₀ (execStateEntryQuiet s₀) := by
  unfold execStateEntryQuiet
  with_reducible repeat' first
    | assumption | apply OutKeeps.next | apply OutKeeps.fault | exact Follows.refl _ | apply State.incReg_follows | apply State.setFlag_follows | apply State.allPortsDown_follows | apply State.napLoss_follows
    | apply State.deepLoss_follows | apply State.setPower_follows | apply State.actHeld_follows | simp only [Follows.same] | split | dsimp only

theorem execIdleEntry_keeps (s₀ : State) : OutKeeps s₀ (execIdleEntry s₀) := by
  unfold execIdleEntry
  with_reducible repeat' first
    | assumption | apply OutKeeps.next | apply OutKeeps.fault | exact Follows.refl _ | apply State.setPower_follows | split | dsimp only

theorem execCellarTimer_keeps (s₀ : State) : OutKeeps s₀ (execCellarTimer s₀) := by
  unfold execCellarTimer
  with_reducible repeat' first
    | assumption | apply OutKeeps.next | apply OutKeeps.fault | exact Follows.refl _ | apply State.wakeSource_follows | split | dsimp only

theorem execI3cPrivateWrite_keeps (s₀ : State) : OutKeeps s₀ (execI3cPrivateWrite s₀) := by
  unfold execI3cPrivateWrite
  with_reducible repeat' first
    | assumption | apply OutKeeps.next | apply OutKeeps.fault | exact Follows.refl _ | apply State.wakeSource_follows | split | dsimp only

theorem execShedTrip_keeps (t : Fin 5) (s₀ : State) : OutKeeps s₀ (execShedTrip t s₀) := by
  unfold execShedTrip
  with_reducible repeat' first
    | assumption | apply OutKeeps.next | apply OutKeeps.fault | exact Follows.refl _ | apply State.incReg_follows | apply State.noteWake_follows | apply State.syncPower_follows | apply State.wakeSource_follows
    | apply State.protectedOff_follows | apply State.shedRecord_follows | simp only [Follows.same] | split | dsimp only

theorem execShedClear_keeps (t : Fin 5) (s₀ : State) : OutKeeps s₀ (execShedClear t s₀) := by
  unfold execShedClear
  with_reducible repeat' first
    | assumption | apply OutKeeps.next | apply OutKeeps.fault | exact Follows.refl _ | apply State.endHolds_follows | apply State.syncPower_follows | apply State.wakeSource_follows | apply State.heldWake_follows
    | apply State.shedRecord_follows | simp only [Follows.same] | split | dsimp only

theorem execInputSample_keeps (v i p : Fin 65536) (s₀ : State) : OutKeeps s₀ (execInputSample v i p s₀) := by
  unfold execInputSample
  with_reducible repeat' first
    | assumption | apply OutKeeps.next | apply OutKeeps.fault | exact Follows.refl _ | apply State.setReg_follows | apply State.ratio_follows | simp only [Follows.same] | refine Follows.of_fst (by assumption) ?_
    | refine Follows.of_snd (by assumption) ?_ | split | dsimp only

theorem execCapCheck_keeps (s₀ : State) : OutKeeps s₀ (execCapCheck s₀) := by
  unfold execCapCheck
  with_reducible repeat' first
    | assumption | apply OutKeeps.next | apply OutKeeps.fault | exact Follows.refl _ | apply State.incReg_follows | apply State.setFlag_follows | apply State.syncPower_follows | simp only [Follows.same] | split
    | dsimp only

theorem execTelemetryRecord_keeps (s₀ : State) : OutKeeps s₀ (execTelemetryRecord s₀) := by
  unfold execTelemetryRecord
  with_reducible repeat' first
    | assumption | apply OutKeeps.next | apply OutKeeps.fault | exact Follows.refl _ | apply State.setReg_follows | apply State.incReg_follows | apply State.hostStore_follows | apply State.ratio_follows
    | simp only [Follows.same] | refine Follows.of_fst (by assumption) ?_ | refine Follows.of_snd (by assumption) ?_ | split | dsimp only

theorem execThermalSample_keeps (l : List (Fin 256)) (s₀ : State) : OutKeeps s₀ (execThermalSample l s₀) := by
  unfold execThermalSample
  with_reducible repeat' first
    | assumption | apply OutKeeps.next | apply OutKeeps.fault | exact Follows.refl _ | apply State.setReg_follows | apply State.ratio_follows | apply State.thermalCheck_follows | simp only [Follows.same]
    | apply Follows.foldl | apply Follows.foldl_fst | apply Follows.foldl_snd | intro _ | refine Follows.of_fst (by assumption) ?_
    | refine Follows.of_snd (by assumption) ?_ | split | dsimp only

theorem execThermalStep_keeps (s₀ : State) : OutKeeps s₀ (execThermalStep s₀) := by
  unfold execThermalStep
  with_reducible repeat' first
    | assumption | apply OutKeeps.next | apply OutKeeps.fault | exact Follows.refl _ | apply State.syncPower_follows | apply State.thermalCheck_follows | simp only [Follows.same] | split | dsimp only

theorem execCoreStepWrite_keeps (v : Word) (s₀ : State) : OutKeeps s₀ (execCoreStepWrite v s₀) := by
  unfold execCoreStepWrite
  with_reducible repeat' first
    | assumption | apply OutKeeps.next | apply OutKeeps.fault | exact Follows.refl _ | apply State.clkWrite_follows | split | dsimp only

theorem execCoreSrc_keeps (v : Word) (s₀ : State) : OutKeeps s₀ (execCoreSrc v s₀) := by
  unfold execCoreSrc
  with_reducible repeat' first
    | assumption | apply OutKeeps.next | apply OutKeeps.fault | exact Follows.refl _ | apply State.clkWrite_follows | split | dsimp only

theorem execRootPllLock_keeps (s₀ : State) : OutKeeps s₀ (execRootPllLock s₀) := by
  unfold execRootPllLock
  with_reducible repeat' first
    | assumption | apply OutKeeps.next | apply OutKeeps.fault | exact Follows.refl _ | apply State.setFlag_follows | apply State.syncPower_follows | apply State.bootWaits_follows | split | dsimp only

theorem execRefclkLoss_keeps (s₀ : State) : OutKeeps s₀ (execRefclkLoss s₀) := by
  unfold execRefclkLoss
  with_reducible repeat' first
    | assumption | apply OutKeeps.next | apply OutKeeps.fault | exact Follows.refl _ | apply State.setFlag_follows | apply State.internal_follows | split | dsimp only

theorem execRefclkReturn_keeps (s₀ : State) : OutKeeps s₀ (execRefclkReturn s₀) := by
  unfold execRefclkReturn
  with_reducible repeat' first
    | assumption | apply OutKeeps.next | apply OutKeeps.fault | exact Follows.refl _ | apply State.setFlag_follows | split | dsimp only

theorem execRootLockLoss_keeps (s₀ : State) : OutKeeps s₀ (execRootLockLoss s₀) := by
  unfold execRootLockLoss
  with_reducible repeat' first
    | assumption | apply OutKeeps.next | apply OutKeeps.fault | exact Follows.refl _ | apply State.setReg_follows | apply State.setFlag_follows | apply State.protectedOff_follows | apply State.latch_follows | split
    | dsimp only

theorem execHeartbeatMiss_keeps (last : Word) (s₀ : State) : OutKeeps s₀ (execHeartbeatMiss last s₀) := by
  unfold execHeartbeatMiss
  with_reducible repeat' first
    | assumption | apply OutKeeps.next | apply OutKeeps.fault | exact Follows.refl _ | apply State.latch_follows | split | dsimp only

theorem execLockstepMismatch_keeps (cycle : Word) (s₀ : State) : OutKeeps s₀ (execLockstepMismatch cycle s₀) := by
  unfold execLockstepMismatch
  with_reducible repeat' first
    | assumption | apply OutKeeps.next | apply OutKeeps.fault | exact Follows.refl _ | apply State.latch_follows | split | dsimp only

theorem execLaunch_keeps (i : Nat) (s₀ : State) : OutKeeps s₀ (execLaunch i s₀) := by
  unfold execLaunch
  with_reducible repeat' first
    | assumption | apply OutKeeps.next | apply OutKeeps.fault | exact Follows.refl _ | apply State.setSlot_follows | apply State.setRun_follows | apply State.endSlot_follows | apply State.enterQueues_follows
    | simp only [Follows.same] | split | dsimp only

theorem execLaunchStart_keeps (k : Fin 256) (s₀ : State) : OutKeeps s₀ (execLaunchStart k s₀) := by
  unfold execLaunchStart
  with_reducible repeat' first
    | assumption | apply OutKeeps.next | apply OutKeeps.fault | exact Follows.refl _ | apply State.markDead_follows | apply State.descNotes_follows | apply State.loadProg_follows | apply State.beginRun_follows
    | apply State.beginBuiltin_follows | apply State.askProg_follows | apply State.progCame_follows | simp only [Follows.same]
    | refine Follows.of_fst (by assumption) ?_ | refine Follows.of_snd (by assumption) ?_ | split | dsimp only

theorem execLaunchComplete_keeps (i : Nat) (s₀ : State) : OutKeeps s₀ (execLaunchComplete i s₀) := by
  unfold execLaunchComplete
  with_reducible repeat' first
    | assumption | apply OutKeeps.next | apply OutKeeps.fault | exact Follows.refl _ | apply State.endSlot_follows | apply State.stage_follows | refine Follows.of_fst (by assumption) ?_
    | refine Follows.of_snd (by assumption) ?_ | split | dsimp only

theorem execWatchdogExpiry_keeps (i : Nat) (s₀ : State) : OutKeeps s₀ (execWatchdogExpiry i s₀) := by
  unfold execWatchdogExpiry
  with_reducible repeat' first
    | assumption | apply OutKeeps.next | apply OutKeeps.fault | exact Follows.refl _ | apply State.raise_follows | apply State.cancelLaunch_follows | split | dsimp only

theorem execHalt_keeps (k : Fin 256) (v : Word) (s₀ : State) : OutKeeps s₀ (execHalt k v s₀) := by
  unfold execHalt
  with_reducible repeat' first
    | assumption | apply OutKeeps.next | apply OutKeeps.fault | exact Follows.refl _ | apply State.coreCtlWrite_follows | split | dsimp only

theorem execProgFlush_keeps (k : Fin 256) (halt : Bool) (s₀ : State) : OutKeeps s₀ (execProgFlush k halt s₀) := by
  unfold execProgFlush
  with_reducible repeat' first
    | assumption | apply OutKeeps.next | apply OutKeeps.fault | exact Follows.refl _ | apply State.coreCtlWrite_follows | split | dsimp only

theorem execMove_keeps (i : Nat) (s₀ : State) : OutKeeps s₀ (execMove i s₀) := by
  unfold execMove
  with_reducible repeat' first
    | assumption | apply OutKeeps.next | apply OutKeeps.fault | exact Follows.refl _ | apply State.endSlot_follows | apply State.fetchTensors_follows | apply State.enterOn_follows | apply State.moverFail_follows
    | apply State.mvGo_follows | apply State.mvStart_follows | simp only [Follows.same] | refine Follows.of_fst (by assumption) ?_
    | refine Follows.of_snd (by assumption) ?_ | split | dsimp only

theorem execGather_keeps (i : Nat) (s₀ : State) : OutKeeps s₀ (execGather i s₀) := by
  unfold execGather
  with_reducible repeat' first
    | assumption | apply OutKeeps.next | apply OutKeeps.fault | exact Follows.refl _ | apply State.endSlot_follows | apply State.fetchTensors_follows | apply State.moverFail_follows | apply State.moverLoads_follows
    | apply State.gaGo_follows | simp only [Follows.same] | refine Follows.of_fst (by assumption) ?_ | refine Follows.of_snd (by assumption) ?_
    | split | dsimp only

theorem execScatter_keeps (i : Nat) (s₀ : State) : OutKeeps s₀ (execScatter i s₀) := by
  unfold execScatter
  with_reducible repeat' first
    | assumption | apply OutKeeps.next | apply OutKeeps.fault | exact Follows.refl _ | apply State.setSlot_follows | apply State.endSlot_follows | apply State.fetchTensors_follows | apply State.enterBuiltin_follows
    | apply State.enterOn_follows | apply State.moverFail_follows | apply State.scGo_follows | apply State.stage_follows
    | simp only [Follows.same] | refine Follows.of_fst (by assumption) ?_ | refine Follows.of_snd (by assumption) ?_ | split | dsimp only

theorem execGenHoldExpiry_keeps (layer gen : Nat) (s₀ : State) : OutKeeps s₀ (execGenHoldExpiry layer gen s₀) := by
  unfold execGenHoldExpiry
  with_reducible repeat' first
    | assumption | apply OutKeeps.next | apply OutKeeps.fault | exact Follows.refl _ | simp only [Follows.same] | split | dsimp only

theorem execFwdDispatch_keeps (i : Nat) (s₀ : State) : OutKeeps s₀ (execFwdDispatch i s₀) := by
  unfold execFwdDispatch
  with_reducible repeat' first
    | assumption | apply OutKeeps.next | apply OutKeeps.fault | exact Follows.refl _ | apply State.xEnd_follows | apply State.sluGo_follows | apply State.fwdBegin_follows | split | dsimp only

theorem execBwdDispatch_keeps (i : Nat) (s₀ : State) : OutKeeps s₀ (execBwdDispatch i s₀) := by
  unfold execBwdDispatch
  with_reducible repeat' first
    | assumption | apply OutKeeps.next | apply OutKeeps.fault | exact Follows.refl _ | apply State.xEnd_follows | apply State.sluGo_follows | apply State.bwdBegin_follows | split | dsimp only

theorem execFwdCombine_keeps (i : Nat) (s₀ : State) : OutKeeps s₀ (execFwdCombine i s₀) := by
  unfold execFwdCombine
  with_reducible repeat' first
    | assumption | apply OutKeeps.next | apply OutKeeps.fault | exact Follows.refl _ | apply State.xEnd_follows | apply State.sluGo_follows | apply State.combBegin_follows | split | dsimp only

theorem execBwdCombine_keeps (i : Nat) (s₀ : State) : OutKeeps s₀ (execBwdCombine i s₀) := by
  unfold execBwdCombine
  with_reducible repeat' first
    | assumption | apply OutKeeps.next | apply OutKeeps.fault | exact Follows.refl _ | apply State.xEnd_follows | apply State.sluGo_follows | apply State.combBegin_follows | split | dsimp only

theorem execCancel_keeps (i : Nat) (s₀ : State) : OutKeeps s₀ (execCancel i s₀) := by
  unfold execCancel
  with_reducible repeat' first
    | assumption | apply OutKeeps.next | apply OutKeeps.fault | exact Follows.refl _ | apply State.incReg_follows | apply State.endRound_follows | apply State.xEnd_follows | apply State.xStop_follows
    | simp only [Follows.same] | refine Follows.of_fst (by assumption) ?_ | refine Follows.of_snd (by assumption) ?_ | split | dsimp only

theorem execReservation_keeps (m : SluMsg) (s₀ : State) : OutKeeps s₀ (execReservation m s₀) := by
  unfold execReservation
  with_reducible repeat' first
    | assumption | apply OutKeeps.next | apply OutKeeps.fault | exact Follows.refl _ | apply State.setServed_follows | apply State.sluTake_follows | apply State.sluRefuse_follows | apply State.sluBack_follows
    | apply State.seat_follows | apply State.reply_follows | simp only [Follows.same] | intro _ | refine Follows.of_fst (by assumption) ?_
    | refine Follows.of_snd (by assumption) ?_ | split | dsimp only

theorem execCountMessage_keeps (m : SluMsg) (s₀ : State) : OutKeeps s₀ (execCountMessage m s₀) := by
  unfold execCountMessage
  with_reducible repeat' first
    | assumption | apply OutKeeps.next | apply OutKeeps.fault | exact Follows.refl _ | apply State.setServed_follows | apply State.sluTake_follows | apply State.sluRefuse_follows | apply State.sluBack_follows
    | apply State.seat_follows | apply State.tryStep_follows | simp only [Follows.same] | intro _ | refine Follows.of_fst (by assumption) ?_
    | refine Follows.of_snd (by assumption) ?_ | split | dsimp only

theorem execCountTimeout_keeps (layer gen slot step : Nat) (s₀ : State) : OutKeeps s₀ (execCountTimeout layer gen slot step s₀) := by
  unfold execCountTimeout
  with_reducible repeat' first
    | assumption | apply OutKeeps.next | apply OutKeeps.fault | exact Follows.refl _ | apply State.answerStep_follows | apply State.tryStep_follows | simp only [Follows.same] | split | dsimp only

theorem execReservationReply_keeps (m : SluMsg) (s₀ : State) : OutKeeps s₀ (execReservationReply m s₀) := by
  unfold execReservationReply
  with_reducible repeat' first
    | assumption | apply OutKeeps.next | apply OutKeeps.fault | exact Follows.refl _ | apply State.setRound_follows | apply State.dropKept_follows | apply State.modExch_follows | apply State.dropTry_follows
    | apply State.verdict_follows | apply State.sluGo_follows | apply State.sluTake_follows | apply State.browTaken_follows
    | apply State.reply_follows | simp only [Follows.same] | intro _ | split | dsimp only

theorem execOffsetsReply_keeps (m : SluMsg) (s₀ : State) : OutKeeps s₀ (execOffsetsReply m s₀) := by
  unfold execOffsetsReply
  with_reducible repeat' first
    | assumption | apply OutKeeps.next | apply OutKeeps.fault | exact Follows.refl _ | apply State.dropKept_follows | apply State.verdict_follows | apply State.sluGo_follows | apply State.sluTake_follows
    | simp only [Follows.same] | apply Follows.foldl | apply Follows.foldl_fst | apply Follows.foldl_snd | intro _ | split | dsimp only

theorem execTokenRow_keeps (m : SluMsg) (s₀ : State) : OutKeeps s₀ (execTokenRow m s₀) := by
  unfold execTokenRow
  with_reducible repeat' first
    | assumption | apply OutKeeps.next | apply OutKeeps.fault | exact Follows.refl _ | apply State.putArrived_follows | apply State.setServed_follows | apply State.sluTake_follows | apply State.sluBack_follows
    | apply State.reply_follows | simp only [Follows.same] | intro _ | split | dsimp only

theorem execBackwardRow_keeps (m : SluMsg) (s₀ : State) : OutKeeps s₀ (execBackwardRow m s₀) := by
  unfold execBackwardRow
  with_reducible repeat' first
    | assumption | apply OutKeeps.next | apply OutKeeps.fault | exact Follows.refl _ | apply State.incReg_follows | apply State.memWrite_follows | refine State.alloc_follows _ _ ?_ (by assumption) | refine State.allocIf_follows ?_ (by assumption)
    | apply State.putArrived_follows | apply State.setServed_follows | apply State.bwdRows_follows | apply State.sluTake_follows
    | apply State.sluRefuse_follows | apply State.sluBack_follows | apply State.reply_follows | simp only [Follows.same] | intro _
    | refine Follows.of_fst (by assumption) ?_ | refine Follows.of_snd (by assumption) ?_ | split | dsimp only

theorem execDoneMarker_keeps (m : SluMsg) (s₀ : State) : OutKeeps s₀ (execDoneMarker m s₀) := by
  unfold execDoneMarker
  with_reducible repeat' first
    | assumption | apply OutKeeps.next | apply OutKeeps.fault | exact Follows.refl _ | apply State.sluWake_follows | apply State.sluTake_follows | simp only [Follows.same] | intro _ | split | dsimp only

theorem execAnswer_keeps (m : SluMsg) (s₀ : State) : OutKeeps s₀ (execAnswer m s₀) := by
  unfold execAnswer
  with_reducible repeat' first
    | assumption | apply OutKeeps.next | apply OutKeeps.fault | exact Follows.refl _ | apply State.incReg_follows | apply State.putRoute_follows | apply State.answer_follows | apply State.sluGo_follows
    | apply State.sluTake_follows | apply State.sluRefuse_follows | apply State.sluBack_follows | apply State.applyAnswer_follows
    | simp only [Follows.same] | intro _ | split | dsimp only

theorem execAnswerAck_keeps (m : SluMsg) (s₀ : State) : OutKeeps s₀ (execAnswerAck m s₀) := by
  unfold execAnswerAck
  with_reducible repeat' first
    | assumption | apply OutKeeps.next | apply OutKeeps.fault | exact Follows.refl _ | apply State.answer_follows | apply State.dropKept_follows | apply State.answersGone_follows | apply State.closeReturned_follows
    | apply State.sluWake_follows | apply State.sluTake_follows | apply State.rw_follows | simp only [Follows.same] | intro _ | split | dsimp only

theorem execMessageRetry_keeps (n : Nat) (empty : Bool) (s₀ : State) : OutKeeps s₀ (execMessageRetry n empty s₀) := by
  unfold execMessageRetry
  with_reducible repeat' first
    | assumption | apply OutKeeps.next | apply OutKeeps.fault | exact Follows.refl _ | apply State.sendAgain_follows | apply State.giveUp_follows | apply State.stage_follows | simp only [Follows.same] | split
    | dsimp only

theorem execCollectiveGather_keeps (i : Nat) (s₀ : State) : OutKeeps s₀ (execCollectiveGather i s₀) := by
  unfold execCollectiveGather
  with_reducible repeat' first
    | assumption | apply OutKeeps.next | apply OutKeeps.fault | exact Follows.refl _ | apply State.incReg_follows | apply State.descWrite_follows | apply State.fetchTensors_follows
    | refine State.alloc_follows _ _ ?_ (by assumption) | apply State.parkOr_follows | apply State.cEnd_follows | apply State.gatherStart_follows
    | apply State.gatherGo_follows | apply State.stage_follows | simp only [Follows.same] | apply Follows.foldl | apply Follows.foldl_fst
    | apply Follows.foldl_snd | intro _ | refine Follows.of_fst (by assumption) ?_ | refine Follows.of_snd (by assumption) ?_ | apply Follows.ite
    | split | dsimp only

theorem execCollectiveRelease_keeps (i : Nat) (s₀ : State) : OutKeeps s₀ (execCollectiveRelease i s₀) := by
  unfold execCollectiveRelease
  with_reducible repeat' first
    | assumption | apply OutKeeps.next | apply OutKeeps.fault | exact Follows.refl _ | apply State.fetchTabs_follows | apply State.dropRef_follows | apply State.cEnd_follows | simp only [Follows.same]
    | refine Follows.of_fst (by assumption) ?_ | refine Follows.of_snd (by assumption) ?_ | split | dsimp only

theorem execCollectiveReduce_keeps (i : Nat) (s₀ : State) : OutKeeps s₀ (execCollectiveReduce i s₀) := by
  unfold execCollectiveReduce
  with_reducible repeat' first
    | assumption | apply OutKeeps.next | apply OutKeeps.fault | exact Follows.refl _ | apply State.cEnd_follows | apply State.colGo_follows | apply State.redBegin_follows | split | dsimp only

theorem execContribution_keeps (m : ColMsg) (s₀ : State) : OutKeeps s₀ (execContribution m s₀) := by
  unfold execContribution
  with_reducible repeat' first
    | assumption | apply OutKeeps.next | apply OutKeeps.fault | exact Follows.refl _ | apply State.takeLoop_follows | apply State.refuseMsg_follows | apply State.lateDrop_follows | apply State.colReply_follows
    | apply State.lateChunk_follows | apply State.stage_follows | simp only [Follows.same] | refine Follows.of_fst (by assumption) ?_
    | refine Follows.of_snd (by assumption) ?_ | split | dsimp only

theorem execContributionReply_keeps (m : ColMsg) (s₀ : State) : OutKeeps s₀ (execContributionReply m s₀) := by
  unfold execContributionReply
  with_reducible repeat' first
    | assumption | apply OutKeeps.next | apply OutKeeps.fault | exact Follows.refl _ | apply State.takeLoop_follows | apply State.resolve_follows | apply State.colGo_follows | apply State.reply_follows
    | simp only [Follows.same] | refine Follows.of_fst (by assumption) ?_ | refine Follows.of_snd (by assumption) ?_ | split | dsimp only

theorem execDeadlineClose_keeps (i : Nat) (s₀ : State) : OutKeeps s₀ (execDeadlineClose i s₀) := by
  unfold execDeadlineClose
  with_reducible repeat' first
    | assumption | apply OutKeeps.next | apply OutKeeps.fault | exact Follows.refl _ | apply State.closeClass_follows | split | dsimp only

theorem execDoorDeadlineClose_keeps (i : Nat) (s₀ : State) : OutKeeps s₀ (execDoorDeadlineClose i s₀) := by
  unfold execDoorDeadlineClose
  with_reducible repeat' first
    | assumption | apply OutKeeps.next | apply OutKeeps.fault | exact Follows.refl _ | apply State.closeClass_follows | split | dsimp only

theorem execProbeTimeout_keeps (i house room : Nat) (s₀ : State) : OutKeeps s₀ (execProbeTimeout i house room s₀) := by
  unfold execProbeTimeout
  with_reducible repeat' first
    | assumption | apply OutKeeps.next | apply OutKeeps.fault | exact Follows.refl _ | apply State.setRed_follows | apply State.colGo_follows | simp only [Follows.same] | split | dsimp only

theorem execStageRetry_keeps (n : Nat) (s₀ : State) : OutKeeps s₀ (execStageRetry n s₀) := by
  unfold execStageRetry
  with_reducible repeat' first
    | assumption | apply OutKeeps.next | apply OutKeeps.fault | exact Follows.refl _ | apply State.sendAgain_follows | apply State.stage_follows | simp only [Follows.same] | split | dsimp only

theorem execSquant_keeps (k : Fin 256) (s₀ : State) : OutKeeps s₀ (execSquant k s₀) := by
  unfold execSquant
  with_reducible repeat' first
    | assumption | apply OutKeeps.next | apply OutKeeps.fault | exact Follows.refl _ | apply State.scaleOp_follows | split | dsimp only

theorem execSamax_keeps (k : Fin 256) (s₀ : State) : OutKeeps s₀ (execSamax k s₀) := by
  unfold execSamax
  with_reducible repeat' first
    | assumption | apply OutKeeps.next | apply OutKeeps.fault | exact Follows.refl _ | apply State.scaleOp_follows | split | dsimp only

theorem execShist_keeps (k : Fin 256) (s₀ : State) : OutKeeps s₀ (execShist k s₀) := by
  unfold execShist
  with_reducible repeat' first
    | assumption | apply OutKeeps.next | apply OutKeeps.fault | exact Follows.refl _ | apply State.scaleOp_follows | split | dsimp only

theorem execSconv_keeps (k : Fin 256) (s₀ : State) : OutKeeps s₀ (execSconv k s₀) := by
  unfold execSconv
  with_reducible repeat' first
    | assumption | apply OutKeeps.next | apply OutKeeps.fault | exact Follows.refl _ | apply State.scaleOp_follows | split | dsimp only

theorem execVxComplete_keeps (k : Fin 256) (s₀ : State) : OutKeeps s₀ (execVxComplete k s₀) := by
  unfold execVxComplete
  with_reducible repeat' first
    | assumption | apply OutKeeps.next | apply OutKeeps.fault | exact Follows.refl _ | apply State.incReg_follows | apply State.setCore_follows | apply State.handleNotes_follows | apply State.settle_follows
    | apply State.markDead_follows | apply State.instrDone_follows | apply State.resident_follows | apply State.vxWrite_follows
    | apply State.scaleWrite_follows | apply State.supplyLost_follows | simp only [Follows.same] | refine Follows.of_fst (by assumption) ?_
    | refine Follows.of_snd (by assumption) ?_ | split | dsimp only

theorem execCancelRing_keeps (n : Fin 4096) (s₀ : State) : OutKeeps s₀ (execCancelRing n s₀) := by
  unfold execCancelRing
  with_reducible repeat' first
    | assumption | apply OutKeeps.next | apply OutKeeps.fault | exact Follows.refl _ | apply State.cancelRing_follows | split | dsimp only

theorem execCancelAll_keeps (s₀ : State) : OutKeeps s₀ (execCancelAll s₀) := by
  unfold execCancelAll
  with_reducible repeat' first
    | assumption | apply OutKeeps.next | apply OutKeeps.fault | exact Follows.refl _ | apply State.cancelAll_follows | split | dsimp only

theorem execDoorbell_keeps (page : Fin 4096) (size : Nat) (v : Word) (host : Cells) (s₀ : State) : OutKeeps s₀ (execDoorbell page size v host s₀) := by
  unfold execDoorbell
  with_reducible repeat' first
    | assumption | apply OutKeeps.next | apply OutKeeps.fault | exact Follows.refl _ | apply State.setReg_follows | apply State.incReg_follows | apply State.hostCells_follows | apply State.wakeSource_follows
    | split | dsimp only

theorem execRingCfgWrite_keeps (keeper : Bool) (n : Fin 4096) (v : Word) (s₀ : State) : OutKeeps s₀ (execRingCfgWrite keeper n v s₀) := by
  unfold execRingCfgWrite
  with_reducible repeat' first
    | assumption | apply OutKeeps.next | apply OutKeeps.fault | exact Follows.refl _ | apply State.ringCfgWrite_follows | apply State.keeperRing_follows | split | dsimp only

theorem execCqCfgWrite_keeps (m : Fin 257) (v : Word) (s₀ : State) : OutKeeps s₀ (execCqCfgWrite m v s₀) := by
  unfold execCqCfgWrite
  with_reducible repeat' first
    | assumption | apply OutKeeps.next | apply OutKeeps.fault | exact Follows.refl _ | apply State.cqWrite_follows | split | dsimp only

theorem execCqHeadWrite_keeps (m : Fin 257) (v : Word) (s₀ : State) : OutKeeps s₀ (execCqHeadWrite m v s₀) := by
  unfold execCqHeadWrite
  with_reducible repeat' first
    | assumption | apply OutKeeps.next | apply OutKeeps.fault | exact Follows.refl _ | apply State.setReg_follows | apply State.flushRecords_follows | split | dsimp only

theorem execTelemHeadWrite_keeps (v : Word) (s₀ : State) : OutKeeps s₀ (execTelemHeadWrite v s₀) := by
  unfold execTelemHeadWrite
  with_reducible repeat' first
    | assumption | apply OutKeeps.next | apply OutKeeps.fault | exact Follows.refl _ | apply State.setReg_follows | split | dsimp only

theorem execIrqPendingClear_keeps (v : Word) (s₀ : State) : OutKeeps s₀ (execIrqPendingClear v s₀) := by
  unfold execIrqPendingClear
  with_reducible repeat' first
    | assumption | apply OutKeeps.next | apply OutKeeps.fault | exact Follows.refl _ | apply State.irqClear_follows | split | dsimp only

theorem execIrqMaskWrite_keeps (v : Word) (s₀ : State) : OutKeeps s₀ (execIrqMaskWrite v s₀) := by
  unfold execIrqMaskWrite
  with_reducible repeat' first
    | assumption | apply OutKeeps.next | apply OutKeeps.fault | exact Follows.refl _ | apply State.maskWrite_follows | split | dsimp only

theorem execIrqDelayExpiry_keeps (m : Fin 257) (s₀ : State) : OutKeeps s₀ (execIrqDelayExpiry m s₀) := by
  unfold execIrqDelayExpiry
  with_reducible repeat' first
    | assumption | apply OutKeeps.next | apply OutKeeps.fault | exact Follows.refl _ | apply State.raiseVec_follows | simp only [Follows.same] | split | dsimp only

theorem execHostLinkDown_keeps (s₀ : State) : OutKeeps s₀ (execHostLinkDown s₀) := by
  unfold execHostLinkDown
  with_reducible repeat' first
    | assumption | apply OutKeeps.next | apply OutKeeps.fault | exact Follows.refl _ | apply State.setReg_follows | apply State.setFlag_follows | split | dsimp only

theorem execHostLinkUp_keeps (lanes : Fin 256) (rate : Fin 4) (s₀ : State) : OutKeeps s₀ (execHostLinkUp lanes rate s₀) := by
  unfold execHostLinkUp
  with_reducible repeat' first
    | assumption | apply OutKeeps.next | apply OutKeeps.fault | exact Follows.refl _ | apply State.setReg_follows | apply State.incReg_follows | apply State.setFlag_follows | apply State.bootWaits_follows
    | apply State.flushRecords_follows | simp only [Follows.same] | split | dsimp only

theorem execLinkHoldExpiry_keeps (s₀ : State) : OutKeeps s₀ (execLinkHoldExpiry s₀) := by
  unfold execLinkHoldExpiry
  with_reducible repeat' first
    | assumption | apply OutKeeps.next | apply OutKeeps.fault | exact Follows.refl _ | apply State.cancelAll_follows | split | dsimp only

theorem execHostReadError_keeps (slot : Option Nat) (a n : Nat) (s₀ : State) : OutKeeps s₀ (execHostReadError slot a n s₀) := by
  unfold execHostReadError
  with_reducible repeat' first
    | assumption | apply OutKeeps.next | apply OutKeeps.fault | exact Follows.refl _ | apply State.setReg_follows | apply State.incReg_follows | apply State.raise_follows | apply State.setSlot_follows
    | apply State.stage_follows | simp only [Follows.same] | split | dsimp only

theorem execJobAssign_keeps (v : Word) (s₀ : State) : OutKeeps s₀ (execJobAssign v s₀) := by
  unfold execJobAssign
  with_reducible repeat' first
    | assumption | apply OutKeeps.next | apply OutKeeps.fault | exact Follows.refl _ | apply State.jobAssign_follows | split | dsimp only

theorem execAssignmentComplete_keeps (s₀ : State) : OutKeeps s₀ (execAssignmentComplete s₀) := by
  unfold execAssignmentComplete
  with_reducible repeat' first
    | assumption | apply OutKeeps.next | apply OutKeeps.fault | exact Follows.refl _ | apply State.leaveIdle_follows | apply State.setFlag_follows | apply State.freePools_follows | apply State.loseMem_follows | apply State.syncPower_follows
    | apply State.clearWindows_follows | apply State.clearHists_follows | simp only [Follows.same] | apply Follows.foldl | apply Follows.foldl_fst
    | apply Follows.foldl_snd | intro _ | split | dsimp only

theorem execJobRelease_keeps (s₀ : State) : OutKeeps s₀ (execJobRelease s₀) := by
  unfold execJobRelease
  with_reducible repeat' first
    | assumption | apply OutKeeps.next | apply OutKeeps.fault | exact Follows.refl _ | apply State.jobRelease_follows | split | dsimp only

theorem execOwnershipRevoke_keeps (s₀ : State) : OutKeeps s₀ (execOwnershipRevoke s₀) := by
  unfold execOwnershipRevoke
  with_reducible repeat' first
    | assumption | apply OutKeeps.next | apply OutKeeps.fault | exact Follows.refl _ | apply State.cancelRing_follows | apply State.jobOff_follows | apply Follows.foldl | apply Follows.foldl_fst
    | apply Follows.foldl_snd | intro _ | split | dsimp only

theorem execSclSeedValue_keeps (h : Fin 1024) (v : Word32) (s₀ : State) : OutKeeps s₀ (execSclSeedValue h v s₀) := by
  unfold execSclSeedValue
  with_reducible repeat' first
    | assumption | apply OutKeeps.next | apply OutKeeps.fault | exact Follows.refl _ | apply State.seedWrite_follows | split | dsimp only

theorem execSclSeedClear_keeps (h : Fin 1024) (s₀ : State) : OutKeeps s₀ (execSclSeedClear h s₀) := by
  unfold execSclSeedClear
  with_reducible repeat' first
    | assumption | apply OutKeeps.next | apply OutKeeps.fault | exact Follows.refl _ | apply State.seedWrite_follows | split | dsimp only

theorem execDipCtlWrite_keeps (keeper : Bool) (v : Word) (s₀ : State) : OutKeeps s₀ (execDipCtlWrite keeper v s₀) := by
  unfold execDipCtlWrite
  with_reducible repeat' first
    | assumption | apply OutKeeps.next | apply OutKeeps.fault | exact Follows.refl _ | apply State.dipCtlWrite_follows | split | dsimp only

theorem execFltAlertClear_keeps (v : Word) (s₀ : State) : OutKeeps s₀ (execFltAlertClear v s₀) := by
  unfold execFltAlertClear
  with_reducible repeat' first
    | assumption | apply OutKeeps.next | apply OutKeeps.fault | exact Follows.refl _ | apply State.alertClear_follows | split | dsimp only

theorem execPatrolScrub_keeps (stack : Fin 16) (chan : Fin 128) (byte : Fin (2 ^ 30)) (err : Fin 3) (s₀ : State) : OutKeeps s₀ (execPatrolScrub stack chan byte err s₀) := by
  unfold execPatrolScrub
  with_reducible repeat' first
    | assumption | apply OutKeeps.next | apply OutKeeps.fault | exact Follows.refl _ | apply State.setReg_follows | apply State.incReg_follows | apply State.noteUe_follows | apply State.noteFailed_follows
    | simp only [Follows.same] | split | dsimp only

theorem execStackThrottle_keeps (stack : Fin 16) (t : Fin 256) (s₀ : State) : OutKeeps s₀ (execStackThrottle stack t s₀) := by
  unfold execStackThrottle
  with_reducible repeat' first
    | assumption | apply OutKeeps.next | apply OutKeeps.fault | exact Follows.refl _ | apply State.setField_follows | split | dsimp only

theorem execChannelFailed_keeps (stack : Fin 16) (chan : Fin 128) (s₀ : State) : OutKeeps s₀ (execChannelFailed stack chan s₀) := by
  unfold execChannelFailed
  with_reducible repeat' first
    | assumption | apply OutKeeps.next | apply OutKeeps.fault | exact Follows.refl _ | apply State.declareFailed_follows | split | dsimp only

theorem execMemMapoutReq_keeps (v : Word) (s₀ : State) : OutKeeps s₀ (execMemMapoutReq v s₀) := by
  unfold execMemMapoutReq
  with_reducible repeat' first
    | assumption | apply OutKeeps.next | apply OutKeeps.fault | exact Follows.refl _ | apply State.mapoutReq_follows | split | dsimp only

theorem execPlacementWrite_keeps (keeper : Bool) (v : Word) (s₀ : State) : OutKeeps s₀ (execPlacementWrite keeper v s₀) := by
  unfold execPlacementWrite
  with_reducible repeat' first
    | assumption | apply OutKeeps.next | apply OutKeeps.fault | exact Follows.refl _ | apply State.memCtlWrite_follows | split | dsimp only

theorem execLarderCfgWrite_keeps (keeper : Bool) (v : Word) (s₀ : State) : OutKeeps s₀ (execLarderCfgWrite keeper v s₀) := by
  unfold execLarderCfgWrite
  with_reducible repeat' first
    | assumption | apply OutKeeps.next | apply OutKeeps.fault | exact Follows.refl _ | apply State.larderCfgWrite_follows | split | dsimp only

theorem execPowerUp_keeps (s₀ : State) : OutKeeps s₀ (execPowerUp s₀) := by
  unfold execPowerUp
  with_reducible repeat' first
    | assumption | apply OutKeeps.next | apply OutKeeps.fault | exact Follows.refl _ | apply State.loadFuses_follows | apply State.loadStacks_follows | apply State.afresh_follows | simp only [Follows.same] | split
    | dsimp only

theorem execHotSwapOpen_keeps (s₀ : State) : OutKeeps s₀ (execHotSwapOpen s₀) := by
  unfold execHotSwapOpen
  with_reducible repeat' first
    | assumption | apply OutKeeps.next | apply OutKeeps.fault | exact Follows.refl _ | apply State.afresh_follows | simp only [Follows.same] | split | dsimp only

theorem execDeviceReset_keeps (s₀ : State) : OutKeeps s₀ (execDeviceReset s₀) := by
  unfold execDeviceReset
  with_reducible repeat' first
    | assumption | apply OutKeeps.next | apply OutKeeps.fault | exact Follows.refl _ | apply State.resetTo_follows | split | dsimp only

theorem execMaintenanceReset_keeps (s₀ : State) : OutKeeps s₀ (execMaintenanceReset s₀) := by
  unfold execMaintenanceReset
  with_reducible repeat' first
    | assumption | apply OutKeeps.next | apply OutKeeps.fault | exact Follows.refl _ | apply State.resetTo_follows | split | dsimp only

theorem execResetN_keeps (s₀ : State) : OutKeeps s₀ (execResetN s₀) := by
  unfold execResetN
  with_reducible repeat' first
    | assumption | apply OutKeeps.next | apply OutKeeps.fault | exact Follows.refl _ | apply State.resetTo_follows | simp only [Follows.same] | split | dsimp only

theorem execResetNRelease_keeps (s₀ : State) : OutKeeps s₀ (execResetNRelease s₀) := by
  unfold execResetNRelease
  with_reducible repeat' first
    | assumption | apply OutKeeps.next | apply OutKeeps.fault | exact Follows.refl _ | simp only [Follows.same] | split | dsimp only

theorem execSecFwGo_keeps (v : Word) (host : Cells) (s₀ : State) : OutKeeps s₀ (execSecFwGo v host s₀) := by
  unfold execSecFwGo
  with_reducible repeat' first
    | assumption | apply OutKeeps.next | apply OutKeeps.fault | exact Follows.refl _ | apply State.hostCells_follows | apply State.fwGo_follows | split | dsimp only

theorem execFirmwareVerify_keeps (s₀ : State) : OutKeeps s₀ (execFirmwareVerify s₀) := by
  unfold execFirmwareVerify
  with_reducible repeat' first
    | assumption | apply OutKeeps.next | apply OutKeeps.fault | exact Follows.refl _ | apply State.setReg_follows | apply State.startImage_follows | simp only [Follows.same] | split | dsimp only

theorem execStackTrainingDone_keeps (failed : List (Fin 16)) (chans : List (Fin 2048)) (s₀ : State) : OutKeeps s₀ (execStackTrainingDone failed chans s₀) := by
  unfold execStackTrainingDone
  with_reducible repeat' first
    | assumption | apply OutKeeps.next | apply OutKeeps.fault | exact Follows.refl _ | apply State.markStack_follows | apply State.declareFailed_follows | apply State.retireStack_follows
    | apply State.stackFuses_follows | apply State.sumStacks_follows | apply State.loadStack_follows | simp only [Follows.same]
    | apply Follows.foldl | apply Follows.foldl_fst | apply Follows.foldl_snd | intro _ | split | dsimp only

theorem execStartupComplete_keeps (cores : List (Fin 256)) (ports : List PortUp) (bad : Nat) (s₀ : State) : OutKeeps s₀ (execStartupComplete cores ports bad s₀) := by
  unfold execStartupComplete
  with_reducible repeat' first
    | assumption | apply OutKeeps.next | apply OutKeeps.fault | exact Follows.refl _ | apply State.setReg_follows | apply State.setField_follows | apply State.setFlag_follows | apply State.takeFree_follows
    | apply State.internal_follows | apply State.extend_follows | apply State.housesInvalid_follows | apply State.syncPower_follows
    | apply State.trainPorts_follows | apply State.retireNoFuse_follows | apply State.loadCores_follows | apply State.startTests_follows
    | apply State.loadMap_follows | apply State.setProtections_follows | simp only [Follows.same] | apply Follows.foldl | apply Follows.foldl_fst
    | apply Follows.foldl_snd | intro _ | refine Follows.of_fst (by assumption) ?_ | refine Follows.of_snd (by assumption) ?_ | split | dsimp only

theorem execWakeComplete_keeps (failed : List (Fin 16)) (ports : List PortUp) (s₀ : State) : OutKeeps s₀ (execWakeComplete failed ports s₀) := by
  unfold execWakeComplete
  with_reducible repeat' first
    | assumption | apply OutKeeps.next | apply OutKeeps.fault | exact Follows.refl _ | apply State.setFlag_follows | apply State.newEpoch_follows | apply State.tellFar_follows | apply State.setPower_follows
    | apply State.actHeld_follows | apply State.sumStacks_follows | apply State.trainPorts_follows | apply State.stackDown_follows
    | apply Follows.foldl | apply Follows.foldl_fst | apply Follows.foldl_snd | intro _ | split | dsimp only

theorem execSecRollbackReq_keeps (v : Word) (s₀ : State) : OutKeeps s₀ (execSecRollbackReq v s₀) := by
  unfold execSecRollbackReq
  with_reducible repeat' first
    | assumption | apply OutKeeps.next | apply OutKeeps.fault | exact Follows.refl _ | apply State.rollbackReq_follows | split | dsimp only

theorem execSecAttestGo_keeps (v : Word) (s₀ : State) : OutKeeps s₀ (execSecAttestGo v s₀) := by
  unfold execSecAttestGo
  with_reducible repeat' first
    | assumption | apply OutKeeps.next | apply OutKeeps.fault | exact Follows.refl _ | apply State.attestGo_follows | split | dsimp only

theorem execAttestDone_keeps (s₀ : State) : OutKeeps s₀ (execAttestDone s₀) := by
  unfold execAttestDone
  with_reducible repeat' first
    | assumption | apply OutKeeps.next | apply OutKeeps.fault | exact Follows.refl _ | apply State.setReg_follows | apply State.hostStore_follows | simp only [Follows.same]
    | refine Follows.of_fst (by assumption) ?_ | refine Follows.of_snd (by assumption) ?_ | split | dsimp only | exact List.prefix_rfl
    | with_unfolding_all exact List.prefix_append _ _ | exact List.prefix_append _ _ | exact Nat.le_refl _ | exact Nat.le_succ _ | exact id
    | exact Tbl.wf_set _ _ | exact Tbl.wf_clear _ | apply Follows.update

theorem execSecExtend_keeps (v : Word) (s₀ : State) : OutKeeps s₀ (execSecExtend v s₀) := by
  unfold execSecExtend
  with_reducible repeat' first
    | assumption | apply OutKeeps.next | apply OutKeeps.fault | exact Follows.refl _ | apply State.secExtendWrite_follows | split | dsimp only

theorem execTapInstruction_keeps (op : TapOp) (s₀ : State) : OutKeeps s₀ (execTapInstruction op s₀) := by
  unfold execTapInstruction
  with_reducible repeat' first
    | assumption | apply OutKeeps.next | apply OutKeeps.fault | exact Follows.refl _ | simp only [Follows.same] | split | dsimp only | exact List.prefix_rfl | with_unfolding_all exact List.prefix_append _ _
    | exact List.prefix_append _ _ | exact Nat.le_refl _ | exact Nat.le_succ _ | exact id | exact Tbl.wf_set _ _ | exact Tbl.wf_clear _
    | apply Follows.update

theorem execLoad_keeps (p : Fin 40) (c : Cell) (more : List Arrival) (s₀ : State) : OutKeeps s₀ (execLoad p c more s₀) := by
  unfold execLoad
  with_reducible repeat' first
    | assumption | apply OutKeeps.next | apply OutKeeps.fault | exact Follows.refl _ | apply State.incReg_follows | apply State.respond_follows | apply State.applyMem_follows | apply State.request1_follows
    | simp only [Follows.same] | apply Follows.foldl | apply Follows.foldl_fst | apply Follows.foldl_snd | intro _
    | refine Follows.of_fst (by assumption) ?_ | refine Follows.of_snd (by assumption) ?_ | split | dsimp only

theorem execStore_keeps (p : Fin 40) (c : Cell) (s₀ : State) : OutKeeps s₀ (execStore p c s₀) := by
  unfold execStore
  with_reducible repeat' first
    | assumption | apply OutKeeps.next | apply OutKeeps.fault | exact Follows.refl _ | apply State.request1_follows | split | dsimp only

theorem execAmo_keeps (p : Fin 40) (c : Cell) (more : List Arrival) (s₀ : State) : OutKeeps s₀ (execAmo p c more s₀) := by
  unfold execAmo
  with_reducible repeat' first
    | assumption | apply OutKeeps.next | apply OutKeeps.fault | exact Follows.refl _ | apply State.request1_follows | apply State.amoTogether_follows | simp only [Follows.same] | apply Follows.foldl
    | apply Follows.foldl_fst | apply Follows.foldl_snd | intro _ | refine Follows.of_fst (by assumption) ?_
    | refine Follows.of_snd (by assumption) ?_ | split | dsimp only

theorem execEatomic_keeps (p : Fin 40) (c : Cell) (more : List Arrival) (s₀ : State) : OutKeeps s₀ (execEatomic p c more s₀) := by
  unfold execEatomic
  with_reducible repeat' first
    | assumption | apply OutKeeps.next | apply OutKeeps.fault | exact Follows.refl _ | apply State.request1_follows | apply State.eaTogether_follows | simp only [Follows.same] | apply Follows.foldl
    | apply Follows.foldl_fst | apply Follows.foldl_snd | intro _ | refine Follows.of_fst (by assumption) ?_
    | refine Follows.of_snd (by assumption) ?_ | split | dsimp only

theorem execMsg_keeps (p : Fin 40) (c : Cell) (op : Option PoolMsg) (s₀ : State) : OutKeeps s₀ (execMsg p c op s₀) := by
  unfold execMsg
  with_reducible repeat' first
    | assumption | apply OutKeeps.next | apply OutKeeps.fault | exact Follows.refl _ | apply State.incReg_follows | apply State.poolMsg_follows | apply State.respond_follows | apply State.noteApplied_follows
    | apply State.takeCell_follows | apply State.throughDoor_follows | simp only [Follows.same] | intro _ | split | dsimp only

theorem execMgmt_keeps (p : Fin 40) (c : Cell) (s₀ : State) : OutKeeps s₀ (execMgmt p c s₀) := by
  unfold execMgmt
  with_reducible repeat' first
    | assumption | apply OutKeeps.next | apply OutKeeps.fault | exact Follows.refl _ | apply State.wakeSource_follows | apply State.takeCell_follows | intro _ | split | dsimp only

theorem execData_keeps (p : Fin 40) (c : Cell) (s₀ : State) : OutKeeps s₀ (execData p c s₀) := by
  unfold execData
  with_reducible repeat' first
    | assumption | apply OutKeeps.next | apply OutKeeps.fault | exact Follows.refl _ | apply State.response_follows | split | dsimp only

theorem execAck_keeps (p : Fin 40) (c : Cell) (s₀ : State) : OutKeeps s₀ (execAck p c s₀) := by
  unfold execAck
  with_reducible repeat' first
    | assumption | apply OutKeeps.next | apply OutKeeps.fault | exact Follows.refl _ | apply State.response_follows | split | dsimp only

theorem execRefused_keeps (p : Fin 40) (c : Cell) (s₀ : State) : OutKeeps s₀ (execRefused p c s₀) := by
  unfold execRefused
  with_reducible repeat' first
    | assumption | apply OutKeeps.next | apply OutKeeps.fault | exact Follows.refl _ | apply State.response_follows | split | dsimp only

theorem execCellTransit_keeps (arrivals : List Arrival) (idle : List Nat) (s₀ : State) : OutKeeps s₀ (execCellTransit arrivals idle s₀) := by
  unfold execCellTransit
  with_reducible repeat' first
    | assumption | apply OutKeeps.next | apply OutKeeps.fault | exact Follows.refl _ | apply State.flushAll_follows | apply State.transit_follows | apply State.slowSend_follows | apply Follows.foldl
    | apply Follows.foldl_fst | apply Follows.foldl_snd | intro _ | refine Follows.of_fst (by assumption) ?_
    | refine Follows.of_snd (by assumption) ?_ | split | dsimp only

theorem execRequestRetransmit_keeps (t : Fin 131072) (s₀ : State) : OutKeeps s₀ (execRequestRetransmit t s₀) := by
  unfold execRequestRetransmit
  with_reducible repeat' first
    | assumption | apply OutKeeps.next | apply OutKeeps.fault | exact Follows.refl _ | apply State.incReg_follows | apply State.inject_follows | apply State.noteSent_follows | simp only [Follows.same]
    | refine Follows.of_fst (by assumption) ?_ | refine Follows.of_snd (by assumption) ?_ | split | dsimp only

theorem execTargetTimeout_keeps (t : Fin 131072) (s₀ : State) : OutKeeps s₀ (execTargetTimeout t s₀) := by
  unfold execTargetTimeout
  with_reducible repeat' first
    | assumption | apply OutKeeps.next | apply OutKeeps.fault | exact Follows.refl _ | apply State.setFlag_follows | apply State.deadRecord_follows | apply State.roomsLost_follows | apply State.endAll_follows
    | simp only [Follows.same] | split | dsimp only

theorem execHouseRequestTimeout_keeps (t : Fin 131072) (s₀ : State) : OutKeeps s₀ (execHouseRequestTimeout t s₀) := by
  unfold execHouseRequestTimeout
  with_reducible repeat' first
    | assumption | apply OutKeeps.next | apply OutKeeps.fault | exact Follows.refl _ | apply State.incReg_follows | apply State.deadRecord_follows | apply State.endReq_follows | apply State.roomsLost_follows
    | simp only [Follows.same] | split | dsimp only

theorem execPortTrained_keeps (p : Fin 40) (house : Fin 65536) (room : Fin 32) (port : Fin 40) (slow : Bool) (s₀ : State) : OutKeeps s₀ (execPortTrained p house room port slow s₀) := by
  unfold execPortTrained
  with_reducible repeat' first
    | assumption | apply OutKeeps.next | apply OutKeeps.fault | exact Follows.refl _ | apply State.portTrain_follows | apply State.wakeSource_follows | apply State.doorsGo_follows | simp only [Follows.same] | split
    | dsimp only

theorem execWrite_keeps (m : BulkMsg) (s₀ : State) : OutKeeps s₀ (execWrite m s₀) := by
  unfold execWrite
  with_reducible repeat' first
    | assumption | apply OutKeeps.next | apply OutKeeps.fault | exact Follows.refl _ | apply State.bulk_follows | split | dsimp only

theorem execGetReq_keeps (m : BulkMsg) (s₀ : State) : OutKeeps s₀ (execGetReq m s₀) := by
  unfold execGetReq
  with_reducible repeat' first
    | assumption | apply OutKeeps.next | apply OutKeeps.fault | exact Follows.refl _ | apply State.bulk_follows | split | dsimp only

theorem execGetData_keeps (m : BulkMsg) (s₀ : State) : OutKeeps s₀ (execGetData m s₀) := by
  unfold execGetData
  with_reducible repeat' first
    | assumption | apply OutKeeps.next | apply OutKeeps.fault | exact Follows.refl _ | apply State.bulk_follows | split | dsimp only

theorem execUnit_keeps (m : BulkMsg) (asks : List ShardAsk) (shards : List ShardData) (s₀ : State) : OutKeeps s₀ (execUnit m asks shards s₀) := by
  unfold execUnit
  with_reducible repeat' first
    | assumption | apply OutKeeps.next | apply OutKeeps.fault | exact Follows.refl _ | apply State.bulk_follows | apply State.serveAsk_follows | apply State.takeShard_follows | apply Follows.foldl
    | apply Follows.foldl_fst | apply Follows.foldl_snd | intro _ | split | dsimp only

theorem execBulkAck_keeps (m : BulkMsg) (s₀ : State) : OutKeeps s₀ (execBulkAck m s₀) := by
  unfold execBulkAck
  with_reducible repeat' first
    | assumption | apply OutKeeps.next | apply OutKeeps.fault | exact Follows.refl _ | apply State.setSlot_follows | apply State.dropMsg_follows | apply State.updMsg_follows | apply State.endSlot_follows
    | apply State.acked_follows | apply State.stage_follows | apply State.passOn_follows | apply State.freeDoor_follows
    | apply State.endContained_follows | simp only [Follows.same] | apply Follows.foldl | apply Follows.foldl_fst | apply Follows.foldl_snd
    | intro _ | split | dsimp only

theorem execDoorRetry_keeps (m : Nat) (s₀ : State) : OutKeeps s₀ (execDoorRetry m s₀) := by
  unfold execDoorRetry
  with_reducible repeat' first
    | assumption | apply OutKeeps.next | apply OutKeeps.fault | exact Follows.refl _ | apply State.incReg_follows | apply State.putMsg_follows | apply State.acked_follows | simp only [Follows.same]
    | refine Follows.of_fst (by assumption) ?_ | refine Follows.of_snd (by assumption) ?_ | split | dsimp only

theorem execDoorTargetTimeout_keeps (m : Nat) (s₀ : State) : OutKeeps s₀ (execDoorTargetTimeout m s₀) := by
  unfold execDoorTargetTimeout
  with_reducible repeat' first
    | assumption | apply OutKeeps.next | apply OutKeeps.fault | exact Follows.refl _ | apply State.incReg_follows | apply State.raise_follows | apply State.dropMsg_follows | apply State.roomsLost_follows
    | apply State.getOver_follows | apply State.endContained_follows | simp only [Follows.same] | apply Follows.foldl | apply Follows.foldl_fst
    | apply Follows.foldl_snd | intro _ | split | dsimp only

theorem execBulkMessageClose_keeps (m : Nat) (s₀ : State) : OutKeeps s₀ (execBulkMessageClose m s₀) := by
  unfold execBulkMessageClose
  with_reducible repeat' first
    | assumption | apply OutKeeps.next | apply OutKeeps.fault | exact Follows.refl _ | apply State.closeMsg_follows | simp only [Follows.same] | split | dsimp only

theorem execDoorPathUp_keeps (s₀ : State) : OutKeeps s₀ (execDoorPathUp s₀) := by
  unfold execDoorPathUp
  with_reducible repeat' first
    | assumption | apply OutKeeps.next | apply OutKeeps.fault | exact Follows.refl _ | apply State.doorsGo_follows | split | dsimp only

theorem execDoorCreditReturn_keeps (p : Fin 40) (n : Nat) (s₀ : State) : OutKeeps s₀ (execDoorCreditReturn p n s₀) := by
  unfold execDoorCreditReturn
  with_reducible repeat' first
    | assumption | apply OutKeeps.next | apply OutKeeps.fault | exact Follows.refl _ | apply State.doorsGo_follows | simp only [Follows.same] | split | dsimp only

theorem execBulkGet_keeps (i : Nat) (s₀ : State) : OutKeeps s₀ (execBulkGet i s₀) := by
  unfold execBulkGet
  with_reducible repeat' first
    | assumption | apply OutKeeps.next | apply OutKeeps.fault | exact Follows.refl _ | apply State.endSlot_follows | apply State.fetchTensors_follows | apply State.moverFail_follows | apply State.getStart_follows
    | simp only [Follows.same] | refine Follows.of_fst (by assumption) ?_ | refine Follows.of_snd (by assumption) ?_ | split | dsimp only

theorem execUnitDisable_keeps (u : Fin 128) (failed : Bool) (s₀ : State) : OutKeeps s₀ (execUnitDisable u failed s₀) := by
  unfold execUnitDisable
  with_reducible repeat' first
    | assumption | apply OutKeeps.next | apply OutKeeps.fault | exact Follows.refl _ | apply State.disableUnit_follows | split | dsimp only

theorem execUnitEnable_keeps (u : Fin 128) (s₀ : State) : OutKeeps s₀ (execUnitEnable u s₀) := by
  unfold execUnitEnable
  with_reducible repeat' first
    | assumption | apply OutKeeps.next | apply OutKeeps.fault | exact Follows.refl _ | apply State.enableUnit_follows | split | dsimp only

theorem execUnitDrained_keeps (u : Fin 84) (s₀ : State) : OutKeeps s₀ (execUnitDrained u s₀) := by
  unfold execUnitDrained
  with_reducible repeat' first
    | assumption | apply OutKeeps.next | apply OutKeeps.fault | exact Follows.refl _ | apply State.setField_follows | split | dsimp only

theorem execRegisterWrite_keeps (keeper : Bool) (off : Fin 67108864) (size : Nat) (v : Word) (s₀ : State) : OutKeeps s₀ (execRegisterWrite keeper off size v s₀) := by
  unfold execRegisterWrite
  with_reducible repeat' first
    | assumption | apply OutKeeps.next | apply OutKeeps.fault | exact Follows.refl _ | apply State.hostRegWrite_follows | apply State.keeperWrite_follows | split | dsimp only

theorem execAdd_keeps (k : Fin 256) (s₀ : State) : OutKeeps s₀ (execAdd k s₀) := by
  unfold execAdd
  with_reducible repeat' first
    | assumption | apply OutKeeps.next | apply OutKeeps.fault | exact Follows.refl _ | apply State.scalar2_follows | split | dsimp only

theorem execSub_keeps (k : Fin 256) (s₀ : State) : OutKeeps s₀ (execSub k s₀) := by
  unfold execSub
  with_reducible repeat' first
    | assumption | apply OutKeeps.next | apply OutKeeps.fault | exact Follows.refl _ | apply State.scalar2_follows | split | dsimp only

theorem execMul_keeps (k : Fin 256) (s₀ : State) : OutKeeps s₀ (execMul k s₀) := by
  unfold execMul
  with_reducible repeat' first
    | assumption | apply OutKeeps.next | apply OutKeeps.fault | exact Follows.refl _ | apply State.scalar2_follows | split | dsimp only

theorem execMulhu_keeps (k : Fin 256) (s₀ : State) : OutKeeps s₀ (execMulhu k s₀) := by
  unfold execMulhu
  with_reducible repeat' first
    | assumption | apply OutKeeps.next | apply OutKeeps.fault | exact Follows.refl _ | apply State.scalar2_follows | split | dsimp only

theorem execAnd_keeps (k : Fin 256) (s₀ : State) : OutKeeps s₀ (execAnd k s₀) := by
  unfold execAnd
  with_reducible repeat' first
    | assumption | apply OutKeeps.next | apply OutKeeps.fault | exact Follows.refl _ | apply State.scalar2_follows | split | dsimp only

theorem execOr_keeps (k : Fin 256) (s₀ : State) : OutKeeps s₀ (execOr k s₀) := by
  unfold execOr
  with_reducible repeat' first
    | assumption | apply OutKeeps.next | apply OutKeeps.fault | exact Follows.refl _ | apply State.scalar2_follows | split | dsimp only

theorem execXor_keeps (k : Fin 256) (s₀ : State) : OutKeeps s₀ (execXor k s₀) := by
  unfold execXor
  with_reducible repeat' first
    | assumption | apply OutKeeps.next | apply OutKeeps.fault | exact Follows.refl _ | apply State.scalar2_follows | split | dsimp only

theorem execShl_keeps (k : Fin 256) (s₀ : State) : OutKeeps s₀ (execShl k s₀) := by
  unfold execShl
  with_reducible repeat' first
    | assumption | apply OutKeeps.next | apply OutKeeps.fault | exact Follows.refl _ | apply State.scalar2_follows | split | dsimp only

theorem execShr_keeps (k : Fin 256) (s₀ : State) : OutKeeps s₀ (execShr k s₀) := by
  unfold execShr
  with_reducible repeat' first
    | assumption | apply OutKeeps.next | apply OutKeeps.fault | exact Follows.refl _ | apply State.scalar2_follows | split | dsimp only

theorem execSar_keeps (k : Fin 256) (s₀ : State) : OutKeeps s₀ (execSar k s₀) := by
  unfold execSar
  with_reducible repeat' first
    | assumption | apply OutKeeps.next | apply OutKeeps.fault | exact Follows.refl _ | apply State.scalar2_follows | split | dsimp only

theorem execSlt_keeps (k : Fin 256) (s₀ : State) : OutKeeps s₀ (execSlt k s₀) := by
  unfold execSlt
  with_reducible repeat' first
    | assumption | apply OutKeeps.next | apply OutKeeps.fault | exact Follows.refl _ | apply State.scalar2_follows | split | dsimp only

theorem execSltu_keeps (k : Fin 256) (s₀ : State) : OutKeeps s₀ (execSltu k s₀) := by
  unfold execSltu
  with_reducible repeat' first
    | assumption | apply OutKeeps.next | apply OutKeeps.fault | exact Follows.refl _ | apply State.scalar2_follows | split | dsimp only

theorem execMin_keeps (k : Fin 256) (s₀ : State) : OutKeeps s₀ (execMin k s₀) := by
  unfold execMin
  with_reducible repeat' first
    | assumption | apply OutKeeps.next | apply OutKeeps.fault | exact Follows.refl _ | apply State.scalar2_follows | split | dsimp only

theorem execMax_keeps (k : Fin 256) (s₀ : State) : OutKeeps s₀ (execMax k s₀) := by
  unfold execMax
  with_reducible repeat' first
    | assumption | apply OutKeeps.next | apply OutKeeps.fault | exact Follows.refl _ | apply State.scalar2_follows | split | dsimp only

theorem execMovhi_keeps (k : Fin 256) (s₀ : State) : OutKeeps s₀ (execMovhi k s₀) := by
  unfold execMovhi
  with_reducible repeat' first
    | assumption | apply OutKeeps.next | apply OutKeeps.fault | exact Follows.refl _ | apply State.scalar_follows | split | dsimp only

theorem execGets_keeps (k : Fin 256) (s₀ : State) : OutKeeps s₀ (execGets k s₀) := by
  unfold execGets
  with_reducible repeat' first
    | assumption | apply OutKeeps.next | apply OutKeeps.fault | exact Follows.refl _ | apply State.setCore_follows | apply State.progFault_follows | apply State.issue_follows | apply State.retire_follows
    | apply State.hold_follows | simp only [Follows.same] | intro _ | split | dsimp only

theorem execBeq_keeps (k : Fin 256) (s₀ : State) : OutKeeps s₀ (execBeq k s₀) := by
  unfold execBeq
  with_reducible repeat' first
    | assumption | apply OutKeeps.next | apply OutKeeps.fault | exact Follows.refl _ | apply State.branch_follows | split | dsimp only

theorem execBne_keeps (k : Fin 256) (s₀ : State) : OutKeeps s₀ (execBne k s₀) := by
  unfold execBne
  with_reducible repeat' first
    | assumption | apply OutKeeps.next | apply OutKeeps.fault | exact Follows.refl _ | apply State.branch_follows | split | dsimp only

theorem execBlt_keeps (k : Fin 256) (s₀ : State) : OutKeeps s₀ (execBlt k s₀) := by
  unfold execBlt
  with_reducible repeat' first
    | assumption | apply OutKeeps.next | apply OutKeeps.fault | exact Follows.refl _ | apply State.branch_follows | split | dsimp only

theorem execBge_keeps (k : Fin 256) (s₀ : State) : OutKeeps s₀ (execBge k s₀) := by
  unfold execBge
  with_reducible repeat' first
    | assumption | apply OutKeeps.next | apply OutKeeps.fault | exact Follows.refl _ | apply State.branch_follows | split | dsimp only

theorem execBltu_keeps (k : Fin 256) (s₀ : State) : OutKeeps s₀ (execBltu k s₀) := by
  unfold execBltu
  with_reducible repeat' first
    | assumption | apply OutKeeps.next | apply OutKeeps.fault | exact Follows.refl _ | apply State.branch_follows | split | dsimp only

theorem execBgeu_keeps (k : Fin 256) (s₀ : State) : OutKeeps s₀ (execBgeu k s₀) := by
  unfold execBgeu
  with_reducible repeat' first
    | assumption | apply OutKeeps.next | apply OutKeeps.fault | exact Follows.refl _ | apply State.branch_follows | split | dsimp only

theorem execJal_keeps (k : Fin 256) (s₀ : State) : OutKeeps s₀ (execJal k s₀) := by
  unfold execJal
  with_reducible repeat' first
    | assumption | apply OutKeeps.next | apply OutKeeps.fault | exact Follows.refl _ | apply State.setCore_follows | apply State.progFault_follows | apply State.issue_follows | apply State.hold_follows
    | apply State.goto_follows | intro _ | split | dsimp only

theorem execJr_keeps (k : Fin 256) (s₀ : State) : OutKeeps s₀ (execJr k s₀) := by
  unfold execJr
  with_reducible repeat' first
    | assumption | apply OutKeeps.next | apply OutKeeps.fault | exact Follows.refl _ | apply State.progFault_follows | apply State.issue_follows | apply State.hold_follows | apply State.goto_follows | intro _
    | split | dsimp only

theorem execTrap_keeps (k : Fin 256) (s₀ : State) : OutKeeps s₀ (execTrap k s₀) := by
  unfold execTrap
  with_reducible repeat' first
    | assumption | apply OutKeeps.next | apply OutKeeps.fault | exact Follows.refl _ | apply State.progFault_follows | apply State.issue_follows | intro _ | split | dsimp only

theorem execEndProg_keeps (k : Fin 256) (s₀ : State) : OutKeeps s₀ (execEndProg k s₀) := by
  unfold execEndProg
  with_reducible repeat' first
    | assumption | apply OutKeeps.next | apply OutKeeps.fault | exact Follows.refl _ | apply State.endWait_follows | apply State.coreOver_follows | apply State.progFault_follows | apply State.issue_follows
    | apply State.instrDone_follows | intro _ | split | dsimp only

theorem execEntdaa_keeps (addr : Fin 128) (s₀ : State) : OutKeeps s₀ (execEntdaa addr s₀) := by
  unfold execEntdaa
  with_reducible repeat' first
    | assumption | apply OutKeeps.next | apply OutKeeps.fault | exact Follows.refl _ | simp only [Follows.same] | split | dsimp only | exact List.prefix_rfl | with_unfolding_all exact List.prefix_append _ _
    | exact List.prefix_append _ _ | exact Nat.le_refl _ | exact Nat.le_succ _ | exact id | exact Tbl.wf_set _ _ | exact Tbl.wf_clear _
    | apply Follows.update

theorem execSetEndpointId_keeps (eid : Fin 256) (s₀ : State) : OutKeeps s₀ (execSetEndpointId eid s₀) := by
  unfold execSetEndpointId
  with_reducible repeat' first
    | assumption | apply OutKeeps.next | apply OutKeeps.fault | exact Follows.refl _ | apply State.reply_follows | simp only [Follows.same] | split | dsimp only

theorem execReadReg_keeps (off : Fin 4294967296) (s₀ : State) : OutKeeps s₀ (execReadReg off s₀) := by
  unfold execReadReg
  with_reducible repeat' first
    | assumption | apply OutKeeps.next | apply OutKeeps.fault | exact Follows.refl _ | apply State.respondVendor_follows | apply State.endAlert_follows | split | dsimp only

theorem execWriteReg_keeps (off : Fin 4294967296) (v : Word) (s₀ : State) : OutKeeps s₀ (execWriteReg off v s₀) := by
  unfold execWriteReg
  with_reducible repeat' first
    | assumption | apply OutKeeps.next | apply OutKeeps.fault | exact Follows.refl _ | apply State.alertClear_follows | apply State.capWrite_follows | apply State.respondVendor_follows | split | dsimp only

theorem execReadFaults_keeps (first : Fin 4294967296) (count : Fin 256) (s₀ : State) : OutKeeps s₀ (execReadFaults first count s₀) := by
  unfold execReadFaults
  with_reducible repeat' first
    | assumption | apply OutKeeps.next | apply OutKeeps.fault | exact Follows.refl _ | apply State.respondVendor_follows | split | dsimp only

theorem execReset_keeps (kind : Fin 256) (s₀ : State) : OutKeeps s₀ (execReset kind s₀) := by
  unfold execReset
  with_reducible repeat' first
    | assumption | apply OutKeeps.next | apply OutKeeps.fault | exact Follows.refl _ | apply State.resetTo_follows | apply State.respondVendor_follows | split | dsimp only

theorem execUnsupportedMctpType_keeps (ty : Fin 128) (s₀ : State) : OutKeeps s₀ (execUnsupportedMctpType ty s₀) := by
  unfold execUnsupportedMctpType
  with_reducible repeat' first
    | assumption | apply OutKeeps.next | apply OutKeeps.fault | exact Follows.refl _ | apply State.reply_follows | split | dsimp only

theorem execStepClose_keeps (i : Nat) (s₀ : State) : OutKeeps s₀ (execStepClose i s₀) := by
  unfold execStepClose
  with_reducible repeat' first
    | assumption | apply OutKeeps.next | apply OutKeeps.fault | exact Follows.refl _ | apply State.endSlot_follows | apply State.closeHists_follows | apply State.closeCounts_follows | apply State.swapLayer_follows
    | simp only [Follows.same] | apply Follows.foldl | apply Follows.foldl_fst | apply Follows.foldl_snd | intro _ | split | dsimp only

theorem execUpdate_keeps (i : Nat) (s₀ : State) : OutKeeps s₀ (execUpdate i s₀) := by
  unfold execUpdate
  with_reducible repeat' first
    | assumption | apply OutKeeps.next | apply OutKeeps.fault | exact Follows.refl _ | apply State.endSlot_follows | apply State.enterBuiltin_follows | apply State.enterOn_follows | apply State.stage_follows
    | apply State.fetchUpdate_follows | apply State.updGo_follows | simp only [Follows.same] | refine Follows.of_fst (by assumption) ?_
    | refine Follows.of_snd (by assumption) ?_ | split | dsimp only

end Sys2Proof.Machine
end

