-- ==== Sys2Proof/WellFormed.lean ====
section
/-! DEFINITION. Which commands are well formed: their operands fit the fields of the cells, messages, records and lists that carry them. -/

namespace Sys2Proof

/-- Bytes at addresses of 64 bits, one for each address. -/
def cellsOk (l : Cells) : Bool := l.all (fun c => decide (c.1 < 2 ^ 64)) && decide (l.map Prod.fst).Nodup

/-- A cell's fields fit its header, and `len` counts its payload (R360); a LOAD carries none. -/
def Cell.ok (c : Cell) : Bool :=
  decide (c.dstHouse < 2 ^ 16) && decide (c.dstRoom < 32) && decide (c.dstUnit < 64) && decide (c.srcHouse < 2 ^ 16) && decide (c.srcRoom < 32) &&
  decide (c.srcUnit < 64) && decide (c.hops < 64) && decide (c.spills < 16) && decide (c.ty < 16) && decide (c.tag < 131072) && decide (c.len < 128) &&
  decide (c.aux < 2 ^ 16) && decide (c.addr < 2 ^ 46) && decide (c.weight < 2 ^ 32) && decide (c.payload.length ≤ 128)

/-- A house and room (R183). -/
def roomOk (house room : Nat) : Bool := decide (house < 2 ^ 16) && decide (room < 32)

/-- A bulk message's fields fit its header (R406), and its count is that of its cells. -/
def BulkMsg.ok (m : BulkMsg) : Bool :=
  decide (m.port < 40) && roomOk m.srcHouse m.srcRoom && roomOk m.dstHouse m.dstRoom && decide (m.kind < 128) &&
  decide (m.seq < 2 ^ 32) && decide (m.count < 512) && decide (m.engine < 4) && decide (m.crc < 2 ^ 32) && decide (m.arg0 < 2 ^ 64) &&
  decide (m.arg1 < 2 ^ 64) && decide (m.cells.length = m.count) && m.cells.all Cell.ok

/-- Cells that arrive on house ports in one slot (R367): at most one on each. -/
def arrivalsOk (l : List Arrival) : Bool :=
  l.all (fun a => decide (a.port < 31) && a.cell.ok) && decide (l.map Arrival.port).Nodup

/-- A Pantry request of another room (R327). -/
def PoolMsg.ok (m : PoolMsg) : Bool := decide (m.pool < 64) && decide (m.op < 4) && m.handles.all fun h => decide (h < 2 ^ 32)

/-- A message of a Sluice names a room, a layer entry and a generation (R277, R300). -/
def SluMsg.ok (m : SluMsg) : Bool := roomOk m.house m.room && decide (m.layer < 256) && decide (m.gen < 2 ^ 16)

/-- A message of a collective engine names a room, a key and a step (R418). -/
def ColMsg.ok (m : ColMsg) : Bool := roomOk m.house m.room && decide (m.key < 2 ^ 16) && decide (m.step < 2 ^ 64)

/-- Ports that train, each once. -/
def portsOk (l : List PortUp) : Bool := decide (l.map PortUp.port).Nodup

/-- What a self-test finds lies in the array: 128 rows and columns and two spare ones of each (R115). -/
def ArrayFault.ok : ArrayFault → Bool
  | .cells r c => decide (r < 130) && (match c with | some c => decide (c < 130) | none => true)
  | .rowPath r => decide (r < 130)
  | .colPath c => decide (c < 130)
  | .spareRow r => decide (r < 130)
  | .spareCol c => decide (c < 130)

/-- The command's operands fit. -/
def Instr.wf : Instr → Bool
  | .selfTestDone _ found _ => found.all ArrayFault.ok
  | .doorbell _ n _ h => (n == 1 || n == 2 || n == 4 || n == 8) && cellsOk h
  | .reservation m | .reservationReply m | .countMessage m | .offsetsReply m | .tokenRow m | .backwardRow m | .doneMarker m | .answer m
  | .answerAck m => m.ok
  | .contribution m | .contributionReply m => m.ok
  | .load _ c l | .amo _ c l | .eatomic _ c l => c.ok && arrivalsOk l
  | .store _ c | .data _ c | .ack _ c | .refused _ c | .mgmt _ c => c.ok
  | .msg _ c op => c.ok && (match op with | some m => m.ok | none => true)
  | .cellTransit l idle => arrivalsOk l && idle.all (fun p => decide (p < 40))
  | .write m | .getReq m | .getData m | .bulkAck m => m.ok
  | .unit m asks shards => m.ok && (asks.all fun a => roomOk a.house a.room && decide (a.off + a.len ≤ 2 ^ 41)) &&
      shards.all fun a => decide (a.addr + (a.bytes.elim 0 List.length) ≤ 2 ^ 64)
  | .registerWrite _ _ n _ => n == 1 || n == 2 || n == 4 || n == 8
  | .thermalSample l => l.length == 100
  | .wakeComplete f ps => decide f.Nodup && portsOk ps
  | .stackTrainingDone f cs => decide f.Nodup && decide cs.Nodup
  | .startupComplete cs ps bad => decide cs.Nodup && portsOk ps && decide (bad ≤ 4096)
  | .secFwGo _ h => cellsOk h
  | .hostReadError _ a n => decide (a + n ≤ 2 ^ 46)
  | _ => true

end Sys2Proof
end

