-- ==== Sys2Proof/Tests/Bench.lean ====
section
/-! SUPPORT. Small states for the tests, and the checks by evaluation that meet the hypotheses of the statements. -/

namespace Sys2Proof.Tests

open Sys2Proof.Machine

/-- A state with these registers set. -/
def withRegs (s : State) (l : List (Nat × Nat)) : State := l.foldl (fun s e => s.setReg e.1 e.2) s

/-- A part that has started up, room 1 of the 4 of house 5, in ACTIVE with its link up: channel 0 of stack 0 in service, 16 MiB of each Larder slice
pinned, windows that admit everything. -/
def bare : State :=
  { State.reset with
    regs := ([(Reg.geomEpoch, 2), (Reg.geomDram, 576), (Reg.geomStacks, 1), (Reg.geomHouse, 0x50401)] ++
      ((List.range 32).map fun n => (Reg.geomChanMap n, if n = 0 then 1 else 0)) ++
      [(Reg.geomStackMib 0, 576), (Reg.hostStatus, 3), (Reg.hwinLo 0, 0xE000000000000000), (Reg.hwinHi 0, 0x3FFFFFFFF000), (Reg.clkStatus, 5),
       (Reg.owinScope 0, 0xFFFF0000FFFFFFFF), (Reg.owinRange 0, 0xF3FFFFFFE0000000), (Reg.iwinScope 0, 0xFFFF0000FFFFFFFF),
       (Reg.iwinRange 0, 0xF3FFFFFFE0000000), (Reg.memLarderCfg, 0x1111), (Reg.secBootStatus, 5)]).map fun (e : Nat × Nat) => (e.1, BitVec.ofNat 64 e.2) }

/-- A part that has started up, with little else set. -/
def few : State := withRegs State.reset [(Reg.hostStatus, 3), (Reg.secBootStatus, 5), (Reg.clkStatus, 5)]

/-- The pinned part of Larder slice 0. -/
def pin : Nat := 0x18000000000

/-- The address of offset 0 of this room's memory. -/
def home : Nat := 0x5020000000000

theorem home_eq : bare.localAddr 0 = home := by decide +kernel

/-- The address of an offset in the pinned part. -/
def at_ (o : Nat) : Nat := home + pin + o

/-- The state with bytes in its pinned memory. -/
def withMem (s : State) (o : Nat) (bs : List Byte) : State :=
  { s with mem := (bs.zipIdx.filter fun b => b.1 != 0).map fun b => (sramPlace (o + b.2), b.1) }

/-- Bytes of a memory other than DRAM, by their distance from `o`. -/
def cells (o : Nat) (l : List (Nat × Byte)) : Tbl Byte := l.map fun e => (sramPlace (o + e.1), e.2)

/-- Runs of bytes of a memory other than DRAM, each at an offset. -/
def blocks (l : List (Nat × List Byte)) : Tbl Byte :=
  l.flatMap fun b => (b.2.zipIdx.filter fun x => x.1 != 0).map fun x => (sramPlace (b.1 + x.2), x.1)

/-- The bytes of a tensor descriptor: dense sizes and strides as given. -/
def td (ty : EType) (base : Nat) (sizes strides : List Nat) : List Byte :=
  let n := sizes.length
  leBytes 8 (2 ^ 56 + n * 2 ^ 12 + ty.code) ++ leBytes 8 base ++ List.replicate 24 0 ++
  (List.range 8).flatMap (fun d => leBytes 4 (sizes.getD d 0)) ++ (List.range 8).flatMap (fun d => leBytes 6 (strides.getD d 0)) ++ leBytes 8 0

/-- A vector of `n` FP32 elements at `base`. -/
def vec32 (base n : Nat) : List Byte := td .fp32 base [n] [1]

/-- Core `k` runs the program `ws` for the LAUNCH in slot 0, with these registers. -/
def running (s : State) (k : Nat) (ws : List Nat) (rs : List (Nat × Nat)) : State :=
  s.setCore k { rs.foldl (fun c e => c.put e.1 e.2) Core.init with
    prog := ws.zipIdx.map fun w => (w.2, BitVec.ofNat 64 w.1), run := some ⟨0, 0, k, ws.length, 0, 2, false, false⟩ }

/-- A command leads to a state that passes a check. -/
def leads (c : Instr) (s : State) (p : State → Bool) : Bool :=
  match exec c s with
  | .next t => p t
  | _ => false

/-- A command leads to this state. -/
def leadsTo (c : Instr) (s t : State) : Bool := leads c s fun u => decide (u = t)

theorem ok_of {α : Type} [DecidableEq α] {x : Except Nat α} {t : α} (h : (match x with | .ok y => decide (y = t) | .error _ => false) = true) : x = .ok t := by
  cases x with
  | ok y => exact congrArg _ (of_decide_eq_true h)
  | error e => cases h

/-- Checks whose answers give facts give both facts together: one evaluation serves a whole witness. -/
theorem and_of {p q : Prop} {a b : Bool} (ha : a = true → p) (hb : b = true → q) (h : (a && b) = true) : p ∧ q :=
  ⟨ha (Bool.and_eq_true _ _ ▸ h).1, hb (Bool.and_eq_true _ _ ▸ h).2⟩

theorem dec_of {p : Prop} [Decidable p] (h : decide p = true) : p := of_decide_eq_true h

/-- Core `k` takes word `w`. -/
def issuesB (s : State) (k w : Nat) : Bool :=
  (match (s.core k).run with | some r => !r.stopping && !r.builtin && decide ((s.core k).pc < r.len) | none => false) && !(s.core k).inSync &&
  !s.flag (Reg.coreCtl k) 0 && !s.coresHeld && !Tbl.get false s.ue (progPlace k (s.core k).pc) &&
  decide ((Tbl.get 0 (s.core k).prog (s.core k).pc).toNat = w)

theorem issues_of {s : State} {k w : Nat} (h : issuesB s k w = true) : Claims.Issues s k w := by
  unfold issuesB at h
  simp only [Bool.and_eq_true, Bool.not_eq_true', decide_eq_true_eq] at h
  obtain ⟨⟨⟨⟨⟨h1, h2⟩, h3⟩, h4⟩, h5⟩, h6⟩ := h
  refine ⟨?_, h2, h3, h4, h5, h6⟩
  cases hr : (s.core k).run with
  | none => simp [hr] at h1
  | some r => simp [hr] at h1; exact ⟨r, rfl, h1.1.1, h1.1.2, h1.2⟩

/-- The bytes that `Claims.Sound` names are mapped and without error. -/
def soundB (s : State) (o n : Nat) : Bool :=
  let a := o / grain o * grain o
  (List.range (o + n - a)).all fun i => match s.place (a + i) with | some p => !s.failed p && !s.bad p | none => false

theorem sound_of {s : State} {o n : Nat} (h : soundB s o n = true) : Claims.Sound s o n := by
  intro x h1 h2
  unfold soundB at h
  rw [List.all_eq_true] at h
  have := h (x - o / grain o * grain o) (by rw [List.mem_range]; omega)
  rw [Nat.add_sub_cancel' h1] at this
  cases hp : s.place x with
  | none => simp [hp] at this
  | some p => simp [hp] at this; exact ⟨p, rfl, this.1, this.2⟩

/-- Channel 0 of stack 0 is the one DRAM channel in service, and placement is NATIVE. -/
def oneChan (s : State) : Bool :=
  (List.range 32).all (fun n => s.reg (Reg.geomChanMap n) == if n = 0 then 1 else 0) && !s.flag Reg.memCtl 0

theorem chans_one {s : State} (h : oneChan s = true) {st i : Nat} (hs : st < 16) (hi : i < 16) :
    s.chansIn st (8 * i) 8 = if st = 0 ∧ i = 0 then [0] else [] := by
  unfold oneChan at h
  rw [Bool.and_eq_true, List.all_eq_true] at h
  have hz : ∀ c, c < 128 → s.chanIn st c = decide (st = 0 ∧ c = 0) := by
    intro c hc
    have := h.1 (2 * st + c / 64) (by rw [List.mem_range]; omega)
    unfold State.chanIn State.flag
    rw [eq_of_beq this]
    by_cases hn : 2 * st + c / 64 = 0
    · have h1 : st = 0 := by omega
      have h2 : c / 64 = 0 := by omega
      have h3 : c % 64 = c := by omega
      rw [if_pos hn, h1, h3]
      by_cases h0 : c = 0
      · subst h0; decide
      · have : 1 / 2 ^ c = 0 := Nat.div_eq_of_lt (Nat.one_lt_two_pow h0)
        simp [bit, h0, Nat.shiftRight_eq_div_pow, this]
    · rw [if_neg hn]
      have : ¬(st = 0 ∧ c = 0) := by omega
      simp [bit, this]
  unfold State.chansIn
  split
  · next hc =>
    obtain ⟨rfl, rfl⟩ := hc
    have : ((List.range 8).map (8 * 0 + ·)) = [0, 1, 2, 3, 4, 5, 6, 7] := by decide
    rw [this]
    simp [hz]
  · next hc =>
    rw [List.filter_eq_nil_iff]
    intro c hm
    rw [List.mem_map] at hm
    obtain ⟨j, hj, rfl⟩ := hm
    rw [List.mem_range] at hj
    rw [hz _ (by omega)]
    simp only [decide_eq_true_eq]
    omega

theorem native_one {s : State} (h : oneChan s = true) {o p : Nat} (ho : o < 0x12000000000) (hp : s.native o = some p) : p = o := by
  unfold State.native at hp
  simp only [chans_one h (show o / 0x1200000000 < 16 by omega) (show o % 0x1200000000 / 0x120000000 < 16 by omega)] at hp
  by_cases hc : o / 0x1200000000 = 0 ∧ o % 0x1200000000 / 0x120000000 = 0
  · simp only [hc, and_self, if_true, List.length_singleton, Nat.mod_one, Nat.div_one, List.getD_cons_zero, dramPlace] at hp
    split at hp
    · rw [Option.some.injEq] at hp
      omega
    · cases hp
  · simp only [if_neg hc, List.length_nil, Nat.zero_mul, Nat.not_lt_zero, if_false] at hp
    cases hp

theorem dram_lt {a : Nat} (hr : regionOf a = some .dram) : a < 0x12000000000 := by
  unfold regionOf at hr
  split at hr
  · assumption
  · split at hr <;> (try split at hr) <;> (try split at hr) <;> (try split at hr) <;> (try split at hr) <;> (try split at hr) <;> simp at hr

theorem some_of_ite {c : Prop} [Decidable c] {x p : Nat} (h : (if c then some x else none) = some p) : p = x := by
  split at h
  · exact (Option.some.inj h).symm
  · cases h

theorem some_of_ite' {c : Prop} [Decidable c] {x p : Nat} (h : (if c then none else some x) = some p) : p = x := by
  split at h
  · cases h
  · exact (Option.some.inj h).symm

theorem place_one {s : State} (h : oneChan s = true) {a p : Nat} (hp : s.place a = some p) :
    p = sramPlace a ∨ (p = a ∧ a < 0x12000000000) := by
  have hf : s.flag Reg.memCtl 0 = false := by
    unfold oneChan at h
    rw [Bool.and_eq_true] at h
    simpa using h.2
  unfold State.place at hp
  cases hr : regionOf a with
  | none => rw [hr] at hp; cases hp
  | some r =>
    rw [hr] at hp
    cases r with
    | dram =>
      dsimp only at hp
      rw [hf, if_neg Bool.false_ne_true] at hp
      exact .inr ⟨native_one h (dram_lt hr) hp, dram_lt hr⟩
    | larder m => exact .inl (some_of_ite hp)
    | scratch n => exact .inl (some_of_ite' hp)
    | landing n => exact .inl (some_of_ite' hp)
    | cistern n => exact .inl (some_of_ite' hp)
    | sync => cases hp
    | setup => cases hp

theorem oneToOne_of {s : State} (h : oneChan s = true) : Claims.OneToOne s := by
  intro a b p ha hb
  have h1 := place_one h ha
  have h2 := place_one h hb
  unfold sramPlace at h1 h2
  omega

theorem onStacks_of {s : State} (h : oneChan s = true) : Claims.OnStacks s := by
  intro x p hp hx
  have hf : s.flag Reg.memCtl 0 = false := by
    unfold oneChan at h
    rw [Bool.and_eq_true] at h
    simpa using h.2
  have hr : regionOf x = some .dram := if_pos hx
  unfold State.place at hp
  rw [hr] at hp
  dsimp only at hp
  rw [hf, if_neg Bool.false_ne_true] at hp
  rw [native_one h hx hp]
  omega

theorem writable_of {s : State} {v : Slot} {a n : Nat} (h : (oneChan s && soundB s (aOff a) n && !s.rangeCut v a n) = true) : Claims.Writable s v a n := by
  simp only [Bool.and_eq_true, Bool.not_eq_true'] at h
  exact ⟨oneToOne_of h.1.1, onStacks_of h.1.1, sound_of h.1.2, h.2⟩

/-- A house reached by one door port: its engine is that port's, whichever the rule of the choice (log 89). -/
theorem one_engine {d p : Nat} (h : doorPorts d = [p]) : doorEngineOf d = portDie p := by simp [doorEngineOf, h, Nat.mod_one]

theorem doorOff_one {s : State} {c : Cell} {p : Nat} (h : doorPorts (bits (s.houseRoute s.activeB c.dstHouse) 8 0) = [p]) :
    s.doorOff c = (c.dstHouse != s.house && s.way s.activeB c.dstHouse c.dstRoom = .door && s.unitOff (76 + portDie p)) := by
  unfold State.doorOff
  rw [one_engine h]

end Sys2Proof.Tests
end

