-- ==== Sys2Proof/Tests/Rounds.lean ====
section
/-! SUPPORT. Tests of EXCHANGEs, of an instance's and a source's messages. -/

namespace Sys2Proof.Tests

open Sys2Proof.Machine

set_option Elab.async false

/-- An instance word: slot 2 of room `r` with capacity 4 (R291). -/
def instWord (r : Nat) : Nat := 5 * 2 ^ 48 + 2 ^ 47 + r * 2 ^ 40 + 2 * 2 ^ 32 + 4

/-- One layer of one expert served here in slot 2 (k = 1, version 3, 4 slots), pool 5 with buffers of 64 KiB at 0x10000, buffers 0 and 1 in use. -/
def routed : State :=
  { withRegs bare [(Reg.sluLayerBase, pin + 0x1000), (Reg.sluLayerCount, 1), (Reg.sluRrBase, pin + 0x8000), (Reg.sluRrCount, 64),
      (Reg.panCfg 5, 2 ^ 63 + 8 * 2 ^ 32 + 16), (Reg.panBase 5, pin + 0x10000), (Reg.panRingBase 5, pin + 0x6000), (Reg.sluPools 0, 0x0505)] with
    pools := [(5, ⟨[2, 3, 4, 5, 6, 7], 0, 0⟩)]
    refs := [(5 * 2 ^ 20, 1), (5 * 2 ^ 20 + 1, 2)]
    mem := blocks [(pin + 0x1000, leBytes 8 1 ++ leBytes 8 1 ++ leBytes 8 (at_ 0x1100) ++ leBytes 8 0 ++ leBytes 8 3 ++ leBytes 8 0 ++ leBytes 8 4 ++ leBytes 8 0),
      (pin + 0x1100, leBytes 8 1 ++ List.replicate 56 0 ++ leBytes 8 (instWord 1)),
      (pin + 0x2000, td .fp32 (at_ 0x3000) [1, 1] [1, 1]), (pin + 0x2080, td .int64 (at_ 0x3100) [1, 1] [1, 1]),
      (pin + 0x2100, td .int64 (at_ 0x3200) [1, 1] [1, 1]), (pin + 0x2200, leBytes 8 (5 * 2 ^ 48 + 2 ^ 40)),
      (pin + 0x3000, leBytes 4 0x40000000), (pin + 0x3100, leBytes 8 0x3F000000)] }

/-- The form of a row of one FP32 element. -/
def fmt1 : RowFmt := ⟨1, EType.fp32.code, false⟩

/-- What this room serves: slot 2, `n` rows admitted, buffers 0 and 1. -/
def served2 (n : Nat) (counts : List Counted) : Served := ⟨2, 4, n, n, 0, 0, false, some 0x05000000, some 0x05000001, fmt1, fmt1, [], [], counts, [], [], none⟩
def serving (n : Nat) (counts : List Counted) : State := { routed with services := [⟨0, 7, true, false, false, [served2 n counts]⟩] }

/-- A message of room 2 about layer 0, generation 7. -/
def slu (b : SluBody) : SluMsg := ⟨5, 2, 0, 7, b⟩
def reservation1 : SluMsg := slu (.reserve 11 0 0 0 3 fmt1)

/-- The slot as it stands. -/
def slot2 (t : State) : Option Served := t.served 0 7 2

theorem test_reservation : leads (.reservation reservation1) (serving 3 []) (fun t => (slot2 t).any (fun v => v.admitted == 4 && v.requested == 4) &&
      t.out.contains (.unit 5 2 (.slu ⟨5, 1, 0, 7, .reply 11 0 (.granted 3 0x05000000)⟩))) = true ∧
    leads (.reservation reservation1) (serving 4 []) (fun t => (slot2 t).any (fun v => v.admitted == 4 && v.dropped == 1) &&
      t.out.contains (.unit 5 2 (.slu ⟨5, 1, 0, 7, .reply 11 0 .full⟩))) = true := by decide +kernel

theorem comes_of {s : State} {m : SluMsg} (h : (!s.sluOff && !(m.house == s.house && m.room == s.room)) = true) : Claims.Comes s s m := by
  simp only [Bool.and_eq_true, Bool.not_eq_true', Bool.and_eq_false_iff, beq_eq_false_iff_ne] at h
  exact ⟨h.1, fun e => absurd e (by rintro ⟨a, b⟩; cases h.2 with | inl x => exact x a | inr x => exact x b), fun _ => rfl⟩

theorem comesOwn_of {s : State} {m : SluMsg} (h : (!s.sluOff && decide (m.house = s.house ∧ m.room = s.room ∧ UnitBody.slu m ∈ s.loop)) = true) :
    Claims.Comes s { s with loop := s.loop.erase (.slu m) } m := by
  simp only [Bool.and_eq_true, Bool.not_eq_true', decide_eq_true_eq] at h
  exact ⟨h.1, fun _ => ⟨h.2.2.2, rfl⟩, fun e => absurd ⟨h.2.1, h.2.2.1⟩ e⟩

/-- The same asked of this room by itself. -/
def own (b : SluBody) : SluMsg := ⟨5, 1, 0, 7, b⟩

theorem witness_message : ((withRegs routed ((List.range 4).map fun q => (Reg.unitState (68 + q), 1))).sluOff = true ∧
    (own (.done 0)).house = routed.house ∧ (own (.done 0)).room = routed.room ∧ UnitBody.slu (own (.done 0)) ∉ routed.loop) ∧
    Claims.Comes (serving 3 []) (serving 3 []) reservation1 ∧
    Claims.Comes { serving 3 [] with loop := [.slu (own (.done 0))] } { { serving 3 [] with loop := [.slu (own (.done 0))] } with
      loop := { serving 3 [] with loop := [.slu (own (.done 0))] }.loop.erase (.slu (own (.done 0))) } (own (.done 0)) := by
  exact and_of dec_of (and_of comes_of comesOwn_of) (by decide +kernel)

/-- What a reservation or a count message may find, beside the slot of `serving`. -/
def counts1 (step : Nat) : SluMsg := slu (.counts step 0 0 3 2 fmt1 [(0, 6)])
theorem witness_asks : Claims.AsksFor .reservation reservation1 0 0 3 fmt1 (fun v => .reply 11 0 v) ∧
    Claims.AsksFor .countMessage (counts1 0) 0 0 3 fmt1 (fun v => .offsets 0 0 0 (.refused v)) :=
  ⟨.inl ⟨11, 0, rfl, rfl, rfl⟩, .inr ⟨0, 2, [(0, 6)], rfl, rfl, rfl⟩⟩

theorem witness_turned_down : { serving 3 [] with holds := [(0, 7)] }.inHold 0 7 = true ∧
    Claims.turnedDown ((serving 3 []).setReg Reg.sluLayerCount 0) reservation1 0 0 3 = some .invalid ∧
    Claims.turnedDown (serving 3 []) reservation1 0 0 2 = some .skew ∧ Claims.turnedDown (serving 3 []) reservation1 1 0 3 = some .invalid ∧
    Claims.turnedDown (serving 3 []) reservation1 0 1 3 = some .invalid ∧
    Claims.turnedDown { serving 3 [] with services := [⟨0, 7, false, false, false, [served2 3 []]⟩] } reservation1 0 0 3 = some .late := by
  decide +kernel

/-- Sixty-four rounds count. -/
def crowded : State := { routed with services := List.replicate 64 ⟨1, 0, true, false, false, []⟩ }
theorem witness_unseated : (Claims.turnedDown crowded reservation1 0 0 3 = none ∧ crowded.service 0 7 = none ∧
      64 ≤ (crowded.services.filter fun y => y.counting).length) ∧ Claims.Unseated routed reservation1 0 0 3 ∧
    (routed.fieldOf (Reg.sluPools 0) 5 0 = 5 ∧ ¬(routed.fieldOf (Reg.panCfg 5) 15 0 * 4096 < rxSize 4 fmt1) ∧ routed.poolOn 5 = true ∧
      routed.unitOff 81 = false ∧ 1 ≤ routed.poolFree 5) ∧
    Claims.Unseated (routed.setReg (Reg.panCfg 5) (2 ^ 63 + 8 * 2 ^ 32)) reservation1 0 0 3 ∧
    (routed.setReg (Reg.panCfg 5) (2 ^ 63 + 8 * 2 ^ 32)).fieldOf (Reg.panCfg 5) 15 0 * 4096 < rxSize 4 fmt1 ∧
    Claims.Unseated (routed.setReg (Reg.panCfg 5) (8 * 2 ^ 32 + 16)) reservation1 0 0 3 ∧
    (routed.setReg (Reg.panCfg 5) (8 * 2 ^ 32 + 16)).poolOn 5 = false ∧ bits (Claims.instWord routed reservation1 0 0) 15 0 = 4 := by
  unfold Claims.Unseated
  decide +kernel

/-- The buffer that an unseated slot may get is sound memory. -/
theorem witness_unseated_memory : (routed.pool 5).cache = [2, 3, 4, 5, 6, 7] ∧ Claims.OneToOne routed ∧ Claims.OnStacks routed ∧
    Claims.Sound routed (routed.bufOff 5 2) 64 := by
  exact and_of dec_of (and_of oneToOne_of (and_of onStacks_of sound_of)) (by decide +kernel)

theorem witness_seated : Claims.Seated (serving 3 []) reservation1 0 0 3 (served2 3 []) 0x05000000 ∧ (served2 3 []).admitted < (served2 3 []).cap ∧
    Claims.Seated (serving 4 []) reservation1 0 0 3 (served2 4 []) 0x05000000 ∧ (served2 4 []).cap ≤ (served2 4 []).admitted := by
  unfold Claims.Seated
  decide +kernel

/-- Counts: of a step that has closed; the first of two; the second of two; one held when the time is over. -/
def half : Counted := ⟨5, 0, 0, 0, 0, 2, [(0, 1)]⟩
theorem witness_counts :
    (let v := { served2 1 [] with closed := [0] }
     Claims.Seated { routed with services := [⟨0, 7, true, false, false, [v]⟩] } (counts1 0) 0 0 3 v 0x05000000 ∧ 0 ∈ v.closed) ∧
    (Claims.Seated (serving 1 []) (counts1 0) 0 0 3 (served2 1 []) 0x05000000 ∧ 0 ∉ (served2 1 []).closed ∧ (serving 1 []).exchs = []) ∧
    (Claims.Seated (serving 1 [half]) (counts1 0) 0 0 3 (served2 1 [half]) 0x05000000 ∧
      (∀ c ∈ [half, ⟨5, 2, 0, 0, 0, 2, [(0, 6)]⟩], c.peers ≤ 2) ∧ ([half, ⟨5, 2, 0, 0, 0, 2, [(0, 6)]⟩].map fun c => (c.house, c.room)).Nodup) ∧
    ((serving 1 [half]).served 0 7 2 = some (served2 1 [half]) ∧ ∀ c ∈ (served2 1 [half]).counts, c.step = 0) := by
  unfold Claims.Seated
  decide +kernel

theorem test_counts : leads (.countMessage (slu (.counts 0 0 0 3 1 fmt1 [(0, 6)]))) (serving 1 []) (fun t =>
      (slot2 t).any (fun v => v.admitted == 4 && v.dropped == 3 && v.closed == [0] && v.counts == []) &&
      t.out.contains (.unit 5 2 (.slu ⟨5, 1, 0, 7, .offsets 0 0 0 (.given [(0, 0)] 3 1 0x05000000)⟩))) = true ∧
    leads (.countTimeout 0 7 2 0) (serving 1 [⟨5, 2, 0, 0, 0, 2, [(0, 6)]⟩]) (fun t => (slot2 t).any fun v => v.admitted == 4 && v.dropped == 3 && v.closed == [0]) = true := by
  decide +kernel

theorem test_rows : leads (.tokenRow (slu (.row 2 1 11 0 9 3 fmt1 (leBytes 4 0x40400000) []))) (serving 3 []) (fun t =>
      t.memNat (pin + 0x10000 + 4096 + 128) 4 == 0x40400000 && t.memNat (pin + 0x10008) 4 == 1 && t.memNat (pin + 0x10000 + 80) 4 == 11 &&
      (slot2 t).any fun v => v.fwdRows.map (·.row) == [1]) = true ∧
    leads (.backwardRow (slu (.brow 2 1 11 0 9 fmt1 (leBytes 4 0x40400000) []))) (serving 3 []) (fun t =>
      t.memNat (pin + 0x20000 + 4096 + 128) 4 == 0x40400000 && t.memNat (pin + 0x20008) 4 == 1 && (slot2 t).any fun v => v.bwdRows.map (·.row) == [1]) = true := by
  decide +kernel

theorem witness_rows : ((serving 3 []).inHold 0 7 = false ∧ ((serving 3 []).layerAt 0).version = 3 ∧ (serving 3 []).served 0 7 2 = some (served2 3 []) ∧
    (∀ row ∈ [0, 3], Claims.RowFits (served2 3 []).cap fmt1 row (leBytes 4 0x40400000) []) ∧ (serving 3 []).handleOff 0x05000000 = pin + 0x10000 ∧
    { routed with services := [⟨0, 7, true, false, false, [{ served2 3 [] with fwd := none, bwd := none }]⟩] }.served 0 7 2 =
      some { served2 3 [] with fwd := none, bwd := none } ∧ routed.fieldOf (Reg.sluPools 0) 13 8 = 5 ∧
    rxSize 4 fmt1 ≤ routed.fieldOf (Reg.panCfg 5) 15 0 * 4096 ∧ (routed.setReg (Reg.panCfg 5) (8 * 2 ^ 32 + 16)).poolOn 5 = false) ∧
    Claims.OneToOne (serving 3 []) ∧ Claims.OnStacks (serving 3 []) ∧ Claims.Sound (serving 3 []) (pin + 0x10000) (rxSize 4 fmt1) ∧
    Claims.Sound (serving 3 []) (pin + 0x20000) (rxSize 4 fmt1) := by
  unfold Claims.RowFits
  exact and_of dec_of (and_of oneToOne_of (and_of onStacks_of (and_of sound_of sound_of))) (by decide +kernel)

theorem test_done_marker : leadsTo (.doneMarker (slu (.done 0))) routed { routed with dones := [(0, 7, 0, 5, 2)] } = true := by decide +kernel

/-- An answer of slot 2 is out; its buffer is held twice. -/
def answering : State :=
  { routed with services := [⟨0, 7, false, false, true, [{ served2 1 [] with answers := [(1, 5, 2)], ansRef := some 0x05000001 }]⟩] }

theorem test_answer_ack : leads (.answerAck (slu (.ack 1 2 1))) answering (fun t => t.refOf 5 1 == 1 && t.services == []) = true := by decide +kernel

theorem witness_answer_ack : (answering.services = [⟨0, 7, false, false, true, [{ served2 1 [] with answers := [(1, 5, 2)], ansRef := some 0x05000001 }]⟩] ∧
      answering.poolOn (poolOf 0x05000001) = true ∧ 2 ≤ answering.refOf (poolOf 0x05000001) (bufOf 0x05000001) ∧ answering.exchs = []) ∧
    Claims.Comes answering answering (slu (.ack 1 2 1)) := by
  exact and_of dec_of comes_of (by decide +kernel)

/-! ## The source -/

/-- The tensor of the test's one row. -/
def rowT : Tensor := ⟨(parseTD (td .fp32 (at_ 0x3000) [1, 1] [1, 1])).getD ⟨[], .fp32, .none, 0, false, false, false, 0, 0, 0, 0, [], []⟩, 0, [⟨at_ 0x3000, 0, 1, 0, 0, 0⟩]⟩

/-- A choice of token 0, tried at room 2. -/
def try1 : Try := ⟨0, 0, 0, 0x3F000000, 0, 5, 2, 2, 0, none⟩
/-- An EXCHANGE of phase `p` that executes in slot 4. -/
def exch4 (p : Nat) : Exch :=
  ⟨4, p, 0, 7, [(5, 1)], [], rowT, none, none, 0, 1, 0, false, false, 1, at_ 0x1100, 3, 4, 0, [try1], [], false, false, false, false,
    false, true, []⟩
def route (n : Nat) : Route := ⟨n, 0, n, false, false, false, false, 5, 2, 2, 1, 0x3F000000, 0⟩
def sourcing (p st : Nat) (l : List Route) : State :=
  { routed with
    exchs := [exch4 p]
    rounds := [(0, { Round.none with layer := 0, gen := 7, state := st, tokens := 1, reserved := 2, routes := l })]
    slots := [(4, { Slot.none with words := [5, 0x77, 7 * 2 ^ 16 + p, 0, 0, 0, 0, 0], stage := .started, step := 2 })] }

theorem test_reply : leads (.reservationReply (slu (.reply 0 0 (.granted 3 9)))) (sourcing 0 1 []) (fun t => t.reg Reg.sluAdmitted == 1 &&
      (t.round 0).routes.map (fun r => (r.token, r.rank, r.room, r.slot, r.row, r.handle)) == [(0, 0, 2, 2, 3, 9)] &&
      t.out.any fun o => match o with | .unit 5 2 (.slu ⟨5, 1, 0, 7, .row 2 3 0 0 0 3 _ _ _⟩) => true | _ => false) = true ∧
    leads (.reservationReply (slu (.reply 0 0 .full))) (sourcing 0 1 []) (fun t => t.reg Reg.sluDropFull == 1) = true := by decide +kernel

theorem test_offsets : leads (.offsetsReply (slu (.offsets 0 0 0 (.given [(0, 0)] 2 1 9)))) (sourcing 0 1 []) (fun t => t.reg Reg.sluAdmitted == 1 &&
      (t.round 0).routes.map (fun r => (r.token, r.row, r.handle)) == [(0, 1, 9)]) = true ∧
    leads (.offsetsReply (slu (.offsets 0 0 0 (.refused .full)))) (sourcing 0 1 []) (fun t => t.reg Reg.sluDropFull == 1) = true := by decide +kernel

theorem witness_source : (sourcing 0 1 []).exchOf 0 7 (fun p => p == 0) = some (exch4 0) ∧ (sourcing 0 1 []).roundOf 0 7 = some 0 ∧
    Claims.tryOf (exch4 0) (slu (.reply 0 0 .full)) 0 0 = some try1 ∧ Claims.tryOf (exch4 0) (slu (.reply 1 0 .full)) 1 0 = none ∧
    Claims.NoMore (sourcing 0 1 []) (exch4 0) ∧ Claims.Here (sourcing 0 1 []) rowT ∧
    Claims.counted (exch4 0) (slu (.offsets 0 0 0 (.refused .full))) 0 0 0 = [try1] ∧
    Claims.placed [try1] [(0, 0)] try1 = 0 ∧ Claims.counted (exch4 0) (slu (.offsets 1 0 0 (.refused .full))) 1 0 0 = [] ∧
    routed.exchOf 0 7 (fun p => p == 0) = none := by
  unfold Claims.NoMore Claims.Here
  decide +kernel

/-- The same with its admission list at 0x3200, and with a choice that has its outcome. -/
def admT : Tensor := ⟨(parseTD (td .int64 (at_ 0x3200) [1, 1] [1, 1])).getD ⟨[], .fp32, .none, 0, false, false, false, 0, 0, 0, 0, [], []⟩, 0, [⟨at_ 0x3200, 0, 1, 0, 0, 0⟩]⟩
def listing : State := { sourcing 0 1 [] with exchs := [{ exch4 0 with admits := some admT }] }
def decided : State := { sourcing 0 1 [route 0] with exchs := [{ exch4 0 with tries := [{ try1 with outcome := some 1 }] }] }

theorem witness_source_list : (listing.exchOf 0 7 (fun p => p == 0) = some { exch4 0 with admits := some admT } ∧ (exch4 0).final = [] ∧ (exch4 0).tokens = 1 ∧
    (exch4 0).tries = [try1] ∧ admT.d.ty = .int64 ∧ admT.d.size.headD 0 = 1 ∧ listing.services = [] ∧ (listing.house, listing.room) ∈ (exch4 0).peers ∧
    (0, 7, 0, listing.house, listing.room) ∉ listing.dones ∧ listing.isLocal (admT.elemAt [0, 0]).1 = true ∧ isHost (admT.elemAt [0, 0]).1 = false ∧
    try1.weight < 2 ^ 32 ∧ try1.inst < 2 ^ 24 ∧ decided.exchOf 0 7 (fun p => p == 0) = some { exch4 0 with tries := [{ try1 with outcome := some 1 }] } ∧
    Claims.tryOf { exch4 0 with tries := [{ try1 with outcome := some 1 }] } (slu (.reply 0 0 .skew)) 0 0 = some { try1 with outcome := some 1 }) ∧
    Claims.Writable listing (listing.slot 4) (admT.elemAt [0, 0]).1 8 := by
  exact and_of dec_of writable_of (by decide +kernel)

/-- A backward row is accepted: a record of the round names the room that says so. -/
theorem witness_brow : (sourcing 2 5 [route 0]).exchOf 0 7 (fun p => p == 0) = none ∧ (sourcing 2 5 [route 0]).roundOf 0 7 = some 0 ∧
    ((sourcing 2 5 [route 0]).round 0).routes.find? (fun r => r.token == 0 && r.rank == 0 && r.house == 5 && r.room == 2) = some (route 0) ∧
    (∀ x ∈ (sourcing 2 5 [route 0]).exchs, x.phase = 2) := by
  decide +kernel

/-- Half of 3.0 is added to the 2.0 of the destination; the same again is a duplicate; without a round it is stale. -/
theorem test_answer : leads (.answer (slu (.answer 1 2 1 0 fmt1 (leBytes 4 0x40400000) []))) (sourcing 1 3 [route 0, route 1]) (fun t =>
      t.memNat (pin + 0x3000) 4 == 0x40600000 && (t.round 0).routes.map (·.fwd) == [true, false] && t.out.contains (.unit 5 2 (.slu ⟨5, 1, 0, 7, .ack 1 2 1⟩))) = true ∧
    leads (.answer (slu (.answer 1 2 1 0 fmt1 (leBytes 4 0x40400000) []))) (sourcing 1 3 [{ route 0 with fwd := true }, route 1]) (fun t =>
      t.memNat (pin + 0x3000) 4 == 0x40000000 && t.reg Reg.sluDupAnswers == 1) = true ∧
    leads (.answer (slu (.answer 1 2 1 0 fmt1 (leBytes 4 0x40400000) []))) routed (fun t => t.reg Reg.sluStaleAnswers == 1) = true := by decide +kernel

/-- Two records name room 2, a third this room: its answer is awaited too. -/
def answered (p : Nat) : State := sourcing p (2 * p + 1) [route 0, { route 2 with room := 1 }]
/-- A combine that puts its answers into a slot area of one buffer. -/
def slotted : State :=
  { answered 1 with
    exchs := [{ exch4 1 with slotted := true }]
    rounds := [(0, { (answered 1).round 0 with area := [0x05000000] })]
    slots := [(4, { (answered 1).slot 4 with words := [5, 0x77, 5 * 2 ^ 48 + 7 * 2 ^ 16 + 1, 0, 0, 0, 0, 0] })] }

theorem witness_answer : (∀ p ∈ [1, 3], (answered p).exchOf 0 7 (fun q => q == p) = some (exch4 p) ∧ (answered p).roundOf 0 7 = some 0 ∧
      ((answered p).round 0).routes.find? (fun r => r.idx == 0) = some (route 0) ∧ Claims.OtherAwaited (answered p) 0 (route 0) p ∧
      (answered p).services = [] ∧ (exch4 p).slotted = false) ∧
    (rowT.elemAt [0, (route 0).token] = (at_ 0x3000, false) ∧ rowT.d.size.headD 0 = 1 ∧ rowT.d.ty = .fp32 ∧ fmt1 = ⟨1, EType.fp32.code, false⟩ ∧
      (answered 1).isLocal (at_ 0x3000) = true ∧ aOff (at_ 0x3000) + 4 ≤ (answered 1).reg Reg.sluRrBase ∧
      slotted.exchOf 0 7 (fun q => q == 1) = some { exch4 1 with slotted := true } ∧
      slotted.areaAt { exch4 1 with slotted := true } 0 (route 0) = some (pin + 0x10000) ∧ 4 ≤ (exch4 1).areaRow ∧
      slotted.reg Reg.sluRrBase + 32 ≤ pin + 0x10000) ∧
    Claims.Writable (answered 1) ((answered 1).slot 4) (at_ 0x3000) 4 ∧ Claims.Writable (answered 3) ((answered 3).slot 4) (at_ 0x3000) 4 ∧
    Claims.OneToOne slotted ∧ Claims.OnStacks slotted ∧ Claims.Sound slotted (pin + 0x10000) 4 := by
  unfold Claims.OtherAwaited
  exact and_of dec_of (and_of dec_of (and_of writable_of (and_of writable_of (and_of oneToOne_of (and_of onStacks_of sound_of))))) (by decide +kernel)

/-- An answer that comes early, that no record names, that repeats, and whose combine is over. -/
theorem witness_answer_late : ((sourcing 1 2 [route 0]).round 0).state < 2 * 1 + 1 ∧
    ((sourcing 1 3 []).round 0).routes.find? (fun r => r.idx == 0) = none ∧
    ((sourcing 1 3 [{ route 0 with fwd := true }]).round 0).routes.find? (fun r => r.idx == 0) = some { route 0 with fwd := true } ∧
    ((sourcing 1 4 [route 0]).round 0).state ≠ 2 * 1 + 1 ∧ (sourcing 1 4 [route 0]).roundOf 0 7 = some 0 := by
  decide +kernel

/-- Kept messages: one of a dispatch that executes, and a reservation of it whose time is over. -/
def keeping (b : SluBody) : State := { sourcing 0 1 [] with kept := [⟨1, 5, 2, 1, 4, 0, .slu (own b)⟩], nextKept := 2 }

theorem witness_retry : (keeping (.done 0)).kept.find? (fun k => k.num == 1) = some ⟨1, 5, 2, 1, 4, 0, .slu (own (.done 0))⟩ ∧
    (keeping (.done 0)).kept.find? (fun k => k.num == 2) = none ∧ UnitBody.slu (own (.done 0)) ∉ (keeping (.done 0)).loop ∧
    ((keeping (.done 0)).exch 4).isSome = true ∧ { keeping (.done 0) with exchs := [] }.exch 4 = none ∧
    (keeping (.reserve 0 0 0 0 3 fmt1)).exch 4 = some (exch4 0) ∧ Claims.NoMore (keeping (.reserve 0 0 0 0 3 fmt1)) (exch4 0) ∧
    Claims.TimedOut { keeping (.reserve 0 0 0 0 3 fmt1) with now := 10000000 } ⟨1, 5, 2, 1, 4, 0, .slu (own (.reserve 0 0 0 0 3 fmt1))⟩ true ∧
    (exch4 0).tries.filter (fun z => z.outcome = none && (z.token == 0 && z.rank == 0)) = [try1] := by
  unfold Claims.NoMore Claims.TimedOut
  decide +kernel

theorem witness_retry_ask : ∃ ask, Claims.admissionAsk (.slu (own (.reserve 0 0 0 0 3 fmt1))) = some ask ∧ ask try1 = true := ⟨_, rfl, rfl⟩

/-- A message kept is sent again; a generation leaves hold-down. -/
theorem test_retry : leads (.messageRetry 1 true) { sourcing 2 5 [] with kept := [⟨1, 5, 2, 1, 4, 0, .slu (slu (.done 0))⟩], nextKept := 2 }
      (fun t => t.out.contains (.unit 5 2 (.slu (slu (.done 0))))) = true ∧
    leads (.genHoldExpiry 0 7) { routed with holds := [(0, 7), (1, 7)] } (fun t => t.holds == [(1, 7)]) = true := by decide +kernel

/-- A dispatch that has sent all its rows awaits room 2's DONE alone. -/
def lastX (p : Nat) : Exch := { exch4 p with table := at_ 0x5000, peers := [(5, 1), (5, 2)], sent := true, final := [0], tries := [{ try1 with outcome := some 2 }] }
def last (p : Nat) : State := { sourcing p (p + 1) [] with exchs := [lastX p], dones := [(0, 7, p, 5, 1)] }

theorem witness_done : (∀ p ∈ [0, 2], (last p).roundOf 0 7 = some 0 ∧ (last p).isLocal (lastX p).table = true ∧ isHost (lastX p).table = false ∧
      (last p).inHold 0 7 = false ∧ (0, 7, p, 5, 2) ∉ (last p).dones ∧ (last p).pkgDown = []) ∧
    Claims.OnlyAwaitsDone (last 0) (lastX 0) (slu (.done 0)) ∧ Claims.OnlyAwaitsDone (last 2) (lastX 2) (slu (.done 2)) := by
  and_intros <;> decide +kernel

/-! ## EXCHANGE -/

/-- An EXCHANGE of phase `p` in slot 4, its peers this room alone, with words A to D. -/
def exchange (p : Nat) (l : List Nat) (s : State) : State :=
  { s with slots := [(4, { Slot.none with words := [5, 0x77, 7 * 2 ^ 16 + 2 ^ 32 + 2 ^ 5 + p, at_ 0x2200] ++ l, stage := .ready })] }
def inRound (st : Nat) (s : State) : State := { s with rounds := [(0, { Round.none with layer := 0, gen := 7, state := st, tokens := 1 })] }
def fwd4 : State := exchange 0 [at_ 0x2000, at_ 0x2080, at_ 0x2100, at_ 0x5000] routed

theorem test_fwd_dispatch : leads (.fwdDispatch 4) fwd4 (fun t => (t.slot 4).stage == .started && (t.round 0).state == 1 && (t.round 0).tokens == 1 &&
    (t.round 0).reserved == 1 && t.loop.contains (.slu ⟨5, 1, 0, 7, .reserve 0 0 0 0 3 fmt1⟩)) = true := by decide +kernel

/-- What the EXCHANGE of slot 4 reads before its checks, and the layer's entry after it. -/
def xRead (s : State) (l : List Nat) (tabs : List (Nat × Nat)) : State := (s.fetchExch 4 l tabs).1
def layered (s : State) : State := s.noteLayer (s.slot 4).xLayer
def got (s : State) (written : Bool) (a : Nat) : Tensor := (s.readTensor (s.slot 4) written a).toOption.getD rowT

def fwdList : List Nat := [at_ 0x2000, at_ 0x2080, at_ 0x2100]
def fwdU (s : State) : State := xRead s fwdList (s.peerTab (s.slot 4))
def fwdW : State := layered (fwdU fwd4)

theorem witness_fwd_dispatch : (fwd4.xReady 4 (fun p => p == 0 || decide (4 < p)) = true ∧ (∀ x ∈ (fwdU fwd4).exchs, x.slot ≠ 4) ∧ fwd4.xOff 4 = false ∧
    (fwd4.fetchExch 4 fwdList (fwd4.peerTab (fwd4.slot 4))).2 = true ∧ (fwdW.slot 4).refused = false ∧
    fwdW.fwdChecks (fwdW.slot 4) (.ok rowT) (.ok (got fwdW false (at_ 0x2080))) (.ok (got fwdW true (at_ 0x2100))) (.ok [(5, 1)]) = none ∧
    fwdW.freeEntry = some 0 ∧ 1 * (fwdW.layerAt 0).k ≤ fwdW.rrFree ∧ (0, 7, 0, fwdW.house, fwdW.room) ∉ fwdW.dones ∧
    rowT.d.size.getD 1 1 = 1 ∧ (fwdW.layerAt 0).k = 1 ∧ (fwdW.layerAt 0).ranked = false ∧ Claims.Here fwdW rowT ∧
    Claims.Here fwdW (got fwdW false (at_ 0x2080)) ∧ fwdW.tcode (fwdW.slot 4) (got fwdW false (at_ 0x2080)) [0, 0] = 0x3F000000 ∧
    0 < (fwdW.layerAt 0).experts ∧ (v32 0x3F000000).isFin = true ∧ placeOk (fwdW.placeWords (fwdW.layerAt 0).place 0) = true ∧
    fwdW.pickInst (fwdW.placeWords (fwdW.layerAt 0).place 0) 0 = (0, instWord 1)) ∧
    fwdW.readTensor (fwdW.slot 4) false (at_ 0x2000) = .ok rowT ∧
    fwdW.readTensor (fwdW.slot 4) false (at_ 0x2080) = .ok (got fwdW false (at_ 0x2080)) ∧
    fwdW.readTensor (fwdW.slot 4) true (at_ 0x2100) = .ok (got fwdW true (at_ 0x2100)) ∧ fwdW.readRooms (fwdW.slot 4) (at_ 0x2200) 1 = .ok [(5, 1)] := by
  unfold Claims.Here
  exact and_of dec_of (and_of ok_of (and_of ok_of (and_of ok_of ok_of))) (by decide +kernel)

/-- Its Sluice is disabled; its rows' descriptor is in room 2; a read was refused; its generation is in hold-down; no record is free. -/
theorem witness_fwd_stops :
    ((fwd4.setReg (Reg.unitState 68) 1).xReady 4 (fun p => p == 0 || decide (4 < p)) = true ∧ (fwd4.setReg (Reg.unitState 68) 1).xOff 4 = true) ∧
    (fwd4.fetchExch 4 [5 * 2 ^ 48 + 2 ^ 42 + 0x2000, at_ 0x2080, at_ 0x2100] (fwd4.peerTab (fwd4.slot 4))).2 = false ∧
    ((fwdU { fwd4 with slots := [(4, { fwd4.slot 4 with refused := true })] }).slot 4).refused = true ∧
    (layered (fwdU { fwd4 with holds := [(0, 7)] })).fwdChecks
      ((layered (fwdU { fwd4 with holds := [(0, 7)] })).slot 4) (.ok rowT) (.ok (got fwdW false (at_ 0x2080)))
      (.ok (got fwdW true (at_ 0x2100))) (.ok [(5, 1)]) = some 0x14 ∧
    (layered (fwdU (fwd4.setReg Reg.sluRrCount 0))).rrFree = 0 := by
  decide +kernel

/-- A round of one row whose record names room `r`. -/
def oneRoute (r st : Nat) (s : State) : State :=
  { s with rounds := [(0, { Round.none with layer := 0, gen := 7, state := st, tokens := 1, reserved := 1, routes := [⟨0, 0, 0, false, false, false, false, 5, r, 2, 1, 0x3F000000, 0⟩] })] }

def bwd4 : State := exchange 2 [at_ 0x2000, 0, 0, at_ 0x5000] (oneRoute 2 4 routed)
def bwdU (s : State) : State := xRead s [at_ 0x2000] (s.peerTab (s.slot 4))
def bwdW : State := layered (bwdU bwd4)

theorem witness_bwd_dispatch : (bwd4.xReady 4 (fun p => p == 2) = true ∧ (∀ x ∈ (bwdU bwd4).exchs, x.slot ≠ 4) ∧ bwd4.xOff 4 = false ∧
    (bwd4.fetchExch 4 [at_ 0x2000] (bwd4.peerTab (bwd4.slot 4))).2 = true ∧ (bwdW.slot 4).refused = false ∧
    bwdW.bwdChecks (bwdW.slot 4) (.ok rowT) (.ok [(5, 1)]) = none ∧ bwdW.roundFor (bwdW.slot 4) = some 0 ∧
    (0, 7, 2, bwdW.house, bwdW.room) ∉ bwdW.dones ∧ (bwdW.round 0).routes ≠ [] ∧ Claims.Here bwdW rowT ∧
    (layered (bwdU (exchange 2 [at_ 0x2000, 1, 0, at_ 0x5000] (oneRoute 2 4 routed)))).bwdChecks
      ((layered (bwdU (exchange 2 [at_ 0x2000, 1, 0, at_ 0x5000] (oneRoute 2 4 routed)))).slot 4) (.ok rowT) (.ok [(5, 1)]) = some 0x14) ∧
    bwdW.readTensor (bwdW.slot 4) false (at_ 0x2000) = .ok rowT ∧ bwdW.readRooms (bwdW.slot 4) (at_ 0x2200) 1 = .ok [(5, 1)] := by
  unfold Claims.Here
  exact and_of dec_of (and_of ok_of ok_of) (by decide +kernel)

theorem test_bwd_dispatch : leads (.bwdDispatch 4) (exchange 2 [at_ 0x2000, 0, 0, at_ 0x5000] (inRound 4 routed)) (fun t => (t.slot 4).stage == .started &&
    (t.round 0).state == 5) = true := by decide +kernel

theorem test_combine : leads (.fwdCombine 4) (exchange 1 [at_ 0x5000, at_ 0x2000, 0, 0] (inRound 2 routed)) (fun t => (t.slot 4).stage == .ended 0 0 && (t.round 0).state == 4) = true ∧
    leads (.bwdCombine 4) (exchange 3 [at_ 0x5000, at_ 0x2000, 0, 0] (inRound 6 routed)) (fun t => (t.slot 4).stage == .ended 0 0 && (t.round 0).state == 0 && t.inHold 0 7) = true := by
  decide +kernel

/-- A combine of phase `p` whose answers of slot 2 lie at 0x5100; `area` asks for a slot area; the record of its round names room `r`. -/
def comb4 (p r : Nat) (area : Bool) : State :=
  let s := oneRoute r (2 * p) routed
  let v := { served2 1 [] with fwdRows := [⟨0, 5, 2, 0, 0, 9⟩], bwdRows := [⟨0, 5, 2, 0, 0, 9⟩] }
  { s with
    services := [⟨0, 7, false, false, false, [v]⟩]
    mem := s.mem ++ blocks [(pin + 0x5020, leBytes 8 (at_ 0x5100) ++ leBytes 8 (EType.fp32.code * 2 ^ 32 + 4)), (pin + 0x5100, leBytes 4 0x40400000)]
    slots := [(4, { Slot.none with
      words := [5, 0x77, 5 * 2 ^ 48 + 7 * 2 ^ 16 + 2 ^ 32 + 2 ^ 5 + (if area then 2 ^ 4 else 0) + p, at_ 0x2200, at_ 0x5000, at_ 0x2000, 0, 0]
      stage := .ready })] }
def combTabs (s : State) : List (Nat × Nat) := s.peerTab (s.slot 4) ++ s.ansTab (s.slot 4)
def combU (s : State) : State := xRead s [at_ 0x2000] (combTabs s)
def combW (p r : Nat) (area : Bool) : State := layered (combU (comb4 p r area))

theorem witness_combine : (∀ e ∈ [(1, false), (1, true), (3, false), (3, true)],
      (comb4 e.1 1 e.2).xReady 4 (· == e.1) = true ∧ (∀ x ∈ (combU (comb4 e.1 1 e.2)).exchs, x.slot ≠ 4) ∧ (comb4 e.1 1 e.2).xOff 4 = false ∧
      ((comb4 e.1 1 e.2).fetchExch 4 [at_ 0x2000] (combTabs (comb4 e.1 1 e.2))).2 = true ∧ ((combW e.1 1 e.2).slot 4).refused = false ∧
      (combW e.1 1 e.2).combChecks ((combW e.1 1 e.2).slot 4) (.ok rowT) (.ok [(5, 1)]) = none ∧
      (combW e.1 1 e.2).roundFor ((combW e.1 1 e.2).slot 4) = some 0 ∧ ((combW e.1 1 e.2).slot 4).xSlotted = e.2 ∧
      (∃ q ∈ ((combW e.1 1 e.2).round 0).routes, q.fwd = false ∧ q.bwd = false ∧ q.house = (combW e.1 1 e.2).house ∧ q.room = (combW e.1 1 e.2).room) ∧
      (combW e.1 1 e.2).served 0 7 2 ≠ none ∧ ((combW e.1 1 e.2).ansEntry ((combW e.1 1 e.2).slot 4) 4 2 1).1 ≠ 0 ∧
      ((combW e.1 1 e.2).areaNeeds 5 1 1).1 ≠ 0 ∧ ((combW e.1 1 e.2).alloc 5 ((combW e.1 1 e.2).areaNeeds 5 1 1).2).isSome = true) ∧
    (combW 1 1 false).readTensor ((combW 1 1 false).slot 4) true (at_ 0x2000) = .ok rowT ∧
    (combW 3 1 true).readTensor ((combW 3 1 true).slot 4) true (at_ 0x2000) = .ok rowT ∧
    (combW 1 1 true).readRooms ((combW 1 1 true).slot 4) (at_ 0x2200) 1 = .ok [(5, 1)] := by
  exact and_of dec_of (and_of ok_of (and_of ok_of ok_of)) (by decide +kernel)

/-- The pool of the slot area is off, or its buffers are too small; a combine with nothing to do. -/
def combOff : State := (comb4 1 1 true).setReg (Reg.panCfg 5) 0
def combIdle (p : Nat) : State := exchange p [at_ 0x5000, at_ 0x2000, 0, 0] (inRound (2 * p) routed)

theorem witness_combine_off : (layered (combU combOff)).combChecks ((layered (combU combOff)).slot 4) (.ok rowT) (.ok [(5, 1)]) = none ∧
    (layered (combU combOff)).alloc 5 1 = none ∧ ((layered (combU combOff)).areaNeeds 5 1 1).1 = 0 := by
  and_intros <;> decide +kernel

theorem witness_combine_ends : (∀ p ∈ [1, 3], (combIdle p).xReady 4 (· == p) = true ∧ ((combIdle p).slot 4).xSlotted = false ∧
      ((combIdle p).slot 4).xKeep = true ∧ ((layered (combU (combIdle p))).slot 4).dead = false ∧
      ((layered (combU (combIdle p))).round 0).routes = [] ∧ (layered (combU (combIdle p))).roundFor ((layered (combU (combIdle p))).slot 4) = some 0) ∧
    (∀ p ∈ [1, 3], (layered (combU (combIdle p))).combChecks ((layered (combU (combIdle p))).slot 4) (.ok rowT) (.ok [(5, 1)]) = none) ∧
    ∀ p ∈ [1, 3], (layered (combU (combIdle p))).service 0 7 = none := by
  and_intros <;> decide +kernel

/-- An EXCHANGE whose own reads are out. -/
def xBusy (p : Nat) : State :=
  { exchange p [0, 0, 0, 0] routed with
    slots := [(4, { Slot.none with words := [5, 0x77, 7 * 2 ^ 16 + p], stage := .started, step := 1 })]
    reqs := [⟨⟨5, 2, 0, 5, 1, 0, 0, 0, 0, false, false, false, false, 1, 128, 0, 0, 0, [], 0⟩, .slot 4, false, true, false⟩] }

theorem witness_exchange_waits : (∀ p ∈ [0, 1, 2, 3], ((xBusy p).slot 4).xphase = p ∧ ((xBusy p).slot 4).stage = .started ∧ ((xBusy p).slot 4).step = 1 ∧
    (xBusy p).slotBusy 4 = true) ∧ ((exchange 4 [0, 0, 0, 0] routed).slot 4).xphase = 4 := by
  decide +kernel

theorem witness_cancel : (exchange 4 [0, 0, 0, 0] routed).xReady 4 (· == 4) = true ∧ (exchange 4 [0, 0, 0, 0] routed).xOff 4 = false ∧
    ((exchange 4 [0, 0, 0, 0] routed).setReg (Reg.unitState 68) 1).xOff 4 = true ∧ (exchange 4 [0, 0, 0, 0] routed).noLayers = none ∧
    ((exchange 4 [0, 0, 0, 0] routed).setReg Reg.sluLayerCount 0).noLayers = some 0x14 ∧
    (exchange 4 [0, 0, 0, 0] routed).roundOf 0 7 = none ∧ (exchange 4 [0, 0, 0, 0] (inRound 3 routed)).roundOf 0 7 = some 0 := by
  decide +kernel

theorem test_cancel : leads (.cancel 4) (exchange 4 [0, 0, 0, 0] routed) (fun t => (t.slot 4).stage == .ended 0 0) = true ∧
    leads (.cancel 4) (exchange 4 [0, 0, 0, 0] (inRound 3 routed)) (fun t => (t.slot 4).stage == .ended 0 0 && (t.round 0).state == 0 && t.inHold 0 7 &&
      t.reg Reg.sluCancels == 1) = true := by decide +kernel

end Sys2Proof.Tests
end

