-- ==== Sys2Proof/Tests/Collectives.lean ====
section
/-! SUPPORT. Tests of COLLECTIVEs and of contributions. -/

namespace Sys2Proof.Tests

open Sys2Proof.Machine

set_option Elab.async false

/-- The descriptor of a tensor of three FP32 elements whose owner table is at 0x1200. -/
def ownedTd : List Byte := leBytes 8 (2 ^ 56 + 2 ^ 18 + 2 ^ 12 + EType.fp32.code) ++ List.replicate 16 0 ++ leBytes 8 (at_ 0x1200) ++ leBytes 8 0 ++
  leBytes 4 3 ++ List.replicate 84 0

/-- Three elements at 0x2000; a tensor of one shard at 0x3000 with version 9; a parameter block at 0x1400; an area at 0x5000 that key 6 has taken. -/
def colMem : Tbl Byte :=
  blocks [(pin + 0x1000, vec32 (at_ 0x2000) 3), (pin + 0x1080, ownedTd), (pin + 0x1100, vec32 (at_ 0x4000) 3),
    (pin + 0x1180, vec32 0 3),
    (pin + 0x1200, leBytes 8 1 ++ List.replicate 24 0 ++ leBytes 8 (at_ 0x3000) ++ leBytes 8 (3 * 2 ^ 32) ++ leBytes 8 9 ++ leBytes 8 0),
    (pin + 0x1400, leBytes 8 (at_ 0x2200) ++ leBytes 8 0 ++ leBytes 8 (pin + 0x5000) ++ leBytes 8 0x1000 ++ leBytes 8 (5 * 2 ^ 32 + 1) ++ leBytes 8 (20 * 2 ^ 16 + 10) ++
      leBytes 8 (2 ^ 32) ++ leBytes 8 0),
    (pin + 0x2000, leBytes 4 0x3F800000 ++ leBytes 4 0x40000000 ++ leBytes 4 0x40400000), (pin + 0x2200, leBytes 8 (5 * 2 ^ 48 + 2 ^ 40)),
    (pin + 0x2300, leBytes 4 0x05000001), (pin + 0x3000, leBytes 4 7 ++ leBytes 4 8 ++ leBytes 4 9), (pin + 0x5000, leBytes 2 6 ++ leBytes 2 1)]

/-- A COLLECTIVE in slot 4 with key 6. -/
def col4 (w2 w4 w5 w6 : Nat) : State :=
  { routed with mem := colMem, slots := [(4, { Slot.none with words := [6, 0x77, 6 * 2 ^ 16 + w2, 12, w4, w5, w6, 0], stage := .ready })] }

def gather6 (vmode : Nat) : State := col4 (64 * 2 ^ 5 + vmode * 2 ^ 3) (at_ 0x1080) (at_ 0x1100) 0

theorem test_col_gather : leads (.collectiveGather 4) (gather6 0) (fun t => (t.slot 4).stage == .ended 0 0 && t.memNat (pin + 0x4000) 4 == 7 &&
    t.memNat (pin + 0x4004) 4 == 8 && t.memNat (pin + 0x4008) 4 == 9) = true := by decide +kernel

/-- The tensors of the test. -/
def colTd (b : List Byte) : TDesc := (parseTD b).getD ⟨[], .fp32, .none, 0, false, false, false, 0, 0, 0, 0, [], []⟩
def colSrc : Tensor := ⟨colTd (vec32 (at_ 0x2000) 3), 0, [⟨at_ 0x2000, 0, 3, 0, 0, 0⟩]⟩
def colDst : Tensor := ⟨colTd (vec32 (at_ 0x4000) 3), 0, [⟨at_ 0x4000, 0, 3, 0, 0, 0⟩]⟩
def shard0 : Shard := ⟨at_ 0x3000, 0, 3, 9, 0, at_ 0x1220⟩
def colOwned : Tensor := ⟨colTd ownedTd, 0, [shard0]⟩

/-- What a COLLECTIVE of slot 4 has read. -/
def colRead (s : State) : State := (s.fetchTensors 4 [(s.slot 4).word 4, (s.slot 4).word 5]).1
def gathering : State := colRead (gather6 0)

theorem witness_col_gather : ((gather6 0).cReady 4 (· == 0) = true ∧ (gather6 0).cOff 4 = false ∧
    ((gather6 0).fetchTensors 4 [at_ 0x1080, at_ 0x1100]).2 = true ∧ (gathering.slot 4).refused = false ∧
    gathering.gatherChecks (gathering.slot 4) (.ok colOwned) (.ok colDst) = none ∧ (gathering.slot 4).cVmode = 0 ∧ (gathering.slot 4).cPool = 64 ∧
    Claims.Here gathering colOwned ∧ Claims.Here gathering colDst ∧ Claims.Flat gathering colDst 3 4) ∧
    gathering.readTensor (gathering.slot 4) false (at_ 0x1080) = .ok colOwned ∧
    gathering.readTensor (gathering.slot 4) true (at_ 0x1100) = .ok colDst ∧ Claims.Writable gathering (gathering.slot 4) colDst.d.base (3 * 4) := by
  unfold Claims.Here Claims.Flat
  exact and_of dec_of (and_of ok_of (and_of ok_of writable_of)) (by decide +kernel)

/-- No COLLECTIVE; an engine that is disabled; an operation that is reserved; a shard table in room 2; a read that was refused; key 0. -/
theorem witness_col_stops : (bare.opReady 4 6 = false ∧ (bare.slot 4).stage ≠ .started) ∧
    (∀ op ∈ [0, 1, 2], ((col4 op 0 0 0).setReg (Reg.unitState 72) 1).cReady 4 (· == op) = true ∧ ((col4 op 0 0 0).setReg (Reg.unitState 72) 1).cOff 4 = true) ∧
    ((col4 3 0 0 0).cReady 4 (fun p => decide (2 < p)) = true ∧ (col4 3 0 0 0).cOff 4 = false) ∧
    ((gather6 0).fetchTensors 4 [5 * 2 ^ 48 + 2 ^ 42 + 0x1080, at_ 0x1100]).2 = false ∧
    ((colRead { gather6 0 with slots := [(4, { (gather6 0).slot 4 with refused := true })] }).slot 4).refused = true ∧
    (let s := colRead { gather6 0 with slots := [(4, { (gather6 0).slot 4 with words := [6, 0x77, 64 * 2 ^ 5, 12, at_ 0x1080, at_ 0x1100, 0, 0] })] }
     s.gatherChecks (s.slot 4) (.ok colOwned) (.ok colDst) = some 0x14) := by
  decide +kernel

/-- A GATHER into a buffer of pool 5. -/
def allocating : State := colRead (col4 (5 * 2 ^ 5) (at_ 0x1080) (at_ 0x1180) (at_ 0x2300))
def freeDst : Tensor := ⟨colTd (vec32 0 3), 0, [⟨0, 0, 3, 0, 0, 0⟩]⟩

theorem witness_col_alloc : (allocating.gatherChecks (allocating.slot 4) (.ok colOwned) (.ok freeDst) = none ∧ (allocating.slot 4).cPool = 5 ∧
      (allocating.alloc 5 1).isSome = true ∧ { allocating with pools := [(5, ⟨[], 0, 0⟩)] }.alloc 5 1 = none ∧ Claims.Here allocating colOwned ∧
      allocating.isLocal (at_ 0x2300) = true) ∧
    allocating.readTensor (allocating.slot 4) true (at_ 0x1180) = .ok freeDst := by
  unfold Claims.Here
  exact and_of dec_of ok_of (by decide +kernel)

theorem witness_col_buffers : ∀ k, Claims.FreeBuf allocating 5 k → Claims.Here allocating (freeDst.placed (allocating.localAddr (allocating.bufOff 5 k))) := by
  have h : (∀ k ∈ (allocating.pool 5).cache, Claims.Here allocating (freeDst.placed (allocating.localAddr (allocating.bufOff 5 k)))) ∧
      (allocating.pool 5).free = 0 := by
    unfold Claims.Here
    decide +kernel
  intro k hk
  cases hk with
  | inl hk => exact h.1 k hk
  | inr hk =>
    obtain ⟨j, hj, _⟩ := hk
    rw [h.2] at hj
    exact absurd hj (Nat.not_lt_zero j)

/-- A GATHER that has asked for its shards: all are there; one is out; its entry is out. -/
def asked (n : Nat) : State := { gathering with slots := [(4, { gathering.slot 4 with stage := .started, step := n })] }
def farOwned : Tensor := { colOwned with shards := [{ shard0 with loc := 6 * 2 ^ 48 + 0x3000 }] }

theorem witness_col_goes : (((asked 1).slot 4).opcode = 6 ∧ ((asked 1).slot 4).cop = 0 ∧ ((asked 1).slot 4).stage = .started ∧ (asked 1).slotBusy 4 = false ∧
    ((asked 1).slot 4).refused = false ∧ ((asked 1).slot 4).step = 1 ∧ (asked 1).gatherHas ((asked 1).slot 4) colOwned = true ∧
    64 ≤ ((asked 1).slot 4).cPool ∧ Claims.Here (asked 1) colDst ∧ ((asked 1).slot 4).cVmode ≠ 1 ∧ Claims.Flat (asked 1) colDst 3 4 ∧
    (asked 1).gatherHas ((asked 1).slot 4) farOwned = false ∧ ((asked 2).slot 4).step = 2 ∧ (asked 2).slotBusy 4 = false ∧
    { asked 1 with slots := [(4, { (asked 1).slot 4 with refused := true })] }.slotBusy 4 = false) ∧
    ((asked 1).slot 4).tensorOf false (at_ 0x1080) = .ok colOwned ∧ ((asked 1).slot 4).tensorOf true (at_ 0x1100) = .ok colDst ∧
    Claims.Writable (asked 1) ((asked 1).slot 4) colDst.d.base (3 * 4) := by
  unfold Claims.Here Claims.Flat
  exact and_of dec_of (and_of ok_of (and_of ok_of writable_of)) (by decide +kernel)

/-- The descriptor's version is not the newest. -/
def skewed : State :=
  let s := gather6 2
  { s with mem := blocks [(pin + 0x1000, vec32 (at_ 0x2000) 3), (pin + 0x1080, ownedTd.take 32 ++ leBytes 8 5 ++ ownedTd.drop 40), (pin + 0x1100, vec32 (at_ 0x4000) 3),
    (pin + 0x1200, leBytes 8 1 ++ List.replicate 24 0 ++ leBytes 8 (at_ 0x3000) ++ leBytes 8 (3 * 2 ^ 32) ++ leBytes 8 9 ++ leBytes 8 0)] }

theorem test_col_skew : leads (.collectiveGather 4) skewed (fun t => (t.slot 4).stage == .ended 0x12 0 && t.reg Reg.colSkews == 1) = true := by decide +kernel

theorem witness_col_skew : ((colRead skewed).slot 4).cVmode = 2 ∧ (∀ a ∈ ((colRead skewed).readTensor ((colRead skewed).slot 4) false (at_ 0x1080)).toOption,
    a.d.version = 5 ∧ (a.shards.map Shard.version).foldl max 0 = 9 ∧
    (colRead skewed).gatherChecks ((colRead skewed).slot 4) (.ok a) (.ok colDst) = none) := by
  decide +kernel

theorem test_col_release : leads (.collectiveRelease 4) (col4 2 0 0 (at_ 0x2300)) (fun t => (t.slot 4).stage == .ended 0 0 && t.refOf 5 1 == 1) = true ∧
    leads (.collectiveRelease 4) { col4 2 0 0 (at_ 0x2300) with refs := [] } (fun t => (t.slot 4).stage == .ended 2 0 && t.reg (Reg.panBadRefs 5) == 1) = true := by
  decide +kernel

/-- A RELEASE of handle 0x05000001, which reads its entry; one that reads it in error. -/
def releasing : State := ((col4 2 0 0 (at_ 0x2300)).fetchTabs 4 [(at_ 0x2300, 16)]).1
theorem witness_col_release : (col4 2 0 0 (at_ 0x2300)).cReady 4 (· == 2) = true ∧ (col4 2 0 0 (at_ 0x2300)).cOff 4 = false ∧
    (col4 2 0 0 (at_ 0x2300)).readBad false (at_ 0x2300) 16 = none ∧ ((col4 2 0 0 (at_ 0x2300)).fetchTabs 4 [(at_ 0x2300, 16)]).2 = true ∧
    ((releasing.slot 4).tab (at_ 0x2300) 16).map (fun bs => field bs 0 4) = some 0x05000001 ∧ releasing.poolOn 5 = true ∧ releasing.refOf 5 1 = 2 ∧
    { releasing with refs := [] }.refOf 5 1 = 0 ∧ (col4 (2 + 65 * 2 ^ 5) 0 0 (at_ 0x2300)).cReady 4 (· == 2) = true ∧
    64 < ((col4 (2 + 65 * 2 ^ 5) 0 0 (at_ 0x2300)).slot 4).cPool ∧
    (({ col4 2 0 0 (at_ 0x2300) with ue := [(sramPlace (pin + 0x2300), true)] }.fetchTabs 4 [(at_ 0x2300, 16)]).1.slot 4).tab (at_ 0x2300) 16 = none ∧
    ((col4 2 0 0 (5 * 2 ^ 48 + 2 ^ 42 + 0x2300)).fetchTabs 4 [(5 * 2 ^ 48 + 2 ^ 42 + 0x2300, 16)]).2 = false := by
  decide +kernel

def reduce6 : State := col4 1 (at_ 0x1000) (at_ 0x1080) (at_ 0x1400)

theorem test_col_reduce : leads (.collectiveReduce 4) reduce6 (fun t => (t.slot 4).stage == .started && t.loop.contains (.col ⟨5, 1, 6, 12, 0,
    .chunk false 1 [] (some ⟨0, .full [(0, 0x3F800000), (1, 0x40000000), (2, 0x40400000)]⟩)⟩)) = true := by decide +kernel

def rparm6 : List Nat := [at_ 0x2200, 0, pin + 0x5000, 0x1000, 5 * 2 ^ 32 + 1, 20 * 2 ^ 16 + 10, 2 ^ 32, 0]

/-- A REDUCE that has read what it names. -/
def reduced : State := (reduce6.fetchReduce 4).1
def newRed6 : Red := (reduced.slot 4).newRed 4 rparm6 [(5, 1)] colOwned

theorem witness_col_reduce : (reduce6.cReady 4 (· == 1) = true ∧ reduce6.cOff 4 = false ∧ (reduce6.fetchReduce 4).2 = true ∧
    reduced.rparmDenied (reduced.slot 4) = none ∧ (reduced.slot 4).rparm = some rparm6 ∧ (reduced.slot 4).refused = false ∧
    reduced.reduceChecks 4 (reduced.slot 4) rparm6 (.ok colSrc) (.ok colOwned) (.ok [(5, 1)]) = none ∧ (∀ y ∈ reduced.reds, y.slot ≠ 4 ∧ y.key ≠ 6) ∧
    (reduced.slot 4).cKey = 6 ∧ colOwned.shards.length = 1 ∧ receiverOf [(5, 1)] (newRed6.shardAt 0) 0 reduced.house = (reduced.house, reduced.room) ∧
    reduced.memNat (newRed6.areaOf 0) 2 = 6 ∧ reduced.memNat (newRed6.areaOf 0 + 2) 2 = 1 ∧
    reduced.srcChunks colSrc false false colOwned (newRed6.shardAt 0) ≠ []) ∧
    reduced.readTensor (reduced.slot 4) false (at_ 0x1000) = .ok colSrc ∧ reduced.readTensor (reduced.slot 4) true (at_ 0x1080) = .ok colOwned ∧
    reduced.readRooms (reduced.slot 4) (at_ 0x2200) 1 = .ok [(5, 1)] := by
  exact and_of dec_of (and_of ok_of (and_of ok_of ok_of)) (by decide +kernel)

/-- Its block is in error, or in room 2, or misaligned; step 0. -/
def badBlock : State := ({ reduce6 with ue := [(sramPlace (pin + 0x1400), true)] }.fetchReduce 4).1
def oddBlock : State := ((col4 1 (at_ 0x1000) (at_ 0x1080) (at_ 0x1408)).fetchReduce 4).1
def stepZero : State :=
  ({ reduce6 with slots := [(4, { reduce6.slot 4 with words := [6, 0x77, 6 * 2 ^ 16 + 1, 0, at_ 0x1000, at_ 0x1080, at_ 0x1400, 0] })] }.fetchReduce 4).1

theorem witness_reduce_stops : badBlock.rparmDenied (badBlock.slot 4) = none ∧ (badBlock.slot 4).rparm = none ∧
    ((col4 1 (at_ 0x1000) (at_ 0x1080) (5 * 2 ^ 48 + 2 ^ 42 + 0x1400)).fetchReduce 4).2 = false ∧ oddBlock.rparmDenied (oddBlock.slot 4) = some 0x14 ∧
    stepZero.reduceChecks 4 (stepZero.slot 4) rparm6 (.ok colSrc) (.ok colOwned) (.ok [(5, 1)]) = some 0x14 ∧
    bare.cReady 4 (· == 1) = false ∧ bare.redOf 4 = none := by
  decide +kernel

/-! ## Contributions -/

/-- A chunk of room 2's contribution to step 12 of key 6. -/
def chunk2 : Chunk := ⟨0, .full [(0, 0x3F800000)]⟩
def colMsg (b : ColBody) : ColMsg := ⟨5, 2, 6, 12, 0, b⟩
def contrib2 : ColMsg := colMsg (.chunk false 1 [] (some chunk2))

/-- A REDUCE of one element executes in slot 4 and awaits room 2's contribution, in a state `st`. -/
def red6 (st policy : Nat) (pool : Nat) : Red :=
  { slot := 4, key := 6, step := 12, policy := policy, comp := 0, rnd := 0, topk := 0, seed := 0, salt := 0, stream := 0, maskCols := 1, pool := pool, area := pin + 0x5000,
    stride := 0x1000, members := [(5, 1), (5, 2)], dst := colOwned, sends := [⟨0, 5, 1, false, none, []⟩],
    recvs := [⟨0, pin + 0x5000, true, [], [], [⟨5, 2, false, none, [], [], [], st⟩], false⟩], direct := false, doors := false, probed := [], dead := [], refused := false }
def reducing (st policy : Nat) : State :=
  let s := reduce6
  { s.setSlot 4 { s.slot 4 with stage := .started } with reds := [red6 st policy 5] }

theorem test_contribution_refused : leads (.contribution contrib2) reduce6 (fun t => t.reds == [] && t.out.contains (.again 5 2 (.col contrib2) false)) = true ∧
    leads (.contribution contrib2) { reducing 0 0 with pools := [] } (fun t => t.out.contains (.again 5 2 (.col contrib2) true) && t.reg Reg.colStageRetries == 1) = true := by
  decide +kernel

theorem test_contribution_late : leads (.contribution contrib2) (reducing 2 2) (fun t => t.reg Reg.colLateDropped == 1 &&
    t.out.contains (.unit 5 2 (.col ⟨5, 1, 6, 12, 0, .reply false 2⟩))) = true := by decide +kernel

/-- The receiver of `red6`, and the contribution it awaits. -/
def recv6 (st : Nat) : Recv := ⟨0, pin + 0x5000, true, [], [], [⟨5, 2, false, none, [], [], [], st⟩], false⟩
def part6 (st : Nat) : Contrib := ⟨5, 2, false, none, [], [], [], st⟩

theorem colComes_of {s : State} {m : ColMsg} (h : (!(m.house == s.house && m.room == s.room)) = true) : Claims.ColComes s s m := by
  simp only [Bool.not_eq_true', Bool.and_eq_false_iff, beq_eq_false_iff_ne] at h
  exact ⟨fun e => by cases h with | inl x => exact absurd e.1 x | inr x => exact absurd e.2 x, fun _ => rfl⟩

theorem witness_contribution : (∀ st ∈ [0, 1, 2, 3], Claims.Awaits (reducing st 0) contrib2 false (red6 st 0 5) (recv6 st) (part6 st) ∧
      (reducing st 0).lateParts = []) ∧
    ((reducing 0 0).redLive (red6 0 0 5) = true ∧ (recv6 0).excess = false ∧ (reducing 0 0).poolOn 5 = true ∧ (reducing 0 0).unitOff 81 = false ∧
      1 ≤ (reducing 0 0).poolFree 5 ∧ { reducing 0 0 with pools := [(5, ⟨[], 0, 0⟩)] }.poolFree 5 = 0 ∧
      (reduce6.reds.filter fun x => x.key == 6) = [] ∧ UnitBody.col (⟨5, 1, 6, 12, 0, .reply false 0⟩) ∉ (reducing 0 0).loop) ∧
    (∀ st ∈ [11, 13], ((reducing 0 0).reds.filter fun x => x.key == 6 && x.recvs.any fun r => r.shard == 0).getLast? = some (red6 0 0 5) ∧ (red6 0 0 5).step ≠ st) ∧
    Claims.ColComes (reducing 0 0) (reducing 0 0) contrib2 := by
  unfold Claims.Awaits
  exact and_of dec_of (and_of dec_of (and_of dec_of colComes_of)) (by decide +kernel)

/-- A late contribution of one element is carried (R426): the Sump is empty, or of this step. -/
def carrying (head : Nat) : State :=
  { reducing 2 1 with mem := colMem ++ blocks [(pin + 0x5002, leBytes 2 head), (pin + 0x5010, leBytes 8 12)] }
theorem witness_carry : ((red6 2 1 5).policy = 1 ∧ (red6 2 1 5).step = 12 ∧ 0 < (red6 2 1 5).elems 0 ∧ (red6 2 1 5).areaOf 0 = pin + 0x5000 ∧
      (red6 2 1 5).areaOf 0 % 64 = 0 ∧ (red6 2 1 5).maskCols ≠ 0 ∧ bit ((carrying 1).memNat (pin + 0x5002) 2) 1 = false ∧
      (carrying 1).memNat (pin + 0x5010) 8 = 12) ∧
    Claims.OneToOne (carrying 1) ∧ Claims.OnStacks (carrying 1) ∧
    Claims.Sound (carrying 1) (pin + 0x5000) (areaSize ((red6 2 1 5).elems 0) (red6 2 1 5).members.length (red6 2 1 5).maskCols (red6 2 1 5).comp) := by
  exact and_of dec_of (and_of oneToOne_of (and_of onStacks_of sound_of)) (by decide +kernel)

/-- This room has sent its contribution and receives nothing. -/
def replied : State :=
  let s := reducing 0 0
  { s with reds := [{ red6 0 0 5 with sends := [⟨0, 5, 2, false, none, []⟩], recvs := [] }] }

theorem test_contribution_reply : leads (.contributionReply (colMsg (.reply false 0))) replied (fun t => (t.slot 4).stage == .ended 0 0) = true ∧
    leads (.contributionReply (colMsg (.reply false 2))) replied (fun t => (t.slot 4).stage == .ended 2 1) = true := by decide +kernel

theorem witness_reply : (replied.reds = [{ red6 0 0 5 with sends := [⟨0, 5, 2, false, none, []⟩], recvs := [] }] ∧ (replied.slot 4).dead = false ∧
      replied.redLive (red6 0 0 5) = true ∧ replied.reds.find? (fun x => x.key == 6 && x.step == 13) = none ∧ (red6 0 0 5).refused = false) ∧
    Claims.ColComes replied replied (colMsg (.reply false 0)) := by
  exact and_of dec_of colComes_of (by decide +kernel)

theorem test_deadline : leads (.deadlineClose 4) (reducing 0 0) (fun t => (t.redOf 4).any fun y => y.direct && y.probed.contains (5, 2)) = true ∧
    leads (.doorDeadlineClose 4) (reducing 0 2) (fun t => (t.redOf 4).any fun y => y.doors) = true ∧
    leads (.probeTimeout 4 5 2) { reducing 0 0 with reds := [{ red6 0 0 5 with probed := [(5, 2)], direct := true }] }
      (fun t => (t.redOf 4).any fun y => y.dead.contains (5, 2)) = true := by decide +kernel

theorem witness_deadline : (reducing 0 0).redOf 4 = some (red6 0 0 5) ∧ (reducing 0 2).redOf 4 = some (red6 0 2 5) ∧ reduce6.redOf 4 = none ∧
    (reducing 0 0).redLive (red6 0 0 5) = true ∧ (red6 0 0 5).direct = false ∧ (red6 0 0 5).doors = false ∧
    (∃ r ∈ (red6 0 0 5).recvs, ∃ p ∈ r.parts, p.relay = false ∧ p.status = 0) ∧ (5, 2) ∉ (red6 0 0 5).probed ∧
    { reducing 0 0 with slots := [] }.redLive (red6 0 0 5) = false := by
  decide +kernel

theorem witness_stage_retry : (let s := { reducing 0 0 with kept := [⟨1, 5, 2, 5, 4, 0, .col contrib2⟩], nextKept := 2 }
    s.kept.find? (fun k => k.num == 1) = some ⟨1, 5, 2, 5, 4, 0, .col contrib2⟩ ∧ s.kept.find? (fun k => k.num == 2) = none ∧
    (s.slot 4).stage = .started ∧ UnitBody.col contrib2 ∉ s.loop) := by
  decide +kernel

theorem test_stage_retry : leads (.stageRetry 1) { reducing 0 0 with kept := [⟨1, 5, 2, 5, 4, 0, .col contrib2⟩], nextKept := 2 }
    (fun t => t.out.contains (.unit 5 2 (.col contrib2))) = true := by decide +kernel

/-- R423: chunks 0 and 1 of a shard await nothing more and chunk 2 has one contribution of two: the buffers of the first two are released. -/
theorem test_shed : let c := fun (k : Nat) => (⟨k, .full []⟩ : Chunk)
    ({ red6 0 0 5 with recvs := [⟨0, 0, true, [], [], [⟨5, 2, false, none, [c 0, c 2], [], [7, 8], 0⟩, ⟨5, 3, false, none, [c 1], [], [9], 0⟩], false⟩] } : Red).shed.1 = [7, 9] := by
  decide +kernel

end Sys2Proof.Tests
end

