-- ==== Sys2Proof/Tests/Cores.lean ====
section
/-! SUPPORT. Tests of the instructions of a core: states that meet the hypotheses of the statements, and what the commands leave there. -/

namespace Sys2Proof.Tests

open Sys2Proof.Machine

set_option Elab.async false

/-- Fields of an instruction word (R134). -/
def enc (cls op f1 f2 f3 i imm : Nat) : Nat := cls * 2 ^ 60 + op * 2 ^ 54 + f1 * 2 ^ 48 + f2 * 2 ^ 42 + f3 * 2 ^ 36 + i * 2 ^ 35 + imm

/-- Core 3 runs a program of three words, at the first of them, with s5 = 7, s6 = −2, a0 an address in pinned memory. -/
def prog (w : Nat) : State := running bare 3 [w, 0, 0] [(5, 7), (6, 2 ^ 64 - 2), (32, at_ 64)]

/-- Register of core 3. -/
def r3 (t : State) (f : Nat) : Nat := (t.core 3).get f

/-- The results of the scalar operations on −2 and 7 (R135). -/
def scalarResults : List Nat :=
  [5, 2 ^ 64 - 9, 2 ^ 64 - 14, 6, 6, 2 ^ 64 - 1, 2 ^ 64 - 7, 2 ^ 64 - 256, 2 ^ 57 - 1, 2 ^ 64 - 1, 1, 0, 2 ^ 64 - 2, 7]

theorem test_scalar : ∀ e ∈ Claims.scalarOps.zip scalarResults,
    issuesB (prog (enc 0 e.1.1 9 6 5 0 0)) 3 (enc 0 e.1.1 9 6 5 0 0) = true ∧
    leads (e.1.2.1 3) (prog (enc 0 e.1.1 9 6 5 0 0)) (fun t => r3 t 9 == e.2 && (t.core 3).pc == 1) = true ∧
    leads (e.1.2.1 3) (prog (enc 0 e.1.1 9 6 0 1 0xFFFFFFFE)) (fun t => r3 t 9 == (e.1.2.2 (2 ^ 64 - 2) (2 ^ 64 - 2)).toNat) = true := by
  decide +kernel

theorem witness_scalar : Claims.Issues (prog (enc 0 0 9 6 5 0 0)) 3 (enc 0 0 9 6 5 0 0) ∧ Claims.Opcode (enc 0 0 9 6 5 0 0) 0 0 ∧
    Claims.ScalarFields (enc 0 0 9 6 5 0 0) ∧ Claims.NotPending ((prog (enc 0 0 9 6 5 0 0)).core 3) [9, 6, 5] := by
  and_intros <;> first | decide +kernel | exact issues_of (by decide +kernel) | exact oneToOne_of (by decide +kernel) | exact sound_of (by decide +kernel) | (unfold Claims.RegField; decide +kernel) | (unfold Claims.Opcode; decide +kernel) | (unfold Claims.ScalarFields Claims.RegField; decide +kernel) | (unfold Claims.NotPending; decide +kernel)

theorem test_movhi : leads (.movhi 3) (prog (enc 0 0xE 9 6 0 0 0x12345678)) (fun t => r3 t 9 == 0x12345678FFFFFFFE) = true := by decide +kernel

/-- A write to s0 is discarded. -/
theorem test_s0 : leads (.add 3) (prog (enc 0 0 0 6 5 0 0)) (fun t => r3 t 0 == 0 && (t.core 3).pc == 1) = true := by decide +kernel

theorem test_gets : leads (.gets 3) (prog (enc 0 0xF 9 0 0 0 1)) (fun t => r3 t 9 == 3) = true ∧
    leads (.gets 3) (prog (enc 0 0xF 9 0 0 0 2)) (fun t => r3 t 9 == 2) = true ∧
    leadsTo (.gets 3) (prog (enc 0 0xF 9 0 0 0 5)) ((prog (enc 0 0xF 9 0 0 0 5)).progFault 3 1 (enc 0 0xF 9 0 0 0 5)) = true := by decide +kernel

theorem witness_gets : Claims.Issues (prog (enc 0 0xF 9 0 0 0 4)) 3 (enc 0 0xF 9 0 0 0 4) ∧ Claims.Opcode (enc 0 0xF 9 0 0 0 4) 0 0xF ∧
    Claims.ScalarFields (enc 0 0xF 9 0 0 0 4) ∧ Claims.getsValue (prog (enc 0 0xF 9 0 0 0 4)) 3 ⟨0, 0, 3, 3, 0, 2, false, false⟩ 4 = some 0 := by
  and_intros <;> first | decide +kernel | exact issues_of (by decide +kernel) | exact oneToOne_of (by decide +kernel) | exact sound_of (by decide +kernel) | (unfold Claims.RegField; decide +kernel)

/-- Branch of class 1 on registers `a`, `b` by `off`. -/
def br (op a b off : Nat) : Nat := enc 1 op a b 0 0 off

/-- s6 = −2, s5 = 7: which branches are taken. -/
theorem test_branch : ∀ e ∈ Claims.branchOps.zip [false, true, true, false, false, true],
    issuesB (prog (br e.1.1 6 5 2)) 3 (br e.1.1 6 5 2) = true ∧
    leads (e.1.2.1 3) (prog (br e.1.1 6 5 2)) (fun t => (t.core 3).pc == (if e.2 then 2 else 1)) = true ∧
    (e.2 = true → leadsTo (e.1.2.1 3) (prog (br e.1.1 6 5 3)) ((prog (br e.1.1 6 5 3)).progFault 3 6 (br e.1.1 6 5 3)) = true ∧
      leadsTo (e.1.2.1 3) (prog (br e.1.1 6 5 0xFFFFFFFF)) ((prog (br e.1.1 6 5 0xFFFFFFFF)).progFault 3 6 (br e.1.1 6 5 0xFFFFFFFF)) = true) := by
  decide +kernel

theorem witness_branch : Claims.Issues (prog (br 1 6 5 2)) 3 (br 1 6 5 2) ∧ Claims.Opcode (br 1 6 5 2) 1 1 ∧ Claims.BranchFields (br 1 6 5 2) ∧
    Claims.NotPending ((prog (br 1 6 5 2)).core 3) [6, 5] ∧ Claims.branchTarget (prog (br 1 6 5 2)) 3 (br 1 6 5 2) = 2 ∧
    Claims.branchTarget (prog (br 1 6 5 0xFFFFFFFF)) 3 (br 1 6 5 0xFFFFFFFF) = -1 := by
  and_intros <;> first | decide +kernel | exact issues_of (by decide +kernel) | exact oneToOne_of (by decide +kernel) | exact sound_of (by decide +kernel) | (unfold Claims.RegField; decide +kernel) | (unfold Claims.Opcode; decide +kernel) | (unfold Claims.BranchFields Claims.RegField; decide +kernel) | (unfold Claims.NotPending; decide +kernel)

theorem test_jal : leads (.jal 3) (prog (br 8 7 0 2)) (fun t => (t.core 3).pc == 2 && r3 t 7 == 1) = true ∧
    leadsTo (.jal 3) (prog (br 8 7 0 3)) ((prog (br 8 7 0 3)).progFault 3 6 (br 8 7 0 3)) = true := by decide +kernel

theorem test_jr : leads (.jr 3) (prog (br 9 5 0 0xFFFFFFFB)) (fun t => (t.core 3).pc == 2) = true ∧
    leadsTo (.jr 3) (prog (br 9 5 0 0)) ((prog (br 9 5 0 0)).progFault 3 6 (br 9 5 0 0)) = true := by decide +kernel

/-- TRAP: the core's LAUNCH has its fault, the core stops, the record names it. -/
theorem test_trap : leads (.trap 3) (prog (br 0xE 0 0 0)) (fun t => t.reg (Reg.coreFault 3) == 7 * 2 ^ 8 + 0x13 && (t.lrun 0).fault == some (7, 0) &&
    t.heldFaults.any fun f => f.status == 0x14 && f.info == 0x700 && f.kind == 1 && f.index == 3) = true := by decide +kernel

theorem witness_trap : Claims.Issues (prog (br 0xE 0 0 0)) 3 (br 0xE 0 0 0) ∧ Claims.Opcode (br 0xE 0 0 0) 1 0xE ∧ Claims.BranchFields (br 0xE 0 0 0) := by
  and_intros <;> first | decide +kernel | exact issues_of (by decide +kernel) | exact oneToOne_of (by decide +kernel) | exact sound_of (by decide +kernel) | (unfold Claims.RegField; decide +kernel)

theorem test_end : leads (.endProg 3) (prog (br 0xF 0 0 0)) (fun t => (t.core 3).run == none && (t.lrun 0).done == [0] &&
    t.reg (Reg.coreInstrDone 3) == 1) = true := by decide +kernel

theorem witness_end : Claims.Issues (prog (br 0xF 0 0 0)) 3 (br 0xF 0 0 0) ∧ Claims.Opcode (br 0xF 0 0 0) 1 0xF ∧
    ((prog (br 0xF 0 0 0)).core 3).outs = [] ∧ ((prog (br 0xF 0 0 0)).core 3).syncs = [] ∧ (∀ d ∈ (prog (br 0xF 0 0 0)).dips, d.core ≠ 3) := by
  and_intros <;> decide +kernel

/-- Reserved classes and operations, a reserved bit, and control beyond the program. -/
theorem test_illegal :
    (∀ w ∈ [7 * 2 ^ 60, 15 * 2 ^ 60, enc 0 0x10 0 0 0 0 0, enc 1 6 0 0 0 0 0, enc 4 0xE 0 0 0 0 0, enc 6 3 0 0 0 0 0], issuesB (prog w) 3 w = true ∧
      opKnown (bits w 63 60) (bits w 59 54) = false ∧
      ∀ c ∈ [Instr.add 3, .gets 3, .beq 3, .jal 3, .endProg 3, .sld 3, .tdef 3, .mma 3, .fence 3], leadsTo c (prog w) ((prog w).progFault 3 1 w) = true) ∧
    leadsTo (.add 3) (prog (enc 0 0 9 6 5 0 (2 ^ 34))) ((prog (enc 0 0 9 6 5 0 (2 ^ 34))).progFault 3 1 (enc 0 0 9 6 5 0 (2 ^ 34))) = true ∧
    leadsTo (.add 3) (running bare 3 [] []) ((running bare 3 [] []).progFault 3 6 0) = true := by decide +kernel

/-- s9 is pending. -/
def pended (w : Nat) : State := (prog w).setCore 3 { (prog w).core 3 with pend := [9] }

theorem test_pending : leads (.add 3) (pended (enc 0 0 9 6 5 0 0)) (fun t => (t.core 3).pc == 0 && (t.core 3).waitAt == some (WaitFor.operands, 0)) = true ∧
    9 ∈ ((pended (enc 0 0 9 6 5 0 0)).core 3).pend := by decide +kernel

/-- A word of class 2 with a0 as its address register. -/
def mem2 (op rd rb sub imm : Nat) : Nat := enc 2 op rd 32 rb 0 (sub * 2 ^ 32 + imm)

theorem test_sld : leads (.sld 3) (prog (mem2 0 9 0 3 8)) (fun t => (t.core 3).pend == [9] &&
      (t.core 3).outs.map (fun a => (a.addr, a.size, a.remote)) == [(at_ 72, 8, false)]) = true ∧
    leadsTo (.sld 3) (prog (mem2 0 9 0 3 4)) ((prog (mem2 0 9 0 3 4)).progFault 3 4 (mem2 0 9 0 3 4)) = true ∧
    leadsTo (.sld 3) (prog (mem2 0 9 0 3 0x1000000)) ((prog (mem2 0 9 0 3 0x1000000)).progFault 3 5 (mem2 0 9 0 3 0x1000000)) = true := by
  decide +kernel

theorem witness_sld : Claims.Issues (prog (mem2 0 9 0 3 8)) 3 (mem2 0 9 0 3 8) ∧ Claims.Opcode (mem2 0 9 0 3 8) 2 0 ∧
    Claims.accessAddr ((prog (mem2 0 9 0 3 8)).core 3) (mem2 0 9 0 3 8) = at_ 72 ∧ (prog (mem2 0 9 0 3 8)).coreMay .load true (at_ 72) 8 = true ∧
    (prog (mem2 0 9 0 3 0x1000000)).coreMay .load true (at_ 0x1000040) 8 = false := by
  and_intros <;> decide +kernel

/-- A load of another room goes out as a request. -/
theorem test_sld_remote : leads (.sld 3) ((prog (mem2 0 9 0 3 0)).setCore 3 (((prog (mem2 0 9 0 3 0)).core 3).put 32 (mkAddr 5 2 pin)))
    (fun t => t.reqs.map (fun r => (r.cell.ty, r.cell.dstRoom, r.cell.addr, r.cell.len)) == [(0, 2, 2 * 2 ^ 41 + pin, 7)] && (t.core 3).pend == [9]) = true := by
  decide +kernel

theorem test_sst : leads (.sst 3) (prog (mem2 1 0 5 2 0)) (fun t => (t.core 3).pend == [] &&
      (t.core 3).outs.map (fun a => (a.addr, a.size, a.data)) == [(at_ 64, 4, 7)]) = true ∧
    leadsTo (.sst 3) (prog (mem2 1 0 5 2 2)) ((prog (mem2 1 0 5 2 2)).progFault 3 4 (mem2 1 0 5 2 2)) = true := by decide +kernel

theorem test_amo_issue : ∀ e ∈ Claims.amoOps, leads (e.2.1 3) (prog (mem2 2 9 5 e.1 0)) (fun t => (t.core 3).pend == [9] &&
      (t.core 3).outs.map (fun a => (a.addr, a.size, a.sub, a.data)) == [(at_ 64, e.2.2, e.1, 7)]) = true ∧
    leadsTo (e.2.1 3) (prog (mem2 2 9 5 e.1 2)) ((prog (mem2 2 9 5 e.1 2)).progFault 3 4 (mem2 2 9 5 e.1 2)) = true := by decide +kernel

/-- Core 3 with one access outstanding, on memory that holds the bytes 0x80, 0x81, …, 0x8F at 64. -/
def outst (a : Access) : State :=
  let s := running (withMem bare (pin + 64) ((List.range 16).map fun i => BitVec.ofNat 8 (0x80 + i))) 3 [0] [(9, 0x8786858483828180)]
  s.setCore 3 { s.core 3 with outs := [a], pend := [9], nextId := 1 }

/-- An access to offset 64. -/
def accAt (k : AKind) (size sub data cmp : Nat) : Access :=
  ⟨0, k, at_ 64, size, 9, sub, data, cmp, Handle.none, 0, 0, false, 1, [], false, false, 0, 0⟩

theorem test_sld_arrives : leads (.pendingValueArrives 3 0) (outst (accAt .sld 4 4 0 0)) (fun t => r3 t 9 == 0xFFFFFFFF83828180 &&
      (t.core 3).pend == [] && (t.core 3).outs == []) = true ∧
    leads (.pendingValueArrives 3 0) (outst (accAt .sld 8 0 0 0)) (fun t => r3 t 9 == 0x8786858483828180) = true := by decide +kernel

theorem witness_sld_arrives : ((outst (accAt .sld 4 4 0 0)).core 3).mustWait (accAt .sld 4 4 0 0) = false ∧
    ((outst (accAt .sld 4 4 0 0)).core 3).outs[0]? = some (accAt .sld 4 4 0 0) ∧ Claims.Sound (outst (accAt .sld 4 4 0 0)) (aOff (at_ 64)) 4 ∧
    (outst (accAt .sld 4 4 0 0)).coreCut 3 (aOff (at_ 64)) = false ∧ Claims.OneToOne (outst (accAt .sld 4 4 0 0)) ∧ Claims.OnStacks (outst (accAt .sld 4 4 0 0)) := by
  and_intros <;> first | decide +kernel | exact issues_of (by decide +kernel) | exact oneToOne_of (by decide +kernel) | exact onStacks_of (by decide +kernel) | exact sound_of (by decide +kernel)

theorem test_sst_arrives : leads (.pendingValueArrives 3 0) (outst (accAt .sst 2 0 0x1234 0)) (fun t => t.memNat (pin + 64) 4 == 0x83821234 &&
    (t.core 3).outs == [] && t.memNat (pin + 68) 8 == 0x8B8A898887868584) = true := by decide +kernel

/-- The old value comes back, and the table's new value stands: swap, cas, add, and, or, xor, maxima and minima (R347). -/
theorem test_amo_issues : ∀ e ∈ [(0, 5), (1, 5), (2, 0x8786858483828185), (3, 0), (4, 0x8786858483828185), (5, 0x8786858483828185), (6, 5), (7, 0x8786858483828180),
      (8, 0x8786858483828180), (9, 5), (10, 0x8786858483828185), (11, 0x8786858400000005)],
    leads (.pendingValueArrives 3 0) (outst (accAt .amo 8 e.1 5 0x8786858483828180)) (fun t => t.memNat (pin + 64) 8 == e.2 &&
      r3 t 9 == (if e.1 < 10 then 0x8786858483828180 else 0x83828180) && (t.core 3).pend == []) = true := by decide +kernel

/-- 1.0 + 2.0, twice for the pair; the maximum; four BF16 sums (R349). -/
theorem test_amo_float :
    let s := fun sub data => { (outst (accAt .amo 8 sub data 0)) with
      mem := (leBytes 8 0x3F8000003F800000).zipIdx.filterMap fun b => if b.1 = 0 then none else some (sramPlace (pin + 64 + b.2), b.1) }
    leads (.pendingValueArrives 3 0) (s 0xC 0x40000000) (fun t => t.memNat (pin + 64) 8 == 0x3F80000040400000) = true ∧
    leads (.pendingValueArrives 3 0) (s 0xD 0x4000000040000000) (fun t => t.memNat (pin + 64) 8 == 0x4040000040400000) = true ∧
    leads (.pendingValueArrives 3 0) (s 0xE 0x7FC00000) (fun t => t.memNat (pin + 64) 4 == 0x3F800000) = true ∧
    leads (.pendingValueArrives 3 0) (s 0xF 0x4000400040004000) (fun t => t.memNat (pin + 64) 8 == 0x4040400040404000) = true := by decide +kernel

end Sys2Proof.Tests
end

