-- ==== Sys2Proof/Tests/Fabric.lean ====
section
/-! SUPPORT. Tests of the fabric: requests that arrive, responses, transit, ports and routes. -/

namespace Sys2Proof.Tests

open Sys2Proof.Machine

set_option Elab.async false

/-- House ports 3 and 7 and door port 31 are up; room 2 lies behind port 3, room 3 behind port 7, house 6 behind the door. -/
def wired : State :=
  withRegs bare [(Reg.fabPortStatus 3, 5 * 2 ^ 48 + 2 * 2 ^ 40 + 3 * 2 ^ 32 + 1), (Reg.fabPortStatus 7, 5 * 2 ^ 48 + 3 * 2 ^ 40 + 7 * 2 ^ 32 + 1),
    (Reg.fabPortStatus 31, 6 * 2 ^ 48 + 31 * 2 ^ 32 + 1), (Reg.roomRouteA 2, 0x103), (Reg.roomRouteA 3, 0x107), (Reg.houseRouteA 6, 2 ^ 25 + 1)]

/-- A request of type `ty` of room 2 for byte `o` of this room's pinned memory. -/
def cell2 (ty aux o len : Nat) (payload : List Byte) : Cell :=
  cellSealed ⟨5, 1, 0, 5, 2, 0, 0, 0, ty, false, false, false, true, 9, len, aux, at_ o % 2 ^ 46, 0, payload, 0⟩

/-- The word 5 stands at offset 0x2000, the FP32 number 1 at 0x2008. -/
def stored : State := { wired with mem := blocks [(pin + 0x2000, leBytes 8 5 ++ leBytes 4 0x3F800000)] }

/-- Some cell has left, or waits, with this type, status and payload. -/
def answers (t : State) (ty aux : Nat) (payload : List Byte) : Bool :=
  (t.waiting ++ t.out.filterMap fun o => match o with | .cell _ c => some c | _ => none).any fun d =>
    d.dstHouse == 5 && d.dstRoom == 2 && d.ty == ty && d.aux == aux && decide (d.payload = payload) && d.tag == 9 && cellIntact d

/-- CRC-32C of the nine characters 123456789 is 0xE3069283, the check value of that code. -/
theorem test_crc : crc32c (leBytes 8 0x3837363534333231 ++ leBytes 1 0x39) = 0xE3069283 := by decide +kernel

def loadC : Cell := cell2 0 0 0x2000 7 []
def storeC : Cell := cell2 1 0 0x2010 3 (leBytes 4 0xAABBCCDD)
def amoC : Cell := cell2 2 2 0x2000 7 (leBytes 8 3)
def eaC : Cell := cell2 3 (EType.fp32.code * 2 ^ 8) 0x2008 3 (leBytes 4 0x40000000)
def eaI : Cell := cell2 3 (EType.int32.code * 2 ^ 8) 0x2000 3 (leBytes 4 0xFFFFFFFE)

theorem test_load : leads (.load 3 loadC []) stored (fun t => answers t 8 0 (leBytes 8 5) && decide (t.mem = stored.mem)) = true := by decide +kernel
theorem test_store : leads (.store 3 storeC) stored (fun t => answers t 9 0 [] && t.memNat (pin + 0x2010) 4 == 0xAABBCCDD && t.wasApplied storeC == some 0) = true := by
  decide +kernel
theorem test_amo : leads (.amo 3 amoC []) stored (fun t => answers t 9 0 (leBytes 8 5) && t.memNat (pin + 0x2000) 8 == 8 && t.wasApplied amoC == some 5) = true := by
  decide +kernel
theorem test_eatomic : leads (.eatomic 3 eaC []) stored (fun t => answers t 9 0 [] && t.memNat (pin + 0x2008) 4 == 0x40400000) = true ∧
    leads (.eatomic 3 eaI []) stored (fun t => answers t 9 0 [] && t.memNat (pin + 0x2000) 4 == 3) = true := by decide +kernel

/-- A second AMO of another tag at the same crossbar: each gets the value before its own. -/
theorem test_amo_combined :
    leads (.amo 3 amoC [⟨7, cellSealed { amoC with srcRoom := 3, tag := 4, payload := leBytes 8 10 }, false⟩]) (stored.setFlag Reg.fabCtl 0 true)
      (fun t => answers t 9 0 (leBytes 8 5) && t.memNat (pin + 0x2000) 8 == 18 && t.reg Reg.fabAtomicsCombined == 1 &&
        t.out.any fun o => match o with | .cell q d => q == 7 && d.tag == 4 && decide (d.payload = leBytes 8 8) | _ => false) = true := by decide +kernel

theorem witness_load : Claims.Serves stored 3 loadC 0 := by
  and_intros <;> decide +kernel
theorem witness_store : Claims.Serves stored 3 storeC 1 ∧ Claims.OneToOne stored ∧ Claims.OnStacks stored ∧
    Claims.Sound stored (aOff storeC.addr) (storeC.len + 1) := by
  unfold Claims.Serves Claims.CellComes
  exact and_of dec_of (and_of oneToOne_of (and_of onStacks_of sound_of)) (by decide +kernel)
theorem witness_amo : Claims.Serves stored 3 amoC 2 ∧ Claims.OneToOne stored ∧ Claims.OnStacks stored ∧ Claims.Sound stored (aOff amoC.addr) 8 := by
  unfold Claims.Serves Claims.CellComes
  exact and_of dec_of (and_of oneToOne_of (and_of onStacks_of sound_of)) (by decide +kernel)
theorem witness_eatomic : (∀ c ∈ [eaC, eaI], Claims.Serves stored 3 c 3 ∧ (eaParts c).length = 1 ∧ eaWide c = false ∧ eaOp c = 0 ∧ (eaType c).width = 32) ∧
    eaParts eaC = [0x40000000] ∧ eaParts eaI = [0xFFFFFFFE] ∧ Claims.OneToOne stored ∧ Claims.OnStacks stored ∧ Claims.Sound stored (aOff eaC.addr) 4 ∧
    Claims.Sound stored (aOff eaI.addr) 4 := by
  unfold Claims.Serves Claims.CellComes
  exact and_of dec_of (and_of dec_of (and_of dec_of (and_of oneToOne_of (and_of onStacks_of (and_of sound_of sound_of))))) (by decide +kernel)

/-- The same requests of room 3, on port 7. -/
def twin (c : Cell) : Cell := cellSealed { c with srcRoom := 3, tag := 4 }
def joining : State := stored.setReg Reg.fabCtl 3

theorem witness_combined : (∀ e ∈ [(loadC, 0), (amoC, 2), (eaC, 3), (eaI, 3)], Claims.Serves joining 3 e.1 e.2 ∧ Claims.Serves joining 7 (twin e.1) e.2) ∧
    joining.flag Reg.fabCtl 0 = true ∧ joining.combRoom (portDie 3) = true ∧ combines loadC (twin loadC) = true ∧ amoCombines amoC (twin amoC) = true ∧
    joining.eaCombines eaC (twin eaC) = true ∧ joining.eaCombines eaI (twin eaI) = true ∧ joining.dormant = false := by
  unfold Claims.Serves Claims.CellComes
  decide +kernel

/-- In NAP; a store to Cistern storage; one applied before. -/
def napping : State := stored.setReg Reg.powerStatus 2
def badC : Cell := cellSealed { storeC with addr := (home + 0x1C000000000) % 2 ^ 46 }
def applied : State := { stored with applied := [(applyKey storeC, some (true, 0))] }

theorem test_turned_away : leads (.store 3 storeC) napping (fun t => answers t 0xA 0x20 []) = true ∧
    leads (.store 3 badC) stored (fun t => answers t 0xA 0x15 [] && t.reg Reg.fabInboundRefused == 1) = true ∧
    leads (.store 3 storeC) applied (fun t => answers t 9 0 [] && t.reg Reg.fabDupRequests == 1 && t.memNat (pin + 0x2010) 4 == 0) = true := by decide +kernel

/-- Every link of fabric die 3 is down (R17). -/
def cutOff : State := { stored with pkgDown := [535, 567, 599, 631, 663, 695, 727] }

theorem witness_turned_away : Claims.CellComes napping 3 storeC 1 ∧ napping.dormant = true ∧ Claims.CellComes stored 3 badC 1 ∧ stored.dormant = false ∧
    stored.wasApplied badC = none ∧ stored.refuses badC = true ∧ Claims.CellComes applied 3 storeC 1 ∧ applied.wasApplied storeC = some 0 ∧
    stored.portTakes 4 = false ∧ stored.refuses storeC = false ∧ cutOff.requestCut 3 storeC = true := by
  unfold Claims.CellComes
  decide +kernel

/-- A store, and a load, for room 0 of house 6. -/
def awayC (c : Cell) : Cell := cellSealed { c with dstHouse := 6, dstRoom := 0 }
theorem witness_at_door : (∀ e ∈ [(loadC, 0), (storeC, 1), (amoC, 2), (eaC, 3)], Claims.AtDoor wired 3 (awayC e.1) e.2) ∧ Claims.NoneWait wired ∧
    wired.doorOff (awayC storeC) = false ∧ wired.doorMsgs = [] ∧ (wired.setReg (Reg.unitState 79) 1).doorOff (awayC storeC) = true ∧
    Claims.AtDoor (wired.setReg (Reg.unitState 79) 1) 3 (awayC storeC) 1 := by
  have on := doorOff_one (s := wired) (c := awayC storeC) (p := 31) (by decide +kernel)
  have off := doorOff_one (s := wired.setReg (Reg.unitState 79) 1) (c := awayC storeC) (p := 31) (by decide +kernel)
  unfold Claims.AtDoor Claims.NoneWait
  rw [on, off]
  decide +kernel

/-- A wrong checksum; a type R361 does not list. -/
theorem test_dropped : leads (.store 3 { storeC with tag := 8 }) stored (fun t => t.reg Reg.fabE2eErrors == 1 && decide (t.mem = stored.mem)) = true ∧
    leads (.msg 3 (cell2 5 0 0 0 []) none) stored (fun t => t.reg Reg.fabBadCells == 1) = true := by decide +kernel

theorem witness_dropped : stored.portTakes 3 = true ∧ stored.forHere { storeC with tag := 8 } = true ∧ cellIntact { storeC with tag := 8 } = false ∧
    cellIntact (cell2 5 0 0 0 []) = true ∧ badCell (cell2 5 0 0 0 []) = true ∧ stored.forHere (cell2 5 0 0 0 []) = true := by
  decide +kernel

/-- A message for the collective engine, and one for Pantry 0 that takes a reference on buffer 1 of pool 5. -/
def msgC (u : Nat) : Cell := cellSealed { cell2 4 0 0 0 (leBytes 1 1) with dstUnit := u, addr := 0 }
def pooled : State := { withRegs wired [(Reg.panCfg 5, 2 ^ 63 + 8 * 2 ^ 32 + 16), (Reg.panBase 5, pin + 0x10000)] with
  pools := [(5, ⟨[2, 3, 4], 0, 0⟩)], refs := [(5 * 2 ^ 20 + 1, 2)] }

/-- What room 2 asks of pool 5: an operation, how many, handles. -/
def ask (op n : Nat) (l : List Nat) : PoolMsg := ⟨4, 5, op, n, l, [], false⟩

theorem test_msg : leads (.msg 3 (msgC 5) none) pooled (fun t => answers t 9 0 [] && t.wasApplied (msgC 5) == some 0) = true ∧
    leads (.msg 3 (msgC 13) (some (ask 1 1 [0x05000001]))) pooled (fun t => answers t 9 0 [] && t.refOf 5 1 == 3) = true := by decide +kernel

theorem witness_msg : (∀ u ∈ [1, 5, 13, 16], Claims.CellComes pooled 3 (msgC u) 4 ∧ pooled.wasApplied (msgC u) = none) ∧
    pooled.poolOn (poolOf 0x05000001) = true ∧ pooled.refOf (poolOf 0x05000001) (bufOf 0x05000001) = 2 ∧ pooled.unitOff 81 = false ∧
    pooled.poolFree 5 = 3 ∧ (ask 0 3 []).n ≤ pooled.poolFree 5 ∧ pooled.poolFree 5 < (ask 0 4 []).n ∧
    (∀ q < 4, (withRegs pooled ((List.range 4).map fun q => (Reg.unitState (68 + q), 1))).unitOff (68 + q) = true) ∧
    { pooled with applied := [(applyKey (msgC 5), some (true, 0))] }.wasApplied (msgC 5) = some 0 := by
  unfold Claims.CellComes
  decide +kernel

/-- A POOL_OP of slot 4 awaits room 2's answer. -/
def polling : State := { pooled with slots := [(4, { Slot.none with words := [11, 0, 1 * 2 ^ 16 + 5, 5 * 2 ^ 48 + 2 ^ 42, at_ 64, 0, 0, 0], stage := .ready, step := 1 })] }
theorem witness_pool_answer : (polling.slot (ask 3 1 [7]).id).opcode = 11 ∧ (polling.slot 4).stage = .ready ∧ (polling.slot 4).step = 1 ∧
    (polling.slot 4).poolNo = 5 ∧ aHouse ((polling.slot 4).word 3) = (msgC 13).srcHouse ∧ aRoom ((polling.slot 4).word 3) = (msgC 13).srcRoom := by
  decide +kernel

def mgmtC : Cell := cellSealed { cell2 0xF 0 0 0 (leBytes 1 1) with dstUnit := 63, addr := 0 }
def idling : State := wired.setReg Reg.powerStatus 1

theorem test_mgmt : leads (.mgmt 3 mgmtC) idling (fun t => t.fieldOf Reg.powerStatus 2 0 == 0) = true ∧
    leads (.mgmt 3 mgmtC) napping (fun t => t.fieldOf Reg.powerStatus 2 0 == 6) = true ∧ leadsTo (.mgmt 3 mgmtC) wired wired = true := by decide +kernel

theorem witness_mgmt : Claims.CellComes idling 3 mgmtC 0xF ∧ idling.entry = none ∧ idling.fieldOf Reg.powerStatus 2 0 = 1 ∧
    Claims.CellComes napping 3 mgmtC 0xF ∧ napping.fieldOf Reg.powerStatus 2 0 = 2 ∧ Claims.CellComes wired 3 mgmtC 0xF ∧
    wired.fieldOf Reg.powerStatus 2 0 ∉ [1, 2] ∧ { wired with entry := some 2 }.entry.isSome = true := by
  unfold Claims.CellComes
  decide +kernel

/-! ## The tracker -/

/-- A store of slot 4 to room 2, with tag 9, is outstanding. -/
def outC : Cell := cellSealed ⟨5, 2, 0, 5, 1, 0, 0, 0, 1, false, false, false, true, 9, 3, 0, mkAddr 0 2 (pin + 0x40), 0, leBytes 4 7, 0⟩
def req9 : Req := ⟨outC, .slot 4, false, true, false⟩
def askedRoom : State := { wired with reqs := [req9], slots := [(4, { Slot.none with stage := .started })] }
def reply2 (ty aux : Nat) (payload : List Byte) : Cell := cellSealed { cell2 ty aux 0 (payload.length - 1) payload with addr := 0 }

theorem test_responses : leads (.ack 3 (reply2 9 0 [])) askedRoom (fun t => decide (t.reqs = [])) = true ∧
    leads (.refused 3 (reply2 0xA 0x15 [])) askedRoom (fun t => decide (t.reqs = []) && (t.slot 4).refused) = true ∧
    leads (.data 3 (reply2 8 0x20 (leBytes 8 0))) askedRoom (fun t => decide (t.reqs = []) && (t.slot 4).dead) = true ∧
    leads (.ack 3 (reply2 9 0 [])) wired (fun t => t.reg Reg.fabStaleResp == 1) = true := by decide +kernel

theorem stands_of {s : State} {r : Req} (h : (decide (s.reqs = [r]) && !r.held && decide (s.combs = [])) = true) : Claims.Stands s 0 r := by
  simp only [Bool.and_eq_true, decide_eq_true_eq, Bool.not_eq_true'] at h
  obtain ⟨⟨h1, h2⟩, h3⟩ := h
  refine ⟨by rw [h1]; rfl, h2, fun j q hj _ => ?_, fun b hb => ?_⟩
  · rw [h1] at hj
    cases j with
    | zero => rfl
    | succ n => cases hj
  · rw [h3] at hb
    cases hb

theorem witness_responses : ((∀ e ∈ [(reply2 9 0 [], 9), (reply2 0xA 0x15 [], 0xA), (reply2 8 0x20 (leBytes 8 0), 8)],
      Claims.CellComes askedRoom 3 e.1 e.2 ∧ req9.cell.tag = e.1.tag ∧ req9.cell.pass = e.1.pass) ∧ Claims.NoneHeld askedRoom ∧ req9.who = .slot 4 ∧
      req9.cell.ty ≠ 2 ∧ Claims.CellComes wired 3 (reply2 9 0 []) 9 ∧ wired.reqs = []) ∧ Claims.Stands askedRoom 0 req9 := by
  unfold Claims.NoneHeld Claims.CellComes
  exact and_of dec_of stands_of (by decide +kernel)

/-- An access of core 8 that is out as request 9: an SLD, an AMO, an SST. -/
def acc9 (k : AKind) : Access := ⟨0, k, mkAddr 5 0 outC.addr, 8, 6, 2, 7, 0, Handle.none, 0, 0, true, 1, [], false, false, 0, 0⟩
def coreReq (ty : Nat) : Req := { req9 with cell := { outC with ty := ty }, who := .core 8 0 }
def coreAsks (k : AKind) (ty : Nat) : State :=
  let s := running wired 8 [0, 0] []
  { s.setCore 8 { s.core 8 with outs := [acc9 k], pend := [6] } with reqs := [coreReq ty] }

theorem witness_core_asks : ∀ e ∈ [(AKind.sld, 0), (.amo, 2), (.sst, 1)], (coreReq e.2).who = .core 8 0 ∧
    ((coreAsks e.1 e.2).core 8).outs.find? (fun b => b.id == 0) = some (acc9 e.1) ∧ (acc9 e.1).addr = mkAddr (coreReq e.2).cell.dstHouse 0 (coreReq e.2).cell.addr ∧
    (((coreAsks e.1 e.2).core 8).run.any fun l => !l.stopping) = true ∧ (coreAsks e.1 e.2).reqs = [coreReq e.2] ∧ (coreAsks e.1 e.2).combs = [] := by
  decide +kernel

/-- A read of this room's own that a combining of port 7's die opened, for one LOAD of room 3. -/
def combined : State := { wired with reqs := [{ req9 with who := .comb }], combs := [⟨portDie 7, 0, 9, [twin loadC]⟩] }
theorem witness_comb : Claims.CellComes combined 3 (reply2 8 0 (leBytes 8 0)) 8 ∧ Claims.NoneHeld combined ∧ combined.reqs.map Req.who = [.comb] ∧
    (twin loadC).srcRoom ≠ combined.room := by
  unfold Claims.NoneHeld Claims.CellComes
  decide +kernel

theorem test_retransmit : leads (.requestRetransmit 9) askedRoom (fun t => t.out == [.cell 3 { outC with retry := true, hops := 1 }] && t.reg Reg.fabRetries == 1) = true := by
  decide +kernel
theorem test_timeout : leads (.targetTimeout 9) askedRoom (fun t => decide (t.reqs = []) && t.roomDead 2 && (t.slot 4).dead &&
    (t.heldFaults.getLast?.map fun f => (f.status, f.kind)) == some (0x20, 14)) = true := by decide +kernel

/-- The request is for room 0 of house 6, and no message holds it. -/
def afar : Req := { req9 with cell := { outC with dstHouse := 6, dstRoom := 0 } }
def asked6 : State := { askedRoom with reqs := [afar] }
theorem test_house_timeout : leads (.houseRequestTimeout 9) asked6 (fun t => decide (t.reqs = []) && (t.slot 4).dead && t.reg Reg.fabTimeouts == 1) = true := by decide +kernel

theorem witness_timeouts : (req9.sent = true ∧ req9.door = false ∧ req9.cell.dstHouse = askedRoom.house ∧ req9.cell.dstRoom < 32 ∧
      askedRoom.way askedRoom.activeB askedRoom.house (askedRoom.firstHop { outC with retry := true, epoch := askedRoom.activeB }) = .port 3 ∧ askedRoom.portShut housePorts 3 = false ∧
      askedRoom.roomDead req9.cell.dstRoom = false ∧ (askedRoom.setReg Reg.fabRoomDead 4).roomDead 2 = true ∧ Claims.NoneHeld askedRoom ∧ askedRoom.combs = [] ∧
      Claims.NoneHeld asked6 ∧ afar.cell.tag = 9 ∧ afar.cell.dstHouse ≠ asked6.house ∧ afar.door = false ∧ afar.who = .slot 4) ∧
    Claims.Stands askedRoom 0 req9 ∧ Claims.Stands asked6 0 afar := by
  unfold Claims.NoneHeld
  exact and_of dec_of (and_of stands_of stands_of) (by decide +kernel)

/-- Its room has no route, and every house port is down, or one is up. -/
def lost (n : Nat) : State := withRegs askedRoom [(Reg.roomRouteA 2, 0), (Reg.fabPortStatus 3, n), (Reg.fabPortStatus 7, 0)]
theorem witness_retransmit_spills : (∀ n ∈ [0, 1], (lost n).way false 5 ((lost n).firstHop { outC with retry := true, epoch := false }) = .spill) ∧
    (lost 1).spillPort 0 (fun x => !(lost 1).portShut housePorts x) = some 3 ∧ (lost 0).spillPort 0 (fun x => !(lost 0).portShut housePorts x) = none := by
  decide +kernel

/-! ## Transit -/

/-- A store of room 2 for room 3, one that has crossed 63 links, and one for a room with no route. -/
def via : Cell := cellSealed { storeC with dstRoom := 3 }
def stray : Cell := cellSealed { storeC with dstRoom := 0 }

theorem test_transit : leads (.cellTransit [⟨3, via, false⟩] []) wired (fun t => t.out == [.cell 7 { via with hops := 1 }]) = true ∧
    leads (.cellTransit [⟨3, { via with hops := 63 }, false⟩] []) wired (fun t => t.out == [] && t.reg Reg.fabDrops == 1) = true ∧
    leads (.cellTransit [⟨3, stray, false⟩] []) wired (fun t => t.out == [.cell 7 { stray with hops := 1, spills := 1 }] && t.reg Reg.fabSpills == 1) = true := by
  decide +kernel

theorem witness_transit : Claims.Clear wired ∧ (∀ c ∈ [via, stray], Claims.Arrives wired 3 c ∧ Claims.Plain wired c) ∧
    wired.way (wired.tableFor via).1 via.dstHouse via.dstRoom = .port 7 ∧ wired.portOpen (portDie 3) [] [] 7 = true ∧
    wired.way (wired.tableFor stray).1 stray.dstHouse stray.dstRoom = .spill ∧ Claims.spillsTo wired [] [] 3 = some 7 ∧
    wired.forHere { via with hops := 63 } = false ∧ wired.portTakes 3 = true ∧ wired.forHere storeC = true ∧ wired.portTakes 4 = false ∧
    Claims.Arrives wired 3 (cellSealed { storeC with dstHouse := 9, dstRoom := 0 }) ∧ wired.way false 9 0 = .miss := by
  unfold Claims.Arrives Claims.Clear Claims.Plain
  decide +kernel

/-- Port 3 alone is up: a cell that came by it leaves by it, at once, or, where the port is slow and not in its slot, in its turn. -/
def lone (slow : Bool) : State := withRegs wired [(Reg.fabPortStatus 7, 0), (Reg.fabPortStatus 3, (if slow then 4 else 0) + 1)]
theorem witness_transit_back : (∀ b ∈ [false, true], Claims.Arrives (lone b) 3 via ∧ Claims.Plain (lone b) via ∧ Claims.spillsTo (lone b) [3] [] 3 = none ∧
      (lone b).portShut [3] 3 = b ∧ (lone b).way ((lone b).tableFor stray).1 stray.dstHouse stray.dstRoom = .spill) ∧
    { lone true with slowOut := [(3, [via])] }.slowOut = [(3, [via])] ∧ { lone true with slowOut := [(3, [via])] }.flag (Reg.fabPortStatus 3) 0 = true := by
  unfold Claims.Arrives Claims.Clear Claims.Plain
  decide +kernel

/-- A LOAD of room 2 for room 3, as a combining of its die takes it or it opens one. -/
def viaLoad : Cell := cellSealed { loadC with dstRoom := 3 }
def joins (l : List Comb) : State := { wired with combs := l }.setFlag Reg.fabCtl 0 true
theorem witness_transit_joins : Claims.Arrives (joins []) 3 viaLoad ∧ (joins []).flag Reg.fabCtl 0 = true ∧ viaLoad.ty = 0 ∧ viaLoad.retry = false ∧
    cellIntact viaLoad = true ∧ viaLoad.dstHouse = (joins []).house ∧ (joins []).freeTag = some 0 ∧
    (joins []).way ((joins []).tableFor viaLoad).1 viaLoad.dstHouse viaLoad.dstRoom = .port 7 ∧ (joins []).portOpen (portDie 3) [] [] 7 = true ∧
    combines (cellSealed { viaLoad with srcRoom := 4 }) viaLoad = true ∧ (joins [⟨portDie 3, 0, 9, [cellSealed { viaLoad with srcRoom := 4 }]⟩]).now ≤ 64 := by
  unfold Claims.Arrives Claims.Clear
  decide +kernel

/-- Two for port 7: the one that has crossed more links before the other. -/
def both7 : State := wired.setReg (Reg.fabPortStatus 11) 1
theorem witness_priority : Claims.Before { via with hops := 5, tag := 1 } via ∧ Claims.Arrives both7 11 { via with hops := 5, tag := 1 } ∧
    Claims.Arrives both7 3 via ∧ both7.portOpen (portDie 11) [] [] 7 = true ∧ Claims.spillsTo both7 [] [7] 3 = some 11 := by
  unfold Claims.Before Claims.Arrives Claims.Clear
  decide +kernel

/-- Two cells for one output: the one that has crossed more links has it, the other spills. -/
theorem test_priority : leads (.cellTransit [⟨3, via, false⟩, ⟨11, { via with hops := 5, tag := 1 }, false⟩] []) (wired.setReg (Reg.fabPortStatus 11) 1) (fun t =>
    t.out == [.cell 7 { via with hops := 6, tag := 1 }, .cell 11 { via with hops := 1, spills := 1 }]) = true := by decide +kernel

/-! ## Ports and routes -/

theorem test_port_trained : leads (.portTrained 4 5 2 6 false) bare (fun t => t.flag (Reg.fabPortStatus 4) 0 && !t.flag (Reg.fabPortStatus 4) 3 && t.flag Reg.geomPortsUp 4) = true ∧
    leads (.portTrained 4 6 2 6 true) bare (fun t => t.flag (Reg.fabPortStatus 4) 3 && t.flag (Reg.fabPortStatus 4) 2) = true ∧
    leads (.portTrained 33 6 2 6 false) bare (fun t => !t.flag (Reg.fabPortStatus 33) 3) = true := by decide +kernel

theorem witness_port_trained : bare.ready = true ∧ bare.fieldOf Reg.powerStatus 2 0 ∉ [3, 4, 6] ∧ State.reset.ready = false ∧
    Claims.Miswired bare 4 6 2 ∧ Claims.Miswired bare 4 5 1 ∧ ¬Claims.Miswired bare 4 5 2 ∧ ¬Claims.Miswired bare 31 6 2 := by
  unfold Claims.Miswired
  decide +kernel

/-- Two cells not acknowledged on port 3. -/
def replaying (n : Nat) : State := { wired with replay := [(3, [via, stray])], linkFails := if n = 0 then [] else [(3, n)] }

theorem test_port_down : leads (.portDown 3 1) (replaying 0) (fun t => !t.flag (Reg.fabPortStatus 3) 0 && t.flag Reg.fabPortMask 3 && t.reg Reg.fabReinjected == 1 &&
    (t.heldFaults.getLast?.map fun f => (f.status, f.kind, f.index)) == some (0xFF, 7, 3)) = true := by decide +kernel
theorem test_replay : leads (.linkReplay 3 1) (replaying 2) (fun t => t.out == [.cell 3 stray] && Tbl.get 0 t.linkFails 3 == 1) = true ∧
    leads (.linkReplay 3 0) (replaying 2) (fun t => !t.flag (Reg.fabPortStatus 3) 0) = true := by decide +kernel
theorem witness_replay : (Tbl.get [] (replaying 2).replay 3).drop 1 = [stray] ∧ Tbl.get 0 (replaying 2).linkFails 3 = 2 ∧
    (replaying 2).flag (Reg.fabPortStatus 3) 0 = true ∧ Tbl.get 0 (replaying 0).linkFails 3 < 2 ∧ (replaying 0).reinj = [] ∧
    Tbl.get [] (replaying 0).slowOut 3 = [] ∧ (replaying 0).spillPort (portDie 3) (fun q => q != 3 && !(replaying 0).portShut housePorts q) = some 7 ∧
    { lone false with replay := [(3, [via])] }.spillPort (portDie 3) (fun q => q != 3) = none ∧
    ((replaying 2).setReg (Reg.fabPortStatus 3) 0).flag (Reg.fabPortStatus 3) 0 = false := by
  decide +kernel

theorem test_far_end : leads (.farEndCoordinates 3 5 1) wired (fun t => t.flag (Reg.fabPortStatus 3) 3 && t.fieldOf (Reg.fabPortStatus 3) 44 40 == 1) = true ∧
    leadsTo (.farEndCoordinates 4 5 1) wired wired = true := by decide +kernel

theorem test_mask : leads (.portMaskWrite 0x80) wired (fun t => t.flag Reg.fabPortMask 7 && t.flag (Reg.fabPortStatus 7) 1 && !t.flag Reg.fabPortMask 3 && t.flag Reg.geomPortsUp 3) = true := by
  decide +kernel

theorem test_swap : leads (.swap 2) wired (fun t => t.activeB && t.flag Reg.fabEpoch 2) = true ∧
    leads (.swap 2) (wired.setFlag Reg.fabEpoch 2 true) (fun t => !t.activeB) = true ∧
    leads .drainEnd (wired.setFlag Reg.fabEpoch 2 true) (fun t => !t.flag Reg.fabEpoch 2) = true := by decide +kernel

theorem test_room_dead_clear : leads (.roomDeadClear 4) (wired.setReg Reg.fabRoomDead 6) (fun t => !t.roomDead 2 && t.roomDead 1) = true := by decide +kernel

theorem test_onpkg : leads (.onpkgLinkRetry 16 20 true) bare (fun t => Tbl.get 0 t.pkgFails (32 * 16 + 20) == 1) = true := by decide +kernel
theorem witness_onpkg : pkgLink 16 20 = true ∧ bare.pkgUp 16 20 = true ∧ Tbl.get 0 { bare with pkgFails := [(32 * 16 + 20, 2)] }.pkgFails (32 * 16 + 20) = 2 ∧
    pkgLink 0 16 = true ∧ bare.pkgUp 0 16 = true ∧ (∃ m < 4, 16 + m ≠ 16 ∧ bare.pkgUp 0 (16 + m) = true) ∧ pkgLink 0 1 = false ∧ bare.fuses = [] := by
  decide +kernel

/-- Die 0 has one link to memory left, that of memory die 0; core 3, which is on it, has an access out. -/
def oneLink : State := { bare with pkgDown := [17, 18, 19] }
def noLink (k : AKind) : State :=
  let s := running { bare with pkgDown := [16, 17, 18, 19] } 3 [0, 0] []
  s.setCore 3 { s.core 3 with outs := [⟨0, k, at_ 64, 8, 6, 2, 7, 0, Handle.none, 0, 0, false, 1, [], false, false, 0, 0⟩] }
theorem witness_cut : (oneLink.pkgUp 0 16 = true ∧ (∀ m < 4, 16 + m ≠ 16 → oneLink.pkgUp 0 (16 + m) = false) ∧ oneLink.fuses.length ≤ 4000 ∧
      oneLink.inService 0 = true) ∧
    ∀ k ∈ [AKind.sld, .amo, .sst], (((noLink k).core 3).outs[0]?.any fun a => !a.remote && !a.refused && a.kind == k && !((noLink k).core 3).mustWait a) = true ∧
      (((noLink k).core 3).run.any fun r => !r.stopping) = true ∧ (noLink k).coreCut 3 (aOff (at_ 64)) = true := by
  decide +kernel

end Sys2Proof.Tests
end

