-- ==== Sys2Proof/Tests/Doors.lean ====
section
/-! SUPPORT. Tests of the doors. -/

namespace Sys2Proof.Tests

open Sys2Proof.Machine

set_option Elab.async false

/-- Room 0 of house 6, by its door engine 3, sends its first message. -/
def bulk6 (kind : Nat) (cells : List Cell) (arg0 arg1 : Nat) : BulkMsg := ⟨31, 6, 0, 5, 1, kind, 1, cells.length, false, 3, msgCrc cells, arg0, arg1, cells⟩

/-- It has left, or waits: its header. -/
def acks (t : State) (back : Nat) : Bool :=
  (t.out.any fun o => match o with
    | .cell _ c => c.dstHouse == 6 && c.dstRoom == 0 && decide (c.payload.take 8 = leBytes 4 0 ++ leBytes 2 back ++ leBytes 1 4 ++ leBytes 1 3) &&
        decide ((c.payload.drop 16).take 8 = leBytes 8 1)
    | _ => false)

def doorStore : Cell := cellSealed { storeC with srcHouse := 6, srcRoom := 0 }
def doorBad : Cell := cellSealed { badC with srcHouse := 6, srcRoom := 0 }

theorem test_write : leads (.write (bulk6 0 [doorStore] 0 0)) wired (fun t => t.memNat (pin + 0x2010) 4 == 0xAABBCCDD && acks t 0 &&
    t.reg Reg.doorMsgsApplied == 1 && t.out.contains (.credits 31 2)) = true ∧
    leads (.write (bulk6 0 [doorBad] 0 0)) wired (fun t => t.reg Reg.fabInboundRefused == 1 && acks t 1 && decide (t.mem = [])) = true := by decide +kernel

/-- An EATOMIC of house 6, and a cell of a type that is none. -/
def doorEa : Cell := cellSealed { eaC with srcHouse := 6, srcRoom := 0 }
def doorOdd : Cell := cellSealed { doorStore with ty := 5 }

theorem witness_write : ((∀ c ∈ [doorStore, doorEa, doorOdd, doorBad], Claims.NextBulk wired (bulk6 0 [c] 0 0) 0) ∧ doorStore.ty = 1 ∧ badCell doorStore = false ∧
      wired.refuses doorStore = false ∧ doorEa.ty = 3 ∧ badCell doorEa = false ∧ wired.refuses doorEa = false ∧ eaWide doorEa = false ∧ badCell doorOdd = true ∧
      wired.refuses doorBad = true ∧ badCell doorBad = false ∧ doorBad.ty = 1) ∧ Claims.OneToOne wired ∧ Claims.OnStacks wired ∧
    Claims.Sound wired (aOff doorStore.addr) (doorStore.len + 1) ∧
    Claims.Sound wired (aOff doorEa.addr) ((eaType doorEa).width / 8 * (eaParts doorEa).length) := by
  unfold Claims.NextBulk Claims.BulkComes Claims.sideOf
  exact and_of dec_of (and_of oneToOne_of (and_of onStacks_of (and_of sound_of sound_of))) (by decide +kernel)

/-- Its first message has been applied. -/
def second : State := { wired with doorIn := [(doorKey 6 0 3, ⟨1, []⟩)] }
def ahead : BulkMsg := { bulk6 0 [doorStore] 0 0 with seq := 3 }

theorem test_order : leads (.write (bulk6 0 [doorStore] 0 0)) second (fun t => t.reg Reg.doorDupMsgs == 1 && acks t 0 && decide (t.mem = [])) = true ∧
    leads (.write ahead) second (fun t => decide (t.doorSide (doorKey 6 0 3) = ⟨1, [ahead]⟩) && decide (t.mem = [])) = true ∧
    leads (.write { bulk6 0 [doorStore] 0 0 with seq := 2 }) { second with doorIn := [(doorKey 6 0 3, ⟨1, [ahead]⟩)] } (fun t =>
      decide (t.doorSide (doorKey 6 0 3) = ⟨3, []⟩) && t.reg Reg.doorMsgsApplied == 2) = true ∧
    leadsTo (.write { ahead with crc := 1 }) second { second with out := [.credits 31 2] } = true := by decide +kernel

/-- House 7 lies behind the door too; an empty UNIT message, and the one after it. -/
def further : State := wired.setReg (Reg.houseRouteA 7) (2 ^ 25 + 1)
def empty6 (n : Nat) : BulkMsg := { bulk6 3 [] 0 0 with seq := n }

theorem witness_elsewhere : (∀ r ∈ Claims.bulkKinds (bulk6 0 [doorStore] 0 0) [] [], r.1 ≠ 0 → (bulk6 0 [doorStore] 0 0).kind ≠ r.1) ∧ wired.portTakes 31 = true ∧
    ({ bulk6 0 [doorStore] 0 0 with dstRoom := 2 }).dstRoom ≠ wired.room ∧ (bulk6 0 [doorStore] 0 0).dstHouse = wired.house ∧
    further.way further.activeB 7 0 = .door ∧ further.house ≠ 7 ∧ Claims.DoorIds further ∧ further.bestDoor (bits (further.houseRoute further.activeB 7) 8 0) = some 31 ∧
    ({ bulk6 0 [doorStore] 0 0 with dstHouse := 7 }).cells.length + 1 ≤ further.credits 31 := by
  unfold Claims.DoorIds
  decide +kernel

theorem witness_order : (∀ m ∈ [ahead, bulk6 0 [doorStore] 0 0], Claims.BulkComes second m 0 ∧ m.reset = false) ∧
    (Claims.sideOf second ahead).last + 1 < ahead.seq ∧ (Claims.sideOf second ahead).held.length < 64 ∧ (∀ x ∈ (Claims.sideOf second ahead).held, x.seq ≠ ahead.seq) ∧
    (bulk6 0 [doorStore] 0 0).seq ≤ (Claims.sideOf second (bulk6 0 [doorStore] 0 0)).last ∧ second.doorBacks = [] ∧
    (Tbl.get [] { second with doorBacks := [(doorKey 6 0 3, [(1, [doorBad])])] }.doorBacks (doorKey 6 0 3)).filter (fun e => e.1 == 1) = [(1, [doorBad])] ∧
    (∃ x ∈ (Claims.sideOf { second with doorIn := [(doorKey 6 0 3, ⟨1, [ahead]⟩)] } ahead).held, x.seq = ahead.seq) ∧
    msgSound { ahead with crc := 1 } = false ∧ ahead.dstHouse = second.house ∧ ahead.dstRoom = second.room ∧ second.portTakes ahead.port = true := by
  unfold Claims.BulkComes Claims.sideOf
  decide +kernel

theorem witness_gap : Claims.BulkComes { second with doorIn := [(doorKey 6 0 3, ⟨1, [empty6 3]⟩)] } (empty6 2) 3 ∧ (empty6 2).reset = false ∧
    Claims.sideOf { second with doorIn := [(doorKey 6 0 3, ⟨1, [empty6 3]⟩)] } (empty6 2) = ⟨1, [empty6 3]⟩ ∧ Claims.DoorIds second ∧
    Claims.BulkComes second { empty6 1 with reset := true } 3 := by
  unfold Claims.BulkComes Claims.sideOf Claims.DoorIds
  decide +kernel

theorem test_gap : leads (.unit (empty6 2) [] []) { second with doorIn := [(doorKey 6 0 3, ⟨1, [empty6 3]⟩)] }
    (fun t => decide (t.doorSide (doorKey 6 0 3) = ⟨3, []⟩) && t.reg Reg.doorMsgsApplied == 2) = true := by decide +kernel

/-- Three FP32 elements stand at 0x2000; house 6 asks for them. -/
def three32 : List Byte := leBytes 4 0x3F800000 ++ leBytes 4 0x40000000 ++ leBytes 4 0x40400000
def askC : Cell := cellSealed ⟨5, 1, 12, 6, 0, 12, 0, 0, 4, false, false, false, false, 77, 127, 0, 0, 0, vec32 (at_ 0x2000) 3, 0⟩
def lending : State := { wired with mem := blocks [(pin + 0x2000, three32)] }

theorem test_get_req : leads (.getReq (bulk6 1 [askC] 0 3)) lending (fun t => acks t 0 && t.reg Reg.doorMsgsApplied == 1 &&
    t.doorMsgs.any fun d => d.kind == 2 && decide (d.cells.flatMap Cell.payload = three32) && d.cells.all fun y => y.tag == 77 && y.ty == 8) = true := by decide +kernel

def tdOf (b : List Byte) : TDesc := (parseTD b).getD ⟨[], .fp32, .none, 0, false, false, false, 0, 0, 0, 0, [], []⟩
/-- It asks for elements that lie in Cistern storage. -/
def askBad : Cell := cellSealed { askC with payload := vec32 (home + 0x1C000000000) 3 }

theorem witness_get_req : Claims.NextBulk lending (bulk6 1 [askC] 0 3) 1 ∧ parseTD askC.payload = some (tdOf (vec32 (at_ 0x2000) 3)) ∧
    (tdOf (vec32 (at_ 0x2000) 3)).ok false = true ∧ Claims.Flat lending (Claims.gotten (tdOf (vec32 (at_ 0x2000) 3))) 3 4 ∧
    lending.mappedMem (aOff (at_ 0x2000)) 12 = true ∧ lending.inAdmits 6 0 (aOff (at_ 0x2000)) 12 .read = true ∧ Claims.DoorIds lending ∧
    Claims.NextBulk lending (bulk6 1 [askBad] 0 3) 1 ∧ parseTD askBad.payload = some (tdOf askBad.payload) ∧
    (∃ e ∈ (Claims.gotten (tdOf askBad.payload)).extents, lending.isLocal e.1 = false ∨ lending.mappedMem (aOff e.1) e.2 = false ∨
      lending.inAdmits 6 0 (aOff e.1) e.2 .read = false) := by
  unfold Claims.NextBulk Claims.BulkComes Claims.sideOf Claims.Flat Claims.DoorIds
  decide +kernel

/-- A bulk get of three elements by the MOVE in slot 4 is under way. -/
def farT : Tensor := ⟨tdOf (vec32 (mkAddr 6 0 (pin + 0x100)) 3), 0, [⟨mkAddr 6 0 (pin + 0x100), 0, 3, 0, 0, 0⟩]⟩
def nearT : Tensor := ⟨tdOf (vec32 (at_ 0x3000) 3), 0, [⟨at_ 0x3000, 0, 3, 0, 0, 0⟩]⟩
def get4 : DoorMsg := ⟨7, 3, 6, 0, 5, 1, 1, 1, false, [askC], 0, 3, true, true, true, some ⟨4, farT, nearT, [], false⟩⟩
def getting : State := { wired with doorMsgs := [get4], nextMsg := 8, slots := [(4, { Slot.none with
  words := [2, 0x77, at_ 0x1000, at_ 0x1080, 0, 0, 0xFAC688, 0], stage := .started })] }
def gotC : Cell := cellSealed ⟨5, 1, 0, 6, 0, 0, 0, 0, 8, false, false, false, false, 7, 11, 0, 0, 0, three32, 0⟩

theorem test_get_data : leads (.getData (bulk6 2 [gotC] 0 0)) getting (fun t => (t.slot 4).stage == .ended 0 0 && t.memNat (pin + 0x3004) 4 == 0x40000000 &&
    acks t 0) = true := by decide +kernel

/-- Two of its elements. -/
def gotPart : Cell := cellSealed { gotC with len := 7, payload := three32.take 8 }

theorem witness_get_data : ((∀ c ∈ [gotC, gotPart, cellSealed { gotC with aux := 0x20 }], Claims.NextBulk getting (bulk6 2 [c] 0 0) 2) ∧ get4.house = 6 ∧
      gotC.tag = get4.id % 131072 ∧ gotPart.tag = get4.id % 131072 ∧ get4.get = some ⟨4, farT, nearT, [], false⟩ ∧ get4.id < getting.nextMsg ∧
      (getting.slot 4).stage = .started ∧ (getting.slot 4).mvBad farT.d nearT.d = false ∧ farT.d.ty = nearT.d.ty ∧ farT.d.block = .none ∧
      farT.d.size = nearT.d.size ∧ Claims.Flat getting nearT 3 4 ∧ gotC.payload.length = 12 ∧ gotPart.payload.length < 12) ∧
    Claims.Writable getting (getting.slot 4) nearT.d.base (3 * 4) := by
  unfold Claims.NextBulk Claims.BulkComes Claims.sideOf Claims.Flat
  exact and_of dec_of writable_of (by decide +kernel)

/-- The GATHER in slot 4 has asked house 6 for twelve bytes. -/
def askingFar : State := { wired with slots := [(4, { Slot.none with words := [6, 0, 0, 0, 0, 0, 0, 0], stage := .started, asks := [(mkAddr 6 0 0x100, 12)] })] }
def lent (b : Option (List Byte)) : ShardData := ⟨mkAddr 6 0 0x100, b⟩

theorem test_unit :
    leads (.unit (empty6 1) [] [lent (some three32)]) askingFar (fun t => (t.slot 4).got.length == 12) = true ∧
    leads (.unit (empty6 1) [] [lent none]) askingFar (fun t => (t.slot 4).refused) = true := by
  decide +kernel
theorem witness_unit : Claims.NextBulk lending (bulk6 3 [askC] 0 0) 3 ∧ Claims.DoorIds lending ∧ lending.mappedMem (pin + 0x2000) 12 = true ∧
    lending.inAdmits 6 0 (pin + 0x2000) 12 .read = true ∧ lending.mappedMem 0x1C000000000 12 = false ∧ Claims.NextBulk askingFar (empty6 1) 3 ∧
    (askingFar.slot 4).opcode = 6 ∧ (askingFar.slot 4).stage = .started ∧
    (∃ r ∈ (askingFar.slot 4).asks, r.1 ≤ (lent none).addr ∧ (lent none).addr < r.1 + r.2) := by
  unfold Claims.NextBulk Claims.BulkComes Claims.sideOf Claims.DoorIds
  decide +kernel

/-! ## Messages that leave -/

/-- A WRITE to room 0 of house 6 with a store of slot 4 that has tag 9. -/
def sendC : Cell := cellSealed ⟨6, 0, 0, 5, 1, 0, 0, 0, 1, false, false, false, true, 9, 3, 0, mkAddr 0 0 (pin + 0x40), 0, leBytes 4 7, 0⟩
def msg7 (closed sent : Bool) : DoorMsg := ⟨7, 3, 6, 0, 5, 1, 0, b2n closed, false, [sendC], 0, 0, closed, sent, false, none⟩
def reqD : Req := ⟨sendC, .slot 4, false, true, true⟩
def door (closed sent : Bool) : State := { wired with doorMsgs := [msg7 closed sent], nextMsg := 8, reqs := [reqD], doorSeq := if closed then [(doorKey 6 0 3, 1)] else [], slots := [(4, { Slot.none with stage := .started })] }
def backC : Cell := cellSealed ⟨5, 1, 0, 6, 0, 0, 0, 0, 0xA, false, false, false, true, 9, 0, 0x15, 0, 0, [], 0⟩

theorem test_bulk_ack : leads (.bulkAck (bulk6 4 [] 1 0)) (door true true) (fun t => decide (t.doorMsgs = []) && decide (t.reqs = [])) = true ∧
    leads (.bulkAck (bulk6 4 [backC] 1 0)) (door true true) (fun t => decide (t.reqs = []) && (t.slot 4).refused) = true := by decide +kernel

/-- The message is another room's of this house. -/
def roomMsg : State := { door true true with doorMsgs := [{ msg7 true true with cells := [cellSealed { sendC with srcRoom := 3 }] }] }

theorem witness_bulk_ack : (Claims.AckComes (door true true) (bulk6 4 [] 1 0) ∧ (∀ a ∈ [0x20, 0x13, 0x15], Claims.AckComes (door true true)
      (bulk6 4 [{ backC with aux := a }] 1 0)) ∧ Claims.AckOf (door true true) (bulk6 4 [] 1 0) (msg7 true true) ∧ backC.tag = sendC.tag ∧ backC.dstRoom = sendC.srcRoom ∧
      backC.pass = sendC.pass ∧ (∀ d ∈ (door true true).doorMsgs, ¬Claims.AckOf (door true true) (bulk6 4 [] 2 0) d) ∧
      Claims.AckOf getting (bulk6 4 [] 1 0) get4 ∧ (getting.slot 4).stage = .started ∧
      (∀ d ∈ roomMsg.doorMsgs, Claims.AckOf roomMsg (bulk6 4 [] 1 0) d ∧ d.get = none ∧ d.kind = 0 ∧ ∀ c ∈ d.cells, c.srcHouse = roomMsg.house ∧ c.srcRoom ≠ roomMsg.room) ∧
      wired.portTakes 4 = false ∧ msgSound { bulk6 4 [] 1 0 with crc := 1 } = false ∧ further.way further.activeB 7 0 = .door) ∧
    (door true true).doorMsgs = [msg7 true true] ∧ (msg7 true true).cells = [sendC] ∧ (msg7 true true).srcHouse = (door true true).house ∧
    (msg7 true true).get = none ∧ sendC.srcHouse = (door true true).house ∧ sendC.srcRoom = (door true true).room ∧ Claims.NoneHeld (door true true) ∧
    Claims.Stands (door true true) 0 reqD ∧ reqD.who = .slot 4 ∧ reqD.cell.tag = sendC.tag ∧ reqD.cell.pass = sendC.pass := by
  unfold Claims.AckComes Claims.BulkComes Claims.AckOf Claims.NoneHeld
  exact and_of dec_of (and_of dec_of (and_of dec_of (and_of dec_of (and_of dec_of (and_of dec_of (and_of dec_of (and_of dec_of (and_of stands_of dec_of))))))))
    (by decide +kernel)

theorem test_door_timeout : leads (.doorTargetTimeout 7) (door true true) (fun t => decide (t.doorMsgs = []) && decide (t.reqs = []) && (t.slot 4).dead &&
    t.doorReset.contains (doorKey 6 0 3) && t.reg Reg.doorTimeouts == 1 && (t.heldFaults.getLast?.map fun f => (f.status, f.kind, f.index)) == some (0x20, 6, 3)) = true := by
  decide +kernel

theorem test_door_send : leads (.bulkMessageClose 7) (door false false) (fun t => t.out.length == 2 && t.credits 31 == 32766 && t.reg Reg.doorMsgsSent == 1 &&
      (t.doorMsgs.all fun d => d.sent && d.closed && d.seq == 1)) = true ∧
    leads (.doorRetry 7) (door true true) (fun t => t.out.length == 2 && t.reg Reg.doorRetransmits == 1) = true ∧
    leads .doorPathUp (door true false) (fun t => t.out.length == 2 && t.doorMsgs.all fun d => d.sent) = true ∧
    leads .doorPathUp { door true false with doorUsed := [(31, 32767)] } (fun t => t.out.length == 0 && t.doorMsgs.all fun d => !d.sent) = true := by decide +kernel

/-- House 6 lies behind room 2, which relays; no door port has credits. -/
def relayed (sent : Bool) : State := (door true sent).setReg (Reg.houseRouteA 6) (2 ^ 25 + 2 ^ 24 + 2 * 2 ^ 16)
def starved (closed : Bool) : State := { door closed false with doorUsed := [(31, 32767)] }

theorem witness_door_send : Claims.DoorWay (door true true) (msg7 true true) 31 ∧ (msg7 true true).closed = true ∧ (msg7 true true).sent = true ∧
    (msg7 true true).acked = false ∧ Claims.DoorWay (door true false) (msg7 true false) 31 ∧ (msg7 true false).kind ≠ 4 ∧ (msg7 true false).srcHouse = wired.house ∧
    Claims.DoorWay (door false false) (msg7 false false) 31 ∧ (∀ b ∈ [true, false], Claims.MeshWay (relayed b) (msg7 true b) 3) ∧
    (∀ b ∈ [true, false], (starved b).way (starved b).activeB 6 0 = .door ∧
      (starved b).bestDoor (bits ((starved b).houseRoute (starved b).activeB 6) 8 0) = some 31 ∧ (starved b).credits 31 < (msg7 b false).cells.length + 1) ∧
    (∀ d ∈ wired.doorMsgs, d.closed = false) := by
  unfold Claims.DoorWay Claims.MeshWay
  decide +kernel

/-- A bulk get of slot 4 that is over: its destination. -/
theorem witness_door_timeout : (getting.doorMsgs = [get4] ∧ get4.closed = true ∧ get4.srcHouse = getting.house ∧ get4.kind ≠ 4 ∧ Claims.Flat getting nearT 3 4) ∧
    Claims.Writable getting (getting.slot 4) nearT.d.base (3 * 4) := by
  unfold Claims.Flat
  exact and_of dec_of writable_of (by decide +kernel)

theorem test_get_timeout : leads (.doorTargetTimeout 7) getting (fun t => (t.slot 4).stage == .ended 0 0 && (t.slot 4).dead &&
    decide (t.memBytes (pin + 0x3000) 12 = List.replicate 12 0xFF)) = true := by decide +kernel

theorem test_credits : leads (.doorCreditReturn 31 5) { wired with doorUsed := [(31, 12)] } (fun t => t.credits 31 == 32761) = true := by decide +kernel

/-- The MOVE in slot 4 reads three elements of house 6. -/
def bulkGet4 : State := { wired with slots := [(4, { Slot.none with words := [2, 0x77, at_ 0x1000, at_ 0x1080, 0, 0, 2 ^ 27 + 0xFAC688, 0], stage := .ready })], mem := blocks [(pin + 0x1000, vec32 (mkAddr 6 0 (pin + 0x100)) 3), (pin + 0x1080, vec32 (at_ 0x3000) 3)] }

/-- Its descriptors read; the same with an empty tensor, another permutation, no route to its house, and descriptors that lie in room 2. -/
def got4 (s : State) : State := (s.fetchTensors 4 [at_ 0x1000, at_ 0x1080]).1
def bulkNone : State := { bulkGet4 with mem := blocks [(pin + 0x1000, vec32 (mkAddr 6 0 (pin + 0x100)) 0), (pin + 0x1080, vec32 (at_ 0x3000) 0)] }
def bulkBad : State := { bulkGet4 with slots := [(4, { Slot.none with words := [2, 0x77, at_ 0x1000, at_ 0x1080, 0, 0, 2 ^ 27, 0], stage := .ready })] }
def bulkLost : State := bulkGet4.setReg (Reg.houseRouteA 6) 0
def bulkFar : State := { bulkGet4 with slots := [(4, { Slot.none with words := [2, 0x77, mkAddr 5 2 0x100, mkAddr 5 2 0x200, 0, 0, 2 ^ 27 + 0xFAC688, 0], stage := .ready })] }
def emptyT (b : List Byte) (a : Nat) : Tensor := ⟨tdOf b, 0, [⟨a, 0, 0, 0, 0, 0⟩]⟩

theorem witness_bulk_get : ((∀ s ∈ [bulkGet4, bulkNone, bulkBad, bulkLost, bulkFar], s.moverReady 4 2 = true ∧ (s.slot 4).mvGet = true ∧ s.moverOff 4 = false) ∧
      (bulkGet4.setReg (Reg.unitState 64) 1).moverOff 4 = true ∧ (∀ s ∈ [bulkGet4, bulkNone, bulkBad, bulkLost], (s.fetchTensors 4 [at_ 0x1000, at_ 0x1080]).2 = true) ∧
      (bulkFar.fetchTensors 4 [mkAddr 5 2 0x100, mkAddr 5 2 0x200]).2 = false ∧ ((got4 bulkGet4).slot 4).refused = false ∧
      (got4 bulkGet4).getChecks ((got4 bulkGet4).slot 4) (.ok farT) (.ok nearT) = none ∧ (got4 bulkBad).getChecks ((got4 bulkBad).slot 4) (.ok farT) (.ok nearT) = some 0x14 ∧
      0 ∉ farT.d.size ∧ (got4 bulkGet4).way (got4 bulkGet4).activeB 6 0 = .door ∧ (got4 bulkLost).way (got4 bulkLost).activeB 6 0 = .miss ∧
      aHouse farT.d.base = 6 ∧ aRoom farT.d.base = 0 ∧ doorPorts (bits ((got4 bulkGet4).houseRoute (got4 bulkGet4).activeB 6) 8 0) = [31] ∧
      (got4 bulkGet4).unitOff (76 + portDie 31) = false ∧ ((got4 bulkGet4).setReg (Reg.unitState 79) 1).unitOff (76 + portDie 31) = true ∧
      Claims.Flat (got4 bulkLost) nearT 3 4) ∧
    (got4 bulkGet4).readTensor ((got4 bulkGet4).slot 4) false (at_ 0x1000) = .ok farT ∧ (got4 bulkGet4).readTensor ((got4 bulkGet4).slot 4) true (at_ 0x1080) = .ok nearT ∧
    (got4 bulkNone).readTensor ((got4 bulkNone).slot 4) false (at_ 0x1000) = .ok (emptyT (vec32 (mkAddr 6 0 (pin + 0x100)) 0) (mkAddr 6 0 (pin + 0x100))) ∧
    Claims.Writable (got4 bulkLost) ((got4 bulkLost).slot 4) nearT.d.base (3 * 4) := by
  unfold Claims.Flat
  exact and_of dec_of (and_of ok_of (and_of ok_of (and_of ok_of writable_of))) (by decide +kernel)

theorem test_bulk_get : leads (.bulkGet 4) bulkLost (fun t => (t.slot 4).stage == .ended 0 0 && (t.slot 4).dead &&
      decide (t.memBytes (pin + 0x3000) 12 = List.replicate 12 0xFF)) = true ∧
    leads (.bulkGet 4) bulkBad (fun t => (t.slot 4).stage == .ended 0x14 0) = true ∧ leads (.bulkGet 4) bulkNone (fun t => (t.slot 4).stage == .ended 0 0) = true := by
  decide +kernel

end Sys2Proof.Tests
end

