-- ==== Sys2Proof/Tests/Jobs.lean ====
section
/-! SUPPORT. Tests of LAUNCHes, descriptors, pools, the host's side, self-tests, dips and geometry. -/

namespace Sys2Proof.Tests

open Sys2Proof.Machine

set_option Elab.async false

/-- A descriptor in slot `i` with these words, ready at the head of its context. -/
def slotIn (i : Nat) (ws : List Nat) : Nat × Slot := (i, { Slot.none with words := ws, stage := .ready })

/-- A descriptor of opcode `op` in slot 4, tag 0x77. -/
def ready4 (op : Nat) (ws : List Nat) : State := { bare with slots := [slotIn 4 (op :: 0x77 :: ws)], nextSlot := 5 }

/-- The LAUNCH of a program of two words at 64 on logical cores 8 and 9. -/
def launch4 (n : Nat) : State := ready4 1 [at_ 64, 0xABC, n * 2 ^ 24 + 8 * 2 ^ 16 + 2, 100]

theorem test_launch : leads (.launch 4) (launch4 2) (fun t => (t.slot 4).stage == .started && (t.lrun 4).cores == [8, 9] &&
      (t.core 8).queue == [(4, 0)] && (t.core 9).queue == [(4, 1)]) = true ∧
    leads (.launch 4) (launch4 0) (fun t => (t.slot 4).stage == .ended 0x14 0) = true := by decide +kernel

theorem witness_launch : (launch4 2).opReady 4 1 = true ∧ (launch4 2).launchBad ((launch4 2).slot 4) = false ∧
    (launch4 2).readBad true (at_ 64) 16 = none ∧ (launch4 0).launchBad ((launch4 0).slot 4) = true ∧
    (∀ l ∈ ((launch4 2).slot 4).cores, (launch4 2).retPending l = false) ∧ (((launch4 2).slot 4).cores.map (launch4 2).phys).Nodup := by
  and_intros <;> decide +kernel

/-- Core 8 takes its part. -/
def queued : State :=
  let s := launch4 2
  { s.setCore 8 { s.core 8 with queue := [(4, 0)] } with mem := cells pin [(64, 0x11), (79, 0x22)] }

theorem test_launch_start : leads (.launchStart 8) queued (fun t => (t.core 8).run == some ⟨4, 0, 8, 2, 0, 2, false, false⟩ && (t.core 8).pc == 0 &&
    (t.core 8).get 2 == 2 && (t.core 8).get 3 == 8 && (t.core 8).get 32 == 0xABC && (t.core 8).get 33 == t.localAddr (scratchBase 8) &&
    (t.core 8).get 36 == t.localAddr syncBase && (t.core 8).get 9 == 0 && (t.core 8).prog == [(0, 0x11), (1, 0x2200000000000000)] &&
    (t.lrun 4).t0 == some 0 && t.reg (Reg.coreTag 8) == 0x77) = true := by decide +kernel

theorem witness_launch_start : (queued.core 8).run = none ∧ (queued.core 8).queue = [(4, 0)] ∧ queued.coresHeld = false := by
  and_intros <;> decide +kernel

/-- The LAUNCH of slot 4 has ended on its core with this outcome. -/
def ending (r : LaunchRun) : State :=
  let s := launch4 1
  { s.setSlot 4 { s.slot 4 with stage := .started, step := 1 } with runs := [(4, { r with cores := [8], entered := 1, done := [0], t0 := some 0 })] }

theorem test_launch_complete :
    ([(LaunchRun.none, Stage.ended 0 0), ({ LaunchRun.none with cancelled := true }, .ended 0x13 0), ({ LaunchRun.none with retired := true }, .ended 0x22 0),
      ({ LaunchRun.none with mismatch := true }, .ended 0x23 0), ({ LaunchRun.none with fault := some (5, 0) }, .ended 0x15 0x500),
      ({ LaunchRun.none with fault := some (7, 3) }, .ended 0x14 0x703)].all fun e =>
      leads (.launchComplete 4) (ending e.1) fun t => (t.slot 4).stage == e.2) = true := by decide +kernel

/-- It has started and runs still. -/
def lasting : State :=
  let s := ending LaunchRun.none
  { s.setCore 8 { s.core 8 with run := some ⟨4, 0, 8, 2, 0, 2, false, false⟩, outs := [⟨0, .sld, at_ 0, 8, 1, 0, 0, 0, Handle.none, 0, 0, false, 1, [], false, false, 0, 0⟩] } with
    runs := [(4, { LaunchRun.none with cores := [8], entered := 1, t0 := some 0 })] }

theorem test_watchdog : leads (.watchdogExpiry 4) lasting (fun t => (t.lrun 4).cancelled && (t.core 8).run == some ⟨4, 0, 8, 2, 0, 2, true, false⟩ &&
    t.heldFaults.any fun f => f.status == 0x13 && f.kind == 2 && f.index == 0 && f.detail == 0x77) = true := by decide +kernel

theorem witness_watchdog : (lasting.slot 4).opcode = 1 ∧ (lasting.slot 4).step = 1 ∧ bits ((lasting.slot 4).word 5) 15 0 = 100 ∧
    lasting.fieldOf Reg.powerStatus 10 8 = 0 := by
  and_intros <;> decide +kernel

/-! ## FENCE, SIGNAL, STEP_CLOSE -/

/-- FENCE: semaphore 20 by 3 and event 30. -/
def fence4 (n : Nat) (ev : Bool) : State :=
  { ready4 8 [30 * 2 ^ 32 + 20 * 2 ^ 16 + 6, 3, 0, 0, 0, 0] with sync := ⟨if n = 0 then [] else [(20, BitVec.ofNat 32 n)], if ev then [(30, true)] else [], [], []⟩ }

theorem test_fence_descriptor : leads (.fenceDescriptor 4) (fence4 3 true) (fun t => (t.slot 4).stage == .ended 0 0 && t.sync.sem 20 == 0) = true ∧
    leads (.fenceDescriptor 4) (fence4 5 true) (fun t => (t.slot 4).stage == .ended 0 0 && t.sync.sem 20 == 2) = true ∧
    leads (.fenceDescriptor 4) (fence4 3 false) (fun t => (t.slot 4).step == 2 && (t.slot 4).stage == .ready &&
      Tbl.get [] t.sync.evQ 30 == [.slot 4 0]) = true := by decide +kernel

/-- SIGNAL: adds 2 to semaphore 20, sets event 30, writes a word at 64, vector 9. -/
def signal4 : State := ready4 9 [9 * 2 ^ 48 + 30 * 2 ^ 32 + 20 * 2 ^ 16 + 0x1B, 2, at_ 64, 0x0123456789ABCDEF, 0, 0]

theorem test_signal : leads (.signal 4) signal4 (fun t => (t.slot 4).stage == .ended 0 0 && t.memNat (pin + 64) 8 == 0x0123456789ABCDEF &&
    t.sync.sem 20 == 2 && t.sync.event 30 && t.flag Reg.irqPending 9) = true := by decide +kernel

theorem witness_signal : signal4.opReady 4 9 = true ∧ signal4.earlier 4 = false ∧ signal4.slotBusy 4 = false ∧ Claims.OneToOne signal4 ∧
    Claims.Sound signal4 (aOff (at_ 64)) 8 ∧ signal4.writeBad true (at_ 64) 8 = none := by
  and_intros <;> first | decide +kernel | exact issues_of (by decide +kernel) | exact oneToOne_of (by decide +kernel) | exact sound_of (by decide +kernel)

/-- A history has seen 2.0 in its step. -/
def close4 : State :=
  { ready4 10 [0, 0, 0, 0, 0, 0] with hists := [(5, { Hist.init with ring := [0x3F800000], acc := 0x40000000, seen := true, sat := 7 })] }

theorem test_step_close : leads (.stepClose 4) close4 (fun t => (t.slot 4).stage == .ended 0 0 && (t.hist 5).ring == [0x40000000, 0x3F800000] &&
    (t.hist 5).acc == 0 && !(t.hist 5).seen && !(t.hist 5).cold && t.reg (Reg.sclSat 5) == 7 && t.reg Reg.rngStep == 1) = true := by decide +kernel

theorem witness_step_close : close4.opReady 4 10 = true ∧ close4.fieldOf Reg.sluLayerCount 8 0 = 0 ∧ (∀ e ∈ close4.hists, e.1 < 1024) := by
  and_intros <;> decide +kernel

/-! ## Doorbells, fetch, start and end -/

/-- A job owns the part; ring 7 of 64 entries at host address 0x10000, completion ring 2 of 64 at 0x20000. -/
def owned : State :=
  withRegs bare [(Reg.hostJob, 2 ^ 63 + 5), (Reg.hostStatus, 7), (Reg.ringBase 7, 0x10000), (Reg.ringCfg 7, 3 * 2 ^ 62 + 2 * 2 ^ 32 + 6),
    (Reg.cqBase 2, 0x20000), (Reg.cqCfg 2, 2 ^ 63 + 6)]

theorem test_doorbell : leads (.doorbell 7 8 0x70003 [(0x10000, 8)]) owned (fun t => t.reg (Reg.ringTail 7) == 3 && t.hostByte 0x10000 == 8) = true ∧
    leads (.doorbell 7 4 0x70003 []) owned (fun t => t.reg (Reg.ringTail 7) == 0 && t.reg Reg.dbDropped == 1) = true ∧
    leads (.doorbell 7 8 0x70040 []) owned (fun t => t.reg Reg.dbDropped == 1) = true := by decide +kernel

theorem witness_doorbell : owned.linkUp = true ∧ owned.fieldOf Reg.powerStatus 2 0 = 0 ∧ owned.doorbellBad 7 8 0x7003F = false ∧ owned.doorbellBad 7 8 0x70040 = true ∧ owned.doorbellBad 7 8 0x80000 = true := by
  and_intros <;> decide +kernel

/-- Two descriptors wait in the ring. -/
def waitingTwo : State :=
  { owned.setReg (Reg.ringTail 7) 2 with hostMem := [(0x10000, 8), (0x10010, 1), (0x10040, 9)] }

theorem test_fetch : leads (.descriptorFetch 7 5) waitingTwo (fun t => t.nextSlot == 2 && (t.slot 0).words == [8, 0, 1, 0, 0, 0, 0, 0] &&
      (t.slot 1).words == [9, 0, 0, 0, 0, 0, 0, 0] && (t.slot 0).stage == .fetched && (t.slot 1).cq == 2 && t.fieldOf (Reg.ringHead 7) 15 0 == 2) = true ∧
    leads (.descriptorFetch 7 1) ((waitingTwo.setFlag (Reg.ringCfg 7) 62 false)) (fun t => (t.slot 0).stage == .ended 0x15 0) = true := by decide +kernel

theorem witness_fetch : waitingTwo.mayFetch = true ∧ waitingTwo.ringWaiting 7 = 2 ∧ waitingTwo.fieldOf (Reg.ringHead 7) 15 0 < waitingTwo.ringSize (Reg.ringCfg 7) := by
  and_intros <;> decide +kernel

/-- A fetched descriptor of context 0 with first word `w`; semaphore 20 counts `n`. -/
def fetched (w n : Nat) : State :=
  { owned with
    slots := [(0, { Slot.none with ring := 7, words := [w, 0, 1, 0, 0, 0, 0, 0], stage := .fetched })]
    nextSlot := 1
    sync := ⟨if n = 0 then [] else [(20, BitVec.ofNat 32 n)], [], [], []⟩ }

theorem test_descriptor_start :
    leads (.descriptorStart 0) (fetched 8 0) (fun t => (t.slot 0).stage == .ready) = true ∧
    leads (.descriptorStart 0) (fetched 99 0) (fun t => (t.slot 0).stage == .ended 0x14 0) = true ∧
    leads (.descriptorStart 0) (fetched (8 + 0x200 + 20 * 2 ^ 16) 1) (fun t => (t.slot 0).stage == .ready && t.sync.sem 20 == 0) = true ∧
    leads (.descriptorStart 0) (fetched (8 + 0x200 + 20 * 2 ^ 16) 0) (fun t => (t.slot 0).stage == .waiting && t.sync.waiters 20 == [.slot 0 1]) = true := by
  decide +kernel

theorem witness_descriptor_start : (fetched 8 0).starts = true ∧ (fetched 8 0).ctxNext 0 = some 0 ∧ ((fetched 8 0).slot 0).valid = true ∧
    ((fetched 99 0).slot 0).valid = false ∧ (∀ e ∈ (fetched 8 0).slots, (fetched 8 0).holdsCtx e.2 = false) := by
  and_intros <;> decide +kernel

/-- A descriptor parked on pool 5, whose watermark event is 30. -/
def parked (ev : Bool) : State :=
  { owned.setReg (Reg.panLowWater 5) (30 * 2 ^ 32 + 4) with
    slots := [(0, { Slot.none with words := [11, 0, 0, 0, 0, 0, 0, 0], stage := .parked 5 })], sync := ⟨[], if ev then [(30, true)] else [], [], []⟩ }

theorem test_park_restart : leads (.parkRestart 5) (parked true) (fun t => (t.slot 0).stage == .ready && !t.sync.event 30) = true := by decide +kernel

/-- A descriptor of completion ring 2 that has ended. -/
def ended (up : Bool) : State :=
  { (if up then owned else owned.setReg Reg.hostStatus 5) with slots := [(0, { Slot.none with ring := 7, cq := 2, words := [8, 0x77, 0, 0, 0, 0, 0, 0], stage := .ended 2 9 })] }

theorem test_descriptor_end :
    leads (.descriptorEnd 0) (ended true) (fun t => t.slot 0 == Slot.none && t.reg (Reg.cqTail 2) == 1 &&
      t.hostRead 0x20000 16 == leBytes 8 0x77 ++ leBytes 4 (nextSeq 0) ++ leBytes 2 2 ++ leBytes 2 9) = true ∧
    leads (.descriptorEnd 0) { ended true with slots := [(0, { (ended true).slot 0 with words := [6, 0x77, 0, 0, 0, 0, 0, 0] })] }
      (fun t => t.reg Reg.colDone == 1) = true ∧
    leads (.descriptorEnd 0) { ended true with slots := [(0, { (ended true).slot 0 with words := [7, 0x77, 0, 0, 0, 0, 0, 0] })] }
      (fun t => t.reg Reg.updDone == 1) = true ∧
    leads (.descriptorEnd 0) (ended false) (fun t => t.slot 0 == Slot.none && t.comps == [⟨7, 2, 0x77, 2, 9, []⟩]) = true := by decide +kernel

theorem witness_descriptor_end : (ended true).slotBusy 0 = false ∧ (ended true).linkUp = true ∧ (ended true).cqTakes 2 = true ∧
    (ended true).reg (Reg.cqShadow 2) = 0 ∧ (ended true).flag Reg.fltLatch 0 = false := by
  and_intros <;> decide +kernel

/-! ## Pools -/

/-- Pool 5 of 8 buffers of 4 KiB, its ring at 0x4000 and its buffers at 0x8000 of the pinned part; buffer 2 is in use. -/
def poolRun (op : Nat) (n : Nat) : State :=
  { withRegs bare [(Reg.panCfg 5, 2 ^ 63 + 8 * 2 ^ 32 + 1), (Reg.panBase 5, pin + 0x8000), (Reg.panRingBase 5, pin + 0x4000)] with
    slots := [slotIn 4 [11, 0, n * 2 ^ 16 + op * 2 ^ 8 + 5, home, at_ 64, 0, 0, 0]]
    pools := [(5, ⟨[0, 1], 0, 5⟩)]
    refs := [(5 * 2 ^ 20 + 2, 1)]
    mem := cells pin [(64, 2), (67, 5), (0x4000, 3), (0x4004, 4), (0x4008, 5), (0x400C, 6), (0x4010, 7)] }

theorem test_alloc : leads (.alloc 4) (poolRun 0 8) (fun t => (t.slot 4).stage == .ended 0x10 0 && t.poolFree 5 == 7 && t.reg (Reg.panFails 5) == 1) = true := by
  decide +kernel

theorem witness_alloc : (poolRun 0 7).poolReady 4 0 = true ∧ (poolRun 0 7).poolBad ((poolRun 0 7).slot 4) = none ∧
    (poolRun 0 7).isLocal (((poolRun 0 7).slot 4).word 3) = true ∧ (poolRun 0 7).poolOn 5 = true ∧ (poolRun 0 7).poolFree 5 = 7 ∧
    ((poolRun 0 7).slot 4).poolN = 7 ∧ (poolRun 0 7).unitOff 81 = false := by
  and_intros <;> first | decide +kernel | exact issues_of (by decide +kernel) | exact oneToOne_of (by decide +kernel) | exact sound_of (by decide +kernel) | (unfold Claims.RegField; decide +kernel)

theorem test_ref : leads (.ref 4) (poolRun 1 1) (fun t => (t.slot 4).stage == .ended 0 0 && t.refOf 5 2 == 2) = true ∧
    leads (.ref 4) { poolRun 1 1 with refs := [] } (fun t => (t.slot 4).stage == .ended 2 0 && t.reg (Reg.panBadRefs 5) == 1 && t.refs == []) = true ∧
    leads (.ref 4) { poolRun 1 1 with refs := [(5 * 2 ^ 20 + 2, 65535)] } (fun t => (t.slot 4).stage == .ended 2 0 && t.refOf 5 2 == 65535) = true := by
  decide +kernel

theorem test_unref : leads (.unref 4) { poolRun 2 1 with refs := [(5 * 2 ^ 20 + 2, 2)] } (fun t => (t.slot 4).stage == .ended 0 0 && t.refOf 5 2 == 1) = true ∧
    leads (.unref 4) (poolRun 2 1) (fun t => (t.slot 4).stage == .ended 0 0 && t.refOf 5 2 == 0 && t.poolFree 5 == 8 && t.reg (Reg.panReleases 5) == 1) = true ∧
    leads (.unref 4) { poolRun 2 1 with refs := [] } (fun t => (t.slot 4).stage == .ended 2 0) = true := by decide +kernel

theorem witness_ref : (poolRun 1 1).poolReady 4 1 = true ∧ (poolRun 2 1).poolReady 4 2 = true ∧ (poolRun 1 1).poolBad ((poolRun 1 1).slot 4) = none ∧
    (poolRun 1 1).descNat ((poolRun 1 1).slot 4) (at_ 64) 4 = 0x05000002 ∧ (poolRun 1 1).descDead ((poolRun 1 1).slot 4) (at_ 64) 16 = false := by
  and_intros <;> first | decide +kernel | exact issues_of (by decide +kernel) | exact oneToOne_of (by decide +kernel) | exact sound_of (by decide +kernel) | (unfold Claims.RegField; decide +kernel)

theorem test_pool_enable : leads (.poolEnable 6 (BitVec.ofNat 64 (2 ^ 63 + 3 * 2 ^ 32 + 1))) ((poolRun 0 1).setReg (Reg.panRingBase 6) (pin + 0x6000)) (fun t =>
      t.poolOn 6 && t.pool 6 == ⟨[], 0, 3⟩ && t.memNat (pin + 0x6004) 4 == 1 && t.memNat (pin + 0x6008) 4 == 2 && t.poolFree 6 == 3) = true ∧
    leads (.poolDisable 6 0) { (poolRun 0 1).setReg (Reg.panCfg 6) (2 ^ 63 + 2 * 2 ^ 32 + 1) with pools := [(6, ⟨[1], 0, 1⟩)] } (fun t => !t.poolOn 6 && t.poolFree 6 == 0) = true ∧
    leadsTo (.poolDisable 5 0) (poolRun 0 1) (poolRun 0 1) = true := by decide +kernel

theorem witness_pool_enable : Claims.OneToOne ((poolRun 0 1).setReg (Reg.panRingBase 6) (pin + 0x6000)) ∧
    Claims.Sound ((poolRun 0 1).setReg (Reg.panRingBase 6) (pin + 0x6000)) (((poolRun 0 1).setReg (Reg.panRingBase 6) (pin + 0x6000)).reg (Reg.panRingBase 6)) (4 * 3) ∧
    ((poolRun 0 1).pool 5).cache.length < 16 := by
  and_intros <;> first | decide +kernel | exact issues_of (by decide +kernel) | exact oneToOne_of (by decide +kernel) | exact sound_of (by decide +kernel) | (unfold Claims.RegField; decide +kernel)

/-! ## Ownership, cancelling, interrupts, the link -/

/-- A job owns a part with one ring enabled for it. -/
def ownedFew (on : Bool) : State :=
  withRegs few [(Reg.hostJob, 2 ^ 63 + 5), (Reg.hostStatus, 7), (Reg.ringCfg 7, (if on then 2 ^ 63 else 0) + 2 ^ 62 + 6)]

theorem test_job_assign : leads (.jobAssign (2 ^ 63 + 9)) few (fun t => t.owned && t.fieldOf Reg.hostJob 31 0 == 9 && t.flag Reg.hostStatus 2 &&
      t.flag Reg.hostStatus 3) = true ∧
    leadsTo (.jobAssign (2 ^ 63 + 9)) owned owned = true := by decide +kernel

theorem test_job_release : leads .jobRelease (ownedFew false) (fun t => !t.owned && !t.flag Reg.hostStatus 2) = true := by decide +kernel

theorem test_revoke : leads .ownershipRevoke (ownedFew true) (fun t => !t.owned && !t.flag (Reg.ringCfg 7) 63 && t.reg Reg.secKeeperChanges == 1) = true := by
  decide +kernel

/-- An assignment without KEEP: memory is cleared, no semaphore counts, no window stands. -/
theorem test_assignment_complete : leads .assignmentComplete
    { (ownedFew false).setReg Reg.hostStatus 15 with mem := cells pin [(64, 2), (67, 5)], sync := ⟨[(20, 3)], [(30, true)], [], []⟩ }
    (fun t => t.sync.sem 20 == 0 && !t.sync.event 30 && !t.flag Reg.hostStatus 3 && !t.flag (Reg.owinRange 0) 63) = true := by
  decide +kernel

theorem witness_ownership : few.owned = false ∧ few.ready = true ∧ (ownedFew false).jobBusy true = false ∧ (ownedFew true).ringBusy 7 = false ∧
    (ownedFew true).ringWaiting 7 = 0 := by
  and_intros <;> decide +kernel

theorem test_cancel_ring : leads (.cancelRing 7) { (ownedFew true).setReg (Reg.ringTail 7) 2 with slots := [(0, { Slot.none with ring := 7, words := [8], stage := .fetched })], nextSlot := 1 } (fun t =>
      !t.flag (Reg.ringCfg 7) 63 && t.nextSlot == 3 && (t.slot 0).stage == .ended 0x13 0 && (t.slot 1).stage == .ended 0x13 0 && (t.slot 2).stage == .ended 0x13 0) = true := by
  decide +kernel

theorem test_cancel_all : leads .cancelAll (ownedFew true) (fun t => !t.flag (Reg.ringCfg 7) 63) = true := by decide +kernel

theorem test_irq :
    leads (.irqPendingClear 6) (owned.setReg Reg.irqPending 7) (fun t => t.reg Reg.irqPending == 1) = true ∧
    leads (.irqMaskWrite (BitVec.ofNat 64 (2 ^ 64 - 3))) (owned.setReg Reg.irqPending 7) (fun t => t.out == [.msix 1] && t.reg Reg.irqMask == 2 ^ 64 - 3) = true ∧
    leads (.irqDelayExpiry 2) { withRegs owned [(Reg.cqCfg 2, 2 ^ 63 + 50 * 2 ^ 32 + 2 ^ 15 + 9 * 2 ^ 8 + 6), (Reg.irqMask, 0)] with irqCount := [(2, 1)] }
      (fun t => t.flag Reg.irqPending 9 && t.out == [.msix 9] && Tbl.get 0 t.irqCount 2 == 0) = true := by decide +kernel

theorem test_link :
    leads .hostLinkDown (owned.setReg Reg.secBootStatus 2) (fun t => !t.linkUp && t.reg Reg.secBootStatus == 0x14) = true ∧
    leads (.hostLinkUp 16 3) { owned with linkWas := true, boot := 8 } (fun t => t.linkUp && t.reg Reg.linkStatus == 0x1003 && t.reg Reg.linkRetrains == 1) = true ∧
    leads (.hostReadError (some 0) 0x5000 64) (fetched 8 0) (fun t => (t.slot 0).badHost == [(0x5000, 64)] && t.reg Reg.hostReadErrors == 1 &&
      t.heldFaults.any fun f => f.status == 0x20 && f.kind == 13) = true ∧
    leads (.hostReadError none 0 4) (owned.setReg Reg.secBootStatus 2) (fun t => t.reg Reg.secBootStatus == 0x14) = true := by decide +kernel

/-! ## Configuration words and control writes -/

theorem test_ring_cfg :
    leads (.ringCfgWrite false 7 (BitVec.ofNat 64 (2 ^ 62 + 3 * 2 ^ 16 + 5))) owned (fun t => !t.flag (Reg.ringCfg 7) 63 && t.fieldOf (Reg.ringCfg 7) 4 0 == 6) = true ∧
    leads (.ringCfgWrite false 8 (BitVec.ofNat 64 (2 ^ 63 + 3 * 2 ^ 16 + 6))) owned (fun t => t.flag (Reg.ringCfg 8) 63 && t.fieldOf (Reg.ringCfg 8) 21 16 == 3) = true ∧
    leads (.ringCfgWrite false 8 (BitVec.ofNat 64 (2 ^ 63 + 5))) owned (fun t => !t.flag (Reg.ringCfg 8) 63) = true ∧
    leads (.cqCfgWrite 3 (BitVec.ofNat 64 (2 ^ 63 + 2 ^ 15 + 9 * 2 ^ 8 + 7))) owned (fun t => t.flag (Reg.cqCfg 3) 63 && t.fieldOf (Reg.cqCfg 3) 13 8 == 9) = true ∧
    leads (.cqHeadWrite 256 5) owned (fun t => t.reg Reg.fltHead == 5) = true ∧ leads (.telemHeadWrite 7) owned (fun t => t.reg Reg.telemHead == 7) = true := by
  decide +kernel

theorem test_control :
    leads (.halt 3 1) bare (fun t => t.flag (Reg.coreCtl 3) 0) = true ∧
    leads (.progFlush 3 true) (bare.setCore 3 { bare.core 3 with progAddr := some 8 }) (fun t => (t.core 3).progAddr == none) = true ∧
    leads (.testNow 3 1) bare (fun t => (t.core 3).testDue) = true ∧
    leads (.sclSeedValue 5 0x40000000) bare (fun t => (t.hist 5).ring == [0x40000000] && !(t.hist 5).cold) = true ∧
    leads (.sclSeedClear 5) { bare with hists := [(5, { Hist.init with ring := [1], acc := 1, seen := true })] } (fun t => (t.hist 5) == Hist.init) = true ∧
    leads (.dipCtlWrite false 5) bare (fun t => t.flag Reg.dipCtl 2 && t.flag Reg.dipCtl 0 == bare.flag Reg.dipCtl 0) = true ∧
    leads (.fltAlertClear 1) (bare.setReg Reg.fltAlert 3) (fun t => t.reg Reg.fltAlert == 2) = true := by decide +kernel

/-! ## Self-test, dips, geometry -/

/-- Core 3 is in its test. -/
def inTest3 : State := bare.setCore 3 { bare.core 3 with hold := true, inTest := true }

theorem test_self_test :
    leads (.selfTestStart 3) (bare.setCore 3 { bare.core 3 with testDue := true }) (fun t => (t.core 3).hold && (t.core 3).inTest && t.flag (Reg.arrayStatus 3) 1) = true ∧
    leads (.selfTestDone 3 [] false) inTest3 (fun t => !(t.core 3).hold && !(t.core 3).inTest && t.fieldOf (Reg.arrayStatus 3) 47 16 == 1) = true ∧
    leads (.selfTestDone 3 [.rowPath 77] false) inTest3 (fun t => t.fuses == [⟨1, 1, 3, 77, 0⟩] && t.fieldOf (Reg.arrayRepair 3) 1 0 == 1 &&
      t.fieldOf (Reg.arrayRepair 3) 15 8 == 77 && t.flag (Reg.arrayStatus 3) 2 && (t.core 3).hold) = true ∧
    leads (.selfTestDone 3 [] true) inTest3 (fun t => t.flag (Reg.arrayStatus 3) 3 && t.flag Reg.geomCtl 1 && (t.core 3).hold &&
      t.heldFaults.any fun f => f.status == 0x22 && f.info == 3 && f.kind == 1 && f.index == 3) = true := by decide +kernel

/-- A dip of class 0 on core 3: y is 2.0, the wide value `w`. -/
def dip3 (w : FVal) : Dip := ⟨3, 0, 0, [⟨0, 0, 0x40000000, w, .ofInt 2, none⟩]⟩
def dipped (w : FVal) : State := { withRegs bare [(Reg.dipTStatic 0, 0x3C000000)] with dips := [dip3 w] }

theorem test_dip :
    leads (.dipResolved 3) (dipped (.ofInt 2)) (fun t => t.dips == [] && t.reg (Reg.dipCount 0) == 1 && t.reg (Reg.dipMismatches 3) == 0) = true ∧
    leads (.dipResolved 3) (dipped (.ofInt 3)) (fun t => t.dips == [] && t.reg (Reg.dipMismatches 3) == 1 && (t.lrun 0).mismatch && (t.core 3).hold) = true ∧
    leadsTo (.dipResolved 3) ((dipped (.ofInt 2)).setFlag Reg.dipStatus 0 true) { (dipped (.ofInt 2)).setFlag Reg.dipStatus 0 true with dips := [] } = true ∧
    leads (.forcedMxDip 3) (bare.setReg Reg.dipCtl 0x10001) (fun t => (t.core 3).forceMx) = true ∧
    leads (.dipSelfCheck 3 false) bare (fun t => t.flag Reg.dipStatus 19) = true ∧ leadsTo (.dipSelfCheck 3 true) bare bare = true := by decide +kernel

theorem witness_dip : (dipped (.ofInt 3)).dips.find? (fun x => x.core == 3) = some (dip3 (.ofInt 3)) ∧
    (((dipped (.ofInt 3)).dipThreshold 0 0).lt (flv ((FVal.ofInt 1).div (.ofInt 2)))) = true ∧
    ((dipped (.ofInt 2)).dipThreshold 0 0).lt (.zero false) = false ∧ ((⟨0, 0, 0x40000000, .ofInt 2, .ofInt 2, none⟩ : DipCell).metric 0).isSome = true := by
  and_intros <;> decide +kernel

/-- Logical cores 0 to 3, of which 1 is pending. -/
def four : State :=
  { withRegs few [(Reg.geomCores, 4), (Reg.geomCtl, 2)] with geomGo := true }

theorem test_advance : leadsTo (.advance 1) (bare.setReg Reg.geomCtl 2) { bare.setReg Reg.geomCtl 2 with geomGo := true } = true ∧
    leadsTo (.advance 1) bare bare = true := by decide +kernel

theorem witness_coord : few.owned = false ∧ bits (7 * 2 ^ 16 + 4 * 2 ^ 8 + 3) 31 16 = 7 ∧ bits (7 * 2 ^ 16 + 4 * 2 ^ 8 + 3) 13 8 = 4 ∧
    bits (7 * 2 ^ 16 + 4 * 2 ^ 8 + 3) 4 0 = 3 := by
  and_intros <;> decide +kernel

/-- The epoch is applied: core 1 leaves, and logical number 3 takes its place. -/
theorem witness_geometry : (four.setReg (Reg.geomCoreMap 1) 0xC0000001).flag Reg.geomCtl 1 = true ∧ four.geomGo = true ∧
    (four.setReg (Reg.geomCoreMap 1) 0xC0000001).noLaunch = true ∧ four.fieldOf Reg.geomCores 8 0 = 4 ∧
    (four.setReg (Reg.geomCoreMap 1) 0xC0000001).retPending 1 = true ∧ four.retPending 3 = false := by
  and_intros <;> decide +kernel

end Sys2Proof.Tests
end

