-- ==== Sys2Proof/Tests/Movers.lean ====
section
/-! SUPPORT. Tests of MOVE, GATHER, SCATTER, UPDATE and of collectives over memory. -/

namespace Sys2Proof.Tests

open Sys2Proof.Machine

set_option Elab.async false

/-- The identity of eight dimensions as a field of a MOVE. -/
def idPerm : Nat := 0xFAC688

/-- Three FP32 elements at 0x2000, three at 0x3000 to write, three INT32 indices at 0x4000 (2, −1, 5), their descriptors from 0x1000. -/
def moving (op : Nat) (w4 w5 w6 : Nat) : State :=
  { bare with
    slots := [(4, { Slot.none with words := [op, 0x77, at_ 0x1000, at_ 0x1080, w4, w5, w6, 0], stage := .ready })]
    mem := blocks [(pin + 0x1000, vec32 (at_ 0x2000) 3), (pin + 0x1080, vec32 (at_ 0x3000) 3), (pin + 0x1100, td .int32 (at_ 0x4000) [3] [1]),
      (pin + 0x2000, leBytes 4 0x3F800000 ++ leBytes 4 0x40000000 ++ leBytes 4 0x40400000),
      (pin + 0x4000, leBytes 4 2 ++ leBytes 4 0xFFFFFFFF ++ leBytes 4 5)] }

/-- Three words of memory. -/
def three (t : State) (o : Nat) : List Nat := [t.memNat (pin + o) 4, t.memNat (pin + o + 4) 4, t.memNat (pin + o + 8) 4]

/-- The tensors of the test. -/
def tensor (o : Nat) (b : List Byte) : Tensor := ⟨(parseTD b).getD ⟨[], .fp32, .none, 0, false, false, false, 0, 0, 0, 0, [], []⟩, 0, [⟨at_ o, 0, 3, 0, 0, 0⟩]⟩
def srcT : Tensor := tensor 0x2000 (vec32 (at_ 0x2000) 3)
def dstT : Tensor := tensor 0x3000 (vec32 (at_ 0x3000) 3)
def idxT : Tensor := tensor 0x4000 (td .int32 (at_ 0x4000) [3] [1])

/-- The descriptors at the first `n` words have been read. -/
def readAll (s : State) (n : Nat) : State := (s.fetchTensors 4 ((List.range n).map fun k => (s.slot 4).word (2 + k))).1

/-- The built-in program of slot 4 runs on core 8 at step `n`. -/
def onCore8 (s : State) (n : Nat) : State :=
  { s.setCore 8 { s.core 8 with run := some ⟨4, 0, 8, 0, 0, 2, false, true⟩ } with
    slots := [(4, { s.slot 4 with stage := .started, step := n })], runs := [(4, { LaunchRun.none with cores := [8], entered := 1 })] }

theorem test_move : leads (.move 4) (moving 2 0 0 idPerm) (fun t => (t.slot 4).stage == .ended 0 0 &&
    three t 0x3000 == [0x3F800000, 0x40000000, 0x40400000] && three t 0x2000 == [0x3F800000, 0x40000000, 0x40400000]) = true := by decide +kernel

/-- A MOVE that is ready has read its descriptors. -/
def moved : State := readAll (moving 2 0 0 idPerm) 2

theorem witness_move : ((moving 2 0 0 idPerm).moverReady 4 2 = true ∧ ((moving 2 0 0 idPerm).slot 4).mvGet = false ∧ ((moving 2 0 0 idPerm).slot 4).step = 0 ∧
    (moving 2 0 0 idPerm).moverOff 4 = false ∧ ((moving 2 0 0 idPerm).fetchTensors 4 [at_ 0x1000, at_ 0x1080]).2 = true ∧
    (moved.slot 4).refused = false ∧ moved.mvChecks (moved.slot 4) (.ok srcT) (.ok dstT) = none ∧ srcT.d.size.contains 0 = false ∧
    (moved.slot 4).mvLanding srcT.d dstT.d = false ∧ Claims.Here moved srcT ∧ moved.hostHeld (srcT.extents ++ dstT.extents) = false ∧
    moved.slotBusy 4 = false ∧ moved.lrun 4 = LaunchRun.none ∧ (∀ d ∈ moved.dips, d.launch ≠ 4) ∧ Claims.Flat moved srcT 3 4 ∧
    Claims.Flat moved dstT 3 4 ∧ srcT.overlaps dstT = false) ∧ moved.readTensor (moved.slot 4) false (at_ 0x1000) = .ok srcT ∧
    moved.readTensor (moved.slot 4) true (at_ 0x1080) = .ok dstT ∧ (moved.slot 4).tensorOf false (at_ 0x1000) = .ok srcT ∧
    (moved.slot 4).tensorOf true (at_ 0x1080) = .ok dstT ∧ Claims.Writable moved (moved.slot 4) dstT.d.base (3 * 4) := by
  unfold Claims.Flat Claims.Here
  exact and_of dec_of (and_of ok_of (and_of ok_of (and_of ok_of (and_of ok_of writable_of)))) (by decide +kernel)

/-- A MOVE of a tensor whose element 0 is in error notes it. -/
theorem test_move_dead : leads (.move 4) { moving 2 0 0 idPerm with ue := [(sramPlace (pin + 0x2000), true)] }
    (fun t => (t.slot 4).stage == .ended 0 0 && (t.slot 4).dead) = true := by decide +kernel

/-- A disabled mover; and a permutation that is none. -/
theorem witness_move_stops : ((moving 2 0 0 idPerm).setReg (Reg.unitState 64) 1).moverReady 4 2 = true ∧ ((moving 2 0 0 idPerm).setReg (Reg.unitState 64) 1).moverOff 4 = true ∧
    ((moving 2 0 0 0).fetchTensors 4 [at_ 0x1000, at_ 0x1080]).2 = true ∧
    (readAll (moving 2 0 0 0) 2).mvChecks ((readAll (moving 2 0 0 0) 2).slot 4) (.ok srcT) (.ok dstT) = some 0x14 := by
  decide +kernel

theorem test_move_stops : leads (.move 4) ((moving 2 0 0 idPerm).setReg (Reg.unitState 64) 1) (fun t => (t.slot 4).stage == .ended 0x13 0) = true ∧
    leads (.move 4) (moving 2 0 0 0) (fun t => (t.slot 4).stage == .ended 0x14 0) = true := by decide +kernel

/-- A matrix of 128 by 128 elements of E4M3 in host memory, to transpose in the Landing of core 8. -/
def landing : State :=
  let d := fun (o : Nat) => td .e4m3 (0xFFFF000000000000 + o) [128, 128] [1, 128]
  { bare with
    slots := [(4, { Slot.none with words := [2, 0x77, at_ 0x1000, at_ 0x1080, 0, 0, 0xFAC681 + 8 * 2 ^ 28 + 1 * 2 ^ 36, 0], stage := .ready })]
    mem := blocks [(pin + 0x1000, d 0x100000), (pin + 0x1080, d 0x200000)] }

def landed : State := readAll landing 2
def landSrc : Tensor := ((landed.slot 4).tensorOf false (at_ 0x1000)).toOption.getD srcT
def landDst : Tensor := ((landed.slot 4).tensorOf true (at_ 0x1080)).toOption.getD srcT

theorem witness_move_landing : (landing.moverReady 4 2 = true ∧ (landing.slot 4).step = 0 ∧ landing.moverOff 4 = false ∧
    (landing.fetchTensors 4 [at_ 0x1000, at_ 0x1080]).2 = true ∧ landed.mvChecks (landed.slot 4) (.ok landSrc) (.ok landDst) = none ∧
    landSrc.d.size.contains 0 = false ∧ (landed.slot 4).mvLanding landSrc.d landDst.d = true ∧
    ((List.range (landed.slot 4).mvCount).map fun j => landed.phys ((landed.slot 4).mvBase + j)) = [8] ∧ Claims.Room landed [8]) ∧
    landed.readTensor (landed.slot 4) false (at_ 0x1000) = .ok landSrc ∧ landed.readTensor (landed.slot 4) true (at_ 0x1080) = .ok landDst := by
  unfold Claims.Room
  exact and_of dec_of (and_of ok_of ok_of) (by decide +kernel)

/-- It waits for core 8, and ends when its program ends. -/
theorem witness_move_program :
    ((onCore8 landed 1).running = true ∧ ((onCore8 landed 1).slot 4).opcode = 2 ∧ ((onCore8 landed 1).slot 4).stage = .started ∧
     ((onCore8 landed 1).slot 4).mvGet = false ∧ ((onCore8 landed 1).slot 4).mvLanding landSrc.d landDst.d = true ∧
     { onCore8 landed 1 with cores := landed.cores }.builtinCores 4 = [] ∧ { onCore8 landed 1 with cores := landed.cores }.launchOver 4 = false ∧
     (onCore8 landed 1).hostHeld (landSrc.extents ++ landDst.extents) = false ∧ ((onCore8 landed 3).slot 4).step = 3 ∧ Claims.CanEnd (onCore8 landed 3) 4) ∧
    ((onCore8 landed 1).slot 4).tensorOf false (at_ 0x1000) = .ok landSrc ∧ ((onCore8 landed 1).slot 4).tensorOf true (at_ 0x1080) = .ok landDst := by
  unfold Claims.CanEnd
  exact and_of dec_of (and_of ok_of ok_of) (by decide +kernel)

/-- Once core 8 runs it, it copies. -/
theorem witness_move_copies : ((onCore8 moved 1).running = true ∧ ((onCore8 moved 1).slot 4).opcode = 2 ∧ ((onCore8 moved 1).slot 4).step = 1 ∧
    (onCore8 moved 1).builtinCores 4 ≠ [] ∧ (onCore8 moved 1).hostHeld (srcT.extents ++ dstT.extents) = false ∧ Claims.Here (onCore8 moved 1) srcT ∧
    (onCore8 moved 1).slotBusy 4 = false ∧ ((onCore8 moved 1).slot 4).refused = false) ∧
    ((onCore8 moved 1).slot 4).tensorOf false (at_ 0x1000) = .ok srcT ∧ ((onCore8 moved 1).slot 4).tensorOf true (at_ 0x1080) = .ok dstT := by
  unfold Claims.Here
  exact and_of dec_of (and_of ok_of ok_of) (by decide +kernel)

theorem test_move_program : leads (.move 4) landing (fun t => (t.slot 4).step == 1 && (t.core 8).queue == [(4, 0)] && (t.lrun 4).cores == [8]) = true ∧
    leads (.move 4) (onCore8 landed 3) (fun t => (t.slot 4).stage == .ended 0 0 && (t.core 8).run == none) = true := by decide +kernel

/-- Index 2, then −1 and 5 clamped to 0 and 2: two clamped. -/
theorem test_gather : leads (.gather 4) (moving 3 (at_ 0x1100) 0 0) (fun t => (t.slot 4).stage == .ended 1 2 &&
    three t 0x3000 == [0x40400000, 0x3F800000, 0x40400000]) = true := by decide +kernel

def gathered : State := readAll (moving 3 (at_ 0x1100) 0 0) 3

theorem witness_gather : ((moving 3 (at_ 0x1100) 0 0).moverReady 4 3 = true ∧ (moving 3 (at_ 0x1100) 0 0).moverOff 4 = false ∧
    ((moving 3 (at_ 0x1100) 0 0).fetchTensors 4 [at_ 0x1000, at_ 0x1080, at_ 0x1100]).2 = true ∧ (gathered.slot 4).refused = false ∧
    gathered.gaChecks (gathered.slot 4) (.ok srcT) (.ok dstT) (.ok idxT) = none ∧ dstT.d.size.contains 0 = false ∧ Claims.Here gathered srcT ∧
    Claims.Here gathered idxT ∧ gathered.slotBusy 4 = false ∧ (gathered.slot 4).gaDim = 0 ∧ (gathered.slot 4).dead = false ∧
    Claims.Flat gathered srcT 3 4 ∧ Claims.Flat gathered dstT 3 4) ∧ gathered.readTensor (gathered.slot 4) false (at_ 0x1000) = .ok srcT ∧
    gathered.readTensor (gathered.slot 4) true (at_ 0x1080) = .ok dstT ∧ gathered.readTensor (gathered.slot 4) false (at_ 0x1100) = .ok idxT ∧
    (gathered.slot 4).tensorOf false (at_ 0x1000) = .ok srcT ∧ (gathered.slot 4).tensorOf true (at_ 0x1080) = .ok dstT ∧
    (gathered.slot 4).tensorOf false (at_ 0x1100) = .ok idxT ∧ Claims.Writable gathered (gathered.slot 4) dstT.d.base (3 * 4) := by
  unfold Claims.Flat Claims.Here
  exact and_of dec_of (and_of ok_of (and_of ok_of (and_of ok_of (and_of ok_of (and_of ok_of (and_of ok_of writable_of)))))) (by decide +kernel)

/-- An index tensor of floating-point elements is none. -/
theorem witness_gather_stops : (readAll (moving 3 (at_ 0x1080) 0 0) 3).gaChecks ((readAll (moving 3 (at_ 0x1080) 0 0) 3).slot 4) (.ok srcT) (.ok dstT) (.ok dstT) = some 0x14 := by
  decide +kernel

/-- The same with indices 2, 0, 1. -/
def scattering : State :=
  { moving 4 (at_ 0x1100) 0 0 with mem := blocks [(pin + 0x1000, vec32 (at_ 0x2000) 3), (pin + 0x1080, vec32 (at_ 0x3000) 3),
      (pin + 0x1100, td .int32 (at_ 0x4000) [3] [1]), (pin + 0x2000, leBytes 4 0x3F800000 ++ leBytes 4 0x40000000 ++ leBytes 4 0x40400000),
      (pin + 0x4000, leBytes 4 2 ++ leBytes 4 0 ++ leBytes 4 1)] }

def scattered : State := readAll scattering 3

theorem witness_scatter : (scattering.moverReady 4 4 = true ∧ (scattering.slot 4).step = 0 ∧ scattering.moverOff 4 = false ∧
    (scattering.fetchTensors 4 [at_ 0x1000, at_ 0x1080, at_ 0x1100]).2 = true ∧ (scattered.slot 4).refused = false ∧
    scattered.scChecks (scattered.slot 4) (.ok srcT) (.ok dstT) (.ok idxT) = none ∧ srcT.d.size.contains 0 = false ∧
    (scattered.slot 4).scProg dstT.d = false ∧ Claims.Here scattered srcT ∧ Claims.Here scattered idxT ∧ scattered.slotBusy 4 = false ∧
    (scattered.slot 4).scOp = 0 ∧ (scattered.slot 4).scDim = 0 ∧ Claims.Flat scattered srcT 3 4 ∧ Claims.Flat scattered dstT 3 4 ∧
    scattered.indices (scattered.slot 4) idxT = [2, 0, 1]) ∧ scattered.readTensor (scattered.slot 4) false (at_ 0x1000) = .ok srcT ∧
    scattered.readTensor (scattered.slot 4) true (at_ 0x1080) = .ok dstT ∧ scattered.readTensor (scattered.slot 4) false (at_ 0x1100) = .ok idxT ∧
    (scattered.slot 4).tensorOf false (at_ 0x1000) = .ok srcT ∧ (scattered.slot 4).tensorOf true (at_ 0x1080) = .ok dstT ∧
    (scattered.slot 4).tensorOf false (at_ 0x1100) = .ok idxT ∧ Claims.Writable scattered (scattered.slot 4) dstT.d.base (3 * 4) := by
  unfold Claims.Flat Claims.Here
  exact and_of dec_of (and_of ok_of (and_of ok_of (and_of ok_of (and_of ok_of (and_of ok_of (and_of ok_of writable_of)))))) (by decide +kernel)

/-- The same with addition by the program of R209 on core 8, in chunks of 4, its staging region in that core's scratch. -/
def summing : State :=
  { scattering with
    slots := [(4, { Slot.none with
      words := [4, 0x77, at_ 0x1000, at_ 0x1080, at_ 0x1100, home + scratchBase 8, 1 * 8 + 0x40 + 8 * 2 ^ 8 + 1 * 2 ^ 16 + 4 * 2 ^ 32 + 1 * 2 ^ 49, 0]
      stage := .ready })] }

def summed : State := readAll summing 3

theorem witness_scatter_program : (summing.moverReady 4 4 = true ∧ (summing.fetchTensors 4 [at_ 0x1000, at_ 0x1080, at_ 0x1100]).2 = true ∧ (summed.slot 4).refused = false ∧
    summed.scChecks (summed.slot 4) (.ok srcT) (.ok dstT) (.ok idxT) = none ∧ (summed.slot 4).scProg dstT.d = true ∧
    (summed.core (summed.phys (summed.slot 4).scBase)).queue.length < 4) ∧ summed.readTensor (summed.slot 4) false (at_ 0x1000) = .ok srcT ∧
    summed.readTensor (summed.slot 4) true (at_ 0x1080) = .ok dstT ∧ summed.readTensor (summed.slot 4) false (at_ 0x1100) = .ok idxT := by
  exact and_of dec_of (and_of ok_of (and_of ok_of ok_of)) (by decide +kernel)

/-- Its last chunk is out. -/
def summedUp : State := { onCore8 summed 4 with runs := [(4, { LaunchRun.none with cores := [8], entered := 1, tile := 3 })] }

theorem witness_scatter_end : (summedUp.running = true ∧ (summedUp.slot 4).opcode = 4 ∧ (summedUp.slot 4).stage = .started ∧ (summedUp.slot 4).scProg dstT.d = true ∧
    (summedUp.slot 4).step = 4 ∧ summedUp.slotBusy 4 = false ∧ (summedUp.slot 4).refused = false ∧
    srcT.d.size.getD (summedUp.slot 4).scDim 1 ≤ (summedUp.lrun 4).tile ∧ Claims.CanEnd summedUp 4) ∧
    (summedUp.slot 4).tensorOf false (at_ 0x1000) = .ok srcT ∧ (summedUp.slot 4).tensorOf true (at_ 0x1080) = .ok dstT ∧
    (summedUp.slot 4).tensorOf false (at_ 0x1100) = .ok idxT := by
  unfold Claims.CanEnd
  exact and_of dec_of (and_of ok_of (and_of ok_of ok_of)) (by decide +kernel)

theorem test_scatter : leads (.scatter 4) summing (fun t => (t.slot 4).step == 1 && (t.core 8).queue == [(4, 0)]) = true ∧
    leads (.scatter 4) summedUp (fun t => (t.slot 4).stage == .ended 0 0 && (t.core 8).run == none) = true := by decide +kernel

/-! ## UPDATE -/

/-- One element: weight 0.5 in the split code at DRAM offset 0x2000, gradient 2.0 at 0x3000, rho 1, eta 0.5, aG 1, gScale 1. -/
def updating : State :=
  let entry := leBytes 8 (home + 0x2000) ++ List.replicate 32 0 ++ leBytes 8 (home + 0x3000) ++ List.replicate 32 0 ++ leBytes 4 1 ++ leBytes 4 1 ++
    leBytes 8 (7 * 256) ++ List.replicate 32 0
  let coef := leBytes 4 0x0 ++ leBytes 4 0x3F800000 ++ List.replicate 20 0 ++ leBytes 4 0x3F800000 ++ List.replicate 8 0 ++ leBytes 4 0x3F000000 ++ leBytes 4 0x3F800000 ++
    List.replicate 8 0 ++ leBytes 4 0x7F800000 ++ List.replicate 4 0
  { bare with
    slots := [(4, { Slot.none with words := [7, 0x77, at_ 0x1000, at_ 0x1100, 9, 1 * 2 ^ 32 + 8 * 2 ^ 24 + 1, 0x3F800000, 0], stage := .ready })]
    mem := (0x2003, 0x3F) :: (0x3003, 0x40) :: blocks [(pin + 0x1000, entry), (pin + 0x1100, coef)] }

/-- It has read its table and its row. -/
def updated : State := (updating.fetchUpdate 4).1

/-- Its entry and its row. -/
def entry1 : Entry := ⟨home + 0x2000, 0, 0, 0, 0, home + 0x3000, 0, 0, 0, 0, 1, 1, false, 0, 0, 7, 0, 0⟩
def coef1 : Coef := ⟨0, v32 0x3F800000, v32 0, v32 0, v32 0, v32 0, v32 0, v32 0x3F800000, v32 0, v32 0, v32 0x3F000000, v32 0x3F800000, 0, v32 0x7F800000⟩

theorem witness_update : updating.opReady 4 7 = true ∧ (updating.slot 4).step = 0 ∧ (updating.fetchUpdate 4).2 = true ∧ (updated.slot 4).refused = false ∧
    updated.updChecks (updated.slot 4) = none ∧ (updated.slot 4).upPairs = [(entry1, coef1)] ∧ (updated.slot 4).upCores = (8, 1) ∧
    updated.phys 8 = 8 ∧ Claims.Room updated [8] := by
  unfold Claims.Room
  decide +kernel

/-- No entries: not valid. -/
theorem witness_update_stops :
    (let s := { updating with slots := [(4, { updating.slot 4 with words := [7, 0x77, at_ 0x1000, at_ 0x1100, 9, 1 * 2 ^ 32 + 8 * 2 ^ 24, 0x3F800000, 0] })] }
     (s.fetchUpdate 4).2 = true ∧ (s.fetchUpdate 4).1.updChecks ((s.fetchUpdate 4).1.slot 4) = some 0x14) := by
  decide +kernel

/-- Core 8 runs it, at its first piece or after its last. -/
def updateRun (n : Nat) : State := { onCore8 updated 1 with runs := [(4, { LaunchRun.none with cores := [8], entered := 1, tile := n })] }

theorem witness_update_piece : (updateRun 0).running = true ∧ ((updateRun 0).slot 4).opcode = 7 ∧ ((updateRun 0).slot 4).stage = .started ∧
    pieceAt ((updateRun 0).slot 4).upPairs ((updateRun 0).lrun 4).tile = some (entry1, coef1, 0) ∧ (updateRun 0).builtinCores 4 = [8] ∧
    entry1.rows = 1 ∧ entry1.cols = 1 ∧ entry1.mask = 0 ∧ entry1.owner = 0 ∧ entry1.wkType = 0 ∧ entry1.pair = false ∧ entry1.gType = 7 ∧
    bits coef1.ctl 3 0 = 0 ∧ coef1.clip = .inf false ∧ (updateRun 0).isLocal entry1.w = true ∧ isHost entry1.w = false ∧
    Claims.Writable (updateRun 0) ((updateRun 0).slot 4) entry1.w 4 ∧
    (let g := v32 ((updateRun 0).descNat ((updateRun 0).slot 4) entry1.g 4)
     let x := EType.val .split ((updateRun 0).descNat ((updateRun 0).slot 4) entry1.w 4)
     let gt := flv (g.mul (flv (coef1.gScale.mul ((updateRun 0).slot 4).upMul)))
     let d := flv (coef1.aG.mul gt)
     let w1 := flv ((x.mul coef1.rho).add (flv (coef1.eta.neg.mul d)))
     gt.isFin = true ∧ d.isFin = true ∧ w1.isFin = true ∧ EType.rne .split w1 = 0xBF000000) := by
  and_intros <;> first | decide +kernel | exact ok_of (by decide +kernel) | (unfold Claims.Here; decide +kernel) | exact oneToOne_of (by decide +kernel) |
    exact onStacks_of (by decide +kernel) | exact sound_of (by decide +kernel)

theorem witness_update_end : pieceAt ((updateRun 1).slot 4).upPairs ((updateRun 1).lrun 4).tile = none ∧ Claims.CanEnd (updateRun 1) 4 ∧
    (let s := { updateRun 0 with cores := updated.cores }; s.builtinCores 4 = [] ∧ s.launchOver 4 = false) := by
  and_intros <;> first | decide +kernel | exact ok_of (by decide +kernel) | (unfold Claims.Here; decide +kernel) | exact oneToOne_of (by decide +kernel) |
    exact onStacks_of (by decide +kernel) | exact sound_of (by decide +kernel)

theorem test_update : leads (.update 4) (updateRun 1) (fun t => (t.slot 4).stage == .ended 0 0) = true ∧
    leads (.update 4) { updateRun 1 with slots := [(4, { (updateRun 1).slot 4 with count := 3 })] } (fun t => (t.slot 4).stage == .ended 2 3) = true := by
  decide +kernel

end Sys2Proof.Tests
end

