-- ==== Sys2Proof/Tests/Slice0.lean ====
section
/-! SUPPORT. Which commands are well formed: for each check of `Instr.wf` a command that it refuses, beside one that passes. -/

namespace Sys2Proof.Tests

open Sys2Proof.Machine

set_option Elab.async false

theorem test_wf_self_test : (Instr.selfTestDone 3 [.rowPath 130] false).wf = false ∧ (Instr.selfTestDone 3 [.cells 5 (some 130)] false).wf = false ∧
    (Instr.selfTestDone 3 [.spareCol 131] false).wf = false ∧ (Instr.selfTestDone 3 [.rowPath 129, .cells 5 none] false).wf = true := by decide

/-- A write of 3 bytes; an address of 65 bits. -/
theorem test_wf_doorbell : (Instr.doorbell 8 3 0x70003 []).wf = false ∧ (Instr.doorbell 8 8 0x70003 [(2 ^ 64, 0)]).wf = false ∧ (Instr.doorbell 8 8 0x70003 []).wf = true := by
  decide

theorem test_wf_sluice : (Instr.doneMarker ⟨5, 32, 0, 0, .done 0⟩).wf = false ∧ (Instr.doneMarker ⟨5, 1, 256, 0, .done 0⟩).wf = false ∧
    (Instr.doneMarker ⟨5, 1, 0, 65536, .done 0⟩).wf = false ∧ (Instr.doneMarker ⟨5, 1, 255, 65535, .done 0⟩).wf = true := by decide

theorem test_wf_collective : (Instr.contribution ⟨65536, 1, 6, 12, 0, .probe⟩).wf = false ∧ (Instr.contribution ⟨5, 1, 65536, 12, 0, .probe⟩).wf = false ∧
    (Instr.contribution ⟨5, 1, 6, 2 ^ 64, 0, .probe⟩).wf = false ∧ (Instr.contribution ⟨5, 1, 6, 12, 0, .probe⟩).wf = true := by decide

/-- A cell with one field beyond its width each. -/
theorem test_wf_cell : (Instr.store 3 storeC).wf = true ∧ ∀ c ∈ [{ storeC with dstHouse := 65536 }, { storeC with dstRoom := 32 }, { storeC with dstUnit := 64 },
    { storeC with srcHouse := 65536 }, { storeC with srcRoom := 32 }, { storeC with srcUnit := 64 }, { storeC with hops := 64 }, { storeC with spills := 16 },
    { storeC with ty := 16 }, { storeC with tag := 131072 }, { storeC with len := 128 }, { storeC with aux := 65536 }, { storeC with addr := 2 ^ 46 },
    { storeC with weight := 2 ^ 32 }, { storeC with payload := List.replicate 129 0 }], (Instr.store 3 c).wf = false := by decide +kernel

/-- Two cells that arrive on one port; one on a door port. -/
theorem test_wf_arrivals : (Instr.cellTransit [⟨3, via, false⟩, ⟨3, stray, false⟩] []).wf = false ∧ (Instr.cellTransit [⟨31, via, false⟩] []).wf = false ∧
    (Instr.cellTransit [⟨3, via, false⟩] [40]).wf = false ∧ (Instr.load 3 loadC [⟨35, loadC, false⟩]).wf = false ∧
    (Instr.cellTransit [⟨3, via, false⟩, ⟨7, stray, false⟩] [7]).wf = true := by decide +kernel

theorem test_wf_pool : (Instr.msg 3 (msgC 13) (some ⟨4, 64, 1, 1, [], [], false⟩)).wf = false ∧ (Instr.msg 3 (msgC 13) (some ⟨4, 5, 4, 1, [], [], false⟩)).wf = false ∧
    (Instr.msg 3 (msgC 13) (some (ask 1 1 [2 ^ 32]))).wf = false ∧ (Instr.msg 3 (msgC 13) (some (ask 1 1 [7]))).wf = true := by decide +kernel

/-- A bulk message with one field beyond its width each, or a count that is not that of its cells. -/
theorem test_wf_bulk : (Instr.write (bulk6 0 [doorStore] 0 0)).wf = true ∧
    ∀ m ∈ [{ bulk6 0 [doorStore] 0 0 with port := 40 }, { bulk6 0 [doorStore] 0 0 with kind := 128 },
      { bulk6 0 [doorStore] 0 0 with seq := 2 ^ 32 }, { bulk6 0 [doorStore] 0 0 with count := 0 }, { bulk6 0 [doorStore] 0 0 with engine := 4 },
      { bulk6 0 [doorStore] 0 0 with crc := 2 ^ 32 }, { bulk6 0 [doorStore] 0 0 with arg0 := 2 ^ 64 }, { bulk6 0 [doorStore] 0 0 with srcRoom := 32 }],
      (Instr.write m).wf = false := by decide +kernel

theorem test_wf_unit : (Instr.unit (bulk6 3 [askC] 0 0) [⟨6, 32, 0, 12⟩] []).wf = false ∧ (Instr.unit (bulk6 3 [askC] 0 0) [⟨6, 0, 2 ^ 41, 12⟩] []).wf = false ∧
    (Instr.unit (bulk6 3 [askC] 0 0) [⟨6, 0, pin, 12⟩] []).wf = true ∧
    (Instr.unit (bulk6 3 [askC] 0 0) [] [⟨2 ^ 64 - 1, some [1, 2]⟩]).wf = false ∧ (Instr.unit (bulk6 3 [askC] 0 0) [] [⟨2 ^ 64 - 1, none⟩]).wf = true := by decide +kernel

theorem test_wf_register_write : (Instr.registerWrite false 0x500000 3 0).wf = false ∧ (Instr.registerWrite false 0x500000 8 0).wf = true := by decide

theorem test_wf_thermal : (Instr.thermalSample []).wf = false ∧ (Instr.thermalSample (List.replicate 100 40)).wf = true := by decide

/-- A stack, a core or a port named twice; more bad log entries than there are entries. -/
theorem test_wf_lists : (Instr.wakeComplete [3, 3] []).wf = false ∧ (Instr.wakeComplete [] [⟨4, 5, 2, 6, false⟩, ⟨4, 5, 2, 6, false⟩]).wf = false ∧
    (Instr.stackTrainingDone [3, 3] []).wf = false ∧ (Instr.stackTrainingDone [] [391, 391]).wf = false ∧ (Instr.startupComplete [9, 9] [] 0).wf = false ∧
    (Instr.startupComplete [] [] 4097).wf = false ∧ (Instr.startupComplete [9] [⟨4, 5, 2, 6, false⟩] 4096).wf = true := by decide

theorem test_wf_host : (Instr.secFwGo 1 [(8, 1), (8, 2)]).wf = false ∧ (Instr.hostReadError (some 2) (2 ^ 46) 1).wf = false ∧ (Instr.hostReadError (some 2) 0 64).wf = true := by decide

/-- Of a THERMAL_SAMPLE without its hundred readings the machine makes a fault: the one fault there is. -/
theorem test_malformed : (match exec (.thermalSample []) few with | .fault f => decide (f = .malformed) | _ => false) = true := by decide

/-- No word spells a command, and the queue stays as it is. -/
theorem test_no_words : decodeTableWord 64 0x1234 = none := rfl

end Sys2Proof.Tests
end

