-- ==== Sys2Proof/Tests/Startup.lean ====
section
/-! SUPPORT. Tests of units, register writes, start-up, security and the sideband. -/

namespace Sys2Proof.Tests

open Sys2Proof.Machine

set_option Elab.async false

/-! ## Units and register writes -/

/-- Mover 0 executes the descriptor in slot 4. -/
def moving4 : State := { few with slots := [(4, { Slot.none with words := [2, 0, 0, 0, 0, 0, 0, 0], stage := .started })] }

theorem test_units : leads (.unitDisable 64 false) few (fun t => t.fieldOf (Reg.unitState 64) 1 0 == 1) = true ∧
    leads (.unitDisable 64 true) few (fun t => t.flag (Reg.unitState 64) 2) = true ∧
    leads (.unitDrained 64) (few.setReg (Reg.unitState 64) 1) (fun t => t.fieldOf (Reg.unitState 64) 1 0 == 2) = true ∧
    leads (.unitEnable 64) (few.setReg (Reg.unitState 64) 2) (fun t => t.fieldOf (Reg.unitState 64) 1 0 == 0) = true ∧
    leadsTo (.unitDisable 100 false) few few = true := by decide +kernel
/-- Unit 0 serves ring 0, whose descriptor of slot 4 waits. -/
def queued4 : State := { few with slots := [(4, { Slot.none with words := [2, 0, 0, 0, 0, 0, 0, 0], stage := .ready })], nextSlot := 5 }

theorem witness_units : few.unitOff 64 = false ∧ (few.setReg (Reg.unitState 64) 1).fieldOf (Reg.unitState 64) 1 0 = 1 ∧ (few.setReg (Reg.unitState 64) 1).unitIdle 64 = true ∧
    (few.setReg (Reg.unitState 64) 2).unitOff 64 = true ∧ (few.setReg (Reg.unitState 64) 2).fieldOf (Reg.unitState 64) 2 0 = 2 ∧
    (moving4.slot 4).stage = .started ∧ (moving4.slot 4).onUnit 64 = true ∧ few.unitOff 0 = false ∧ 0 ∈ queued4.ringsOf 0 ∧ 0 ∉ queued4.ringStop ∧
    (∀ e ∈ queued4.slots, e.1 < queued4.nextSlot) ∧ (queued4.slot 4).ring = 0 ∧ (queued4.slot 4).words ≠ [] ∧ (queued4.slot 4).stage = .ready ∧
    few.fieldOf (Reg.unitState 64) 2 0 ≠ 2 ∧ (moving4.setReg (Reg.unitState 64) 1).unitIdle 64 = false := by
  decide +kernel

/-- Keeper firmware is not running yet. -/
def early : State := few.setReg Reg.secBootStatus 2

def nonceAt : Fin 67108864 := ⟨Reg.secNonce 1, by decide⟩
def nonceHi : Fin 67108864 := ⟨Reg.secNonce 1 + 4, by decide⟩
def thermAt : Fin 67108864 := ⟨Reg.thermCfg, by decide⟩
def capAt : Fin 67108864 := ⟨Reg.powerCap, by decide⟩
def nonced : State := few.setReg (Reg.secNonce 1) 0x1111222233334444

theorem test_register_write : leads (.registerWrite false nonceAt 8 0x123456789) nonced (fun t => t.reg (Reg.secNonce 1) == 0x123456789) = true ∧
    leads (.registerWrite false nonceAt 4 0x123456789) nonced (fun t => t.reg (Reg.secNonce 1) == 0x1111222223456789) = true ∧
    leads (.registerWrite false nonceHi 4 0x55) nonced (fun t => t.reg (Reg.secNonce 1) == 0x5533334444) = true ∧ leadsTo (.registerWrite false nonceAt 2 0) nonced nonced = true := by
  decide +kernel
theorem test_register_ranges : leads (.registerWrite false thermAt 8 0x706050) few (fun t => t.reg Reg.thermCfg == 0x706050) = true ∧
    leadsTo (.registerWrite false thermAt 8 0x507060) few few = true ∧
    leads (.registerWrite false capAt 8 (2 ^ 17 + 900)) few (fun t => t.fieldOf Reg.powerCap 12 0 == 4800 && t.fieldOf Reg.powerCap 23 16 == 2) = true := by decide +kernel
/-- Offsets of one register of each kind of the statement. -/
theorem witness_register_write : nonceAt.val = Reg.secNonce 1 ∧ nonceAt.val % 8 = 0 ∧ regMapped thermAt = true ∧ nonceHi.val = nonceAt.val + 4 ∧ regMapped 0xFFFFFF8 = false ∧
    ((Reg.secNonce 0, 4, 0xFFFFFFFFFFFFFFFF) ∈ Claims.plainRegs ∧ Reg.secNonce 1 = Reg.secNonce 0 + 8 * 1) ∧ (Reg.geomId, 2) ∈ Claims.readOnlyRegs ∧
    (0x8, 4) ∈ Claims.readOnlyCore ∧ (Reg.hwinHi 0, 8, 0x3FFFFFFFF000) ∈ Claims.windowRegs ∧ (Reg.linkCtl, 15, 10, 60000) ∈ Claims.rangedRegs ∧
    (false, Reg.roomRouteA 0, 32, 0x11F) ∈ Claims.routeRegs ∧ few.activeB = false ∧ few.flag Reg.fabEpoch 2 = false ∧
    (few.setFlag Reg.fabEpoch 2 true).flag Reg.fabEpoch 2 = true ∧ few.flag (Reg.ringCfg 3) 63 = false ∧ few.poolOn 3 = false ∧
    (few.setReg (Reg.panCfg 3) (2 ^ 63)).poolOn 3 = true ∧ (few.setReg (Reg.ringCfg 3) (2 ^ 63)).flag (Reg.ringCfg 3) 63 = true := by
  decide +kernel

/-- The upper half of a request register; of a register cleared by ones; of a seed. -/
theorem witness_upper_half : Reg.hostCancel % 8 = 0 ∧ Reg.irqPending % 8 = 0 ∧ Reg.sclSeed 5 % 8 = 0 ∧ Reg.secNonce 1 ≠ Reg.hostCancel ∧ (∀ h < 1024, Reg.secNonce 1 ≠ Reg.sclSeed h) ∧
    (∀ n < 128, Reg.secNonce 1 ≠ Reg.dipWorst n) ∧ Reg.irqPending ≠ Reg.secNonce 1 := by decide +kernel

def jobAt : Fin 67108864 := ⟨Reg.hostJob, by decide⟩
def windowAt : Fin 67108864 := ⟨Reg.hwinHi 0, by decide⟩
/-- Keeper firmware takes a job's ownership away, and changes no other register. -/
theorem test_keeper_write : leads (.registerWrite true jobAt 8 0) (few.setFlag Reg.hostJob 63 true) (fun t => !t.owned && t.reg Reg.secKeeperChanges == 1) = true ∧
    leadsTo (.registerWrite true nonceAt 8 1) few few = true ∧ leadsTo (.registerWrite true jobAt 8 0) early early = true := by decide +kernel
set_option maxRecDepth 100000 in
theorem witness_keeper_write : few.keeperRuns = true ∧ early.keeperRuns = false ∧ jobAt.val = Reg.hostJob ∧ windowAt.val = Reg.hwinHi 0 + 8 * 0 ∧
    nonceAt.val ≠ Reg.hostJob ∧ nonceAt.val ≠ Reg.dipCtl ∧ nonceAt.val ≠ Reg.unitCmd ∧ nonceAt.val ≠ Reg.memCtl ∧ nonceAt.val ≠ Reg.memLarderCfg ∧
    (∀ n < 4096, nonceAt.val ≠ Reg.ringCfg n) ∧ (∀ e ∈ Claims.windowRegs, ∀ n < e.2.1, nonceAt.val ≠ e.1 + 8 * n) ∧
    (few.setReg (Reg.unitState 64) 2).fieldOf (Reg.unitState 64) 2 0 = 2 := by
  decide +kernel

/-! ## Start-up -/

theorem test_reset_n : leads .resetN few (fun t => t.resetHeld && t.boot == 0 && !t.ready && t.resetKind == 1 && t.fuses.isEmpty) = true ∧
    leads .resetNRelease { few with resetHeld := true } (fun t => !t.resetHeld) = true ∧ leadsTo .deviceReset { few with power := false } { few with power := false } = true ∧
    leads .maintenanceReset few (fun t => t.resetKind == 2 && t.reg Reg.secBootStatus == 0) = true := by decide +kernel

theorem witness_fuses : Claims.FusesSound few ∧ few.reg Reg.secBootStatus = 5 ∧ few.power = true ∧ few.keeperRuns = true ∧ ({ few with power := false } : State).power = false := by
  refine ⟨⟨by decide, ?_⟩, by decide, by decide, by decide, by decide⟩
  intro f hf
  exact absurd hf (List.not_mem_nil)

/-- Firmware is asked for; it runs, and training is over. -/
def asking (n : Nat) : State := (State.reset.setReg Reg.secBootStatus n).setReg Reg.hostStatus 2
def started (n : Nat) : State := { asking 4 with boot := n }

theorem test_firmware_go : leads (.secFwGo 1 []) (asking 1) (fun t => t.reg Reg.secBootStatus == 2) = true ∧
    leads (.secFwGo 1 []) (asking 0x12) (fun t => t.reg Reg.secBootStatus == 2) = true ∧ leadsTo (.secFwGo 1 []) (asking 5) (asking 5) = true ∧
    leadsTo .firmwareVerify (asking 1) (asking 1) = true := by decide +kernel

/-- An image shorter than the least there is. -/
theorem test_firmware_short : leads .firmwareVerify (asking 2) (fun t => t.reg Reg.secBootStatus == 0x10) = true := by decide +kernel
theorem witness_firmware : (asking 2).reg Reg.secBootStatus = 2 ∧ (asking 2).linkUp = true ∧ (asking 2).imageBad [] = some 0x10 ∧ (asking 1).reg Reg.secBootStatus = 1 ∧
    (asking 0x12).reg Reg.secBootStatus = 0x12 ∧ (asking 5).reg Reg.secBootStatus ≠ 2 ∧ (few.setReg Reg.clkStatus 4).flag Reg.clkStatus 0 = false ∧
    few.flag Reg.fltLatch 0 = false ∧ few.powered = true ∧ few.boot = 0 := by
  decide +kernel

/-- A field of what host memory holds is read where it lies. -/
theorem field_of_host {s : State} {a len o n : Nat} (h : o + n ≤ len) : imageField (s.hostRead a len) o n = leNat (s.hostRead (a + o) n) := by
  unfold imageField State.hostRead
  congr 1
  refine List.ext_getElem ?_ fun i h1 h2 => ?_
  · simp; omega
  · simp; congr 1; omega

/-- An image of the least length at 0 of host memory, all zeros after its fields: its key and SVN, and the keys revoked. -/
structure Image where
  key : Nat
  svn : Nat
  revoked : Nat

def image (e : Image) : State :=
  { withRegs (asking 2) [(Reg.secFwLen, 30048), (Reg.secKeys, e.revoked)] with
    hostMem := ((leBytes 4 0x5746564F ++ leBytes 2 1 ++ leBytes 1 e.key ++ leBytes 1 0 ++ leBytes 4 7 ++ leBytes 4 e.svn ++ leBytes 4 30048 ++
      leBytes 2 0x2548 ++ leBytes 1 0xA1).zipIdx.filter fun b => b.1 != 0).map fun b => (b.2, b.1) }

/-- Its key is revoked; its SVN is above 64; its key is none of the five; and nothing but its signature is left to check, which no spec lets one know. -/
def images : List Image := [⟨0, 0, 1⟩, ⟨0, 65, 0⟩, ⟨5, 0, 0⟩, ⟨0, 0, 0⟩]

theorem image_fields : ∀ e ∈ images, (image e).reg Reg.secBootStatus = 2 ∧ (image e).linkUp = true ∧ (image e).fieldOf Reg.secFwLen 23 0 = 30048 ∧
    (image e).fieldOf Reg.secFwAddr 45 12 * 4096 = 0 ∧ leNat ((image e).hostRead (0 + 0x10) 4) = 30048 ∧ leNat ((image e).hostRead (0 + 0) 4) = 0x5746564F ∧
    leNat ((image e).hostRead (0 + 4) 2) = 1 ∧ leNat ((image e).hostRead (0 + 0x14) 2) = 0x2548 ∧ leNat ((image e).hostRead (0 + 0x16) 1) = 0xA1 ∧
    leNat ((image e).hostRead (0 + 0x17) 233) = 0 ∧ leNat ((image e).hostRead (0 + 7) 1) = 0 ∧ leNat ((image e).hostRead (0 + 6) 1) = e.key ∧
    leNat ((image e).hostRead (0 + 0xC) 4) = e.svn ∧ (image e).fieldOf Reg.secKeys 4 0 = e.revoked ∧ (image e).fieldOf Reg.secRollback 6 0 = 0 := by decide +kernel

theorem witness_image : ∀ e ∈ images,
    let s := image e
    let bs := s.hostRead (s.fieldOf Reg.secFwAddr 45 12 * 4096) (s.fieldOf Reg.secFwLen 23 0)
    s.reg Reg.secBootStatus = 2 ∧ s.linkUp = true ∧ imageField bs 0x10 4 = 30048 ∧ s.fieldOf Reg.secFwLen 23 0 = 30048 ∧ imageField bs 0 4 = 0x5746564F ∧
    imageField bs 4 2 = 1 ∧ imageField bs 0x14 2 = 0x2548 ∧ imageField bs 0x16 1 = 0xA1 ∧ imageField bs 0x17 233 = 0 ∧ imageField bs 7 1 = 0 ∧
    imageField bs 6 1 = e.key ∧ imageField bs 0xC 4 = e.svn ∧ s.fieldOf Reg.secKeys 4 0 = e.revoked ∧ s.fieldOf Reg.secRollback 6 0 = 0 := by
  intro e he
  obtain ⟨h1, h2, h3, h4, h5, h6, h7, h8, h9, h10, h11, h12, h13, h14, h15⟩ := image_fields e he
  dsimp only
  rw [h3, h4]
  exact ⟨h1, h2, (field_of_host (by decide)).trans h5, rfl, (field_of_host (by decide)).trans h6, (field_of_host (by decide)).trans h7,
    (field_of_host (by decide)).trans h8, (field_of_host (by decide)).trans h9, (field_of_host (by decide)).trans h10, (field_of_host (by decide)).trans h11,
    (field_of_host (by decide)).trans h12, (field_of_host (by decide)).trans h13, h14, h15⟩

/-- Its stack 3 fails, or is pending, at a reset of each kind. -/
def restarted (kind : Nat) : State :=
  { withRegs (started 1) [(Reg.memStackStatus 5, 4), (Reg.memChanPending 0, 1)] with resetKind := kind }

theorem witness_training : (∀ k ∈ [1, 2], (restarted k).reg Reg.secBootStatus = 4 ∧ (restarted k).boot = 1 ∧ (restarted k).resetKind = k ∧
      (restarted k).flag (Reg.memStackStatus 3) 1 = false ∧ (restarted k).flag (Reg.memStackStatus 3) 2 = false ∧ (restarted k).flag (Reg.memStackStatus 5) 2 = true ∧
      (restarted k).chanGone 3 5 = false ∧ (restarted k).flag (Reg.memChanPending 0) 0 = true ∧ (restarted k).fuses = []) ∧
    (started 4).reg Reg.secBootStatus = 4 ∧ (started 4).boot = 4 ∧ (started 4).fuses = [] ∧ (started 4).coreRetired 9 = false ∧ Claims.NoneWait (started 4) ∧
    (started 4).boot ≠ 1 ∧ (started 1).boot ≠ 4 := by
  unfold Claims.NoneWait
  decide +kernel

/-! ## Security -/

def counting : State := few.setReg Reg.secRollback 0x300
theorem test_rollback : leads (.secRollbackReq 65) few (fun t => (t.heldFaults.getLast?.map fun f => f.status) == some 0x15) = true ∧ leadsTo (.secRollbackReq 2) few few = true := by decide +kernel
theorem witness_rollback : counting.fieldOf Reg.secRollback 14 8 = 3 ∧ counting.fieldOf Reg.secRollback 6 0 = 0 ∧ counting.keeperRuns = true ∧ counting.fuses = [] ∧
    early.keeperRuns = false ∧ bits (2 : Word).toNat 6 0 = 2 ∧ min 2 (few.fieldOf Reg.secRollback 14 8) ≤ few.fieldOf Reg.secRollback 6 0 := by
  decide +kernel

def signing : State := { few with report := some (0x10000, leBytes 8 0x1122) }
theorem test_attest_done : leadsTo .attestDone few few = true ∧ leadsTo (.secExtend 0) few few = true ∧ leadsTo (.secAttestGo 0) few few = true := by decide +kernel
theorem witness_attest : signing.report = some (0x10000, leBytes 8 0x1122) ∧ signing.linkUp = true ∧ few.flag Reg.secAttest 1 = false ∧ few.keeperRuns = true ∧
    few.report = none ∧ (few.setReg Reg.secAttest 2).flag Reg.secAttest 1 = true := by
  decide +kernel

theorem test_tap : leads (.tapInstruction .idcode) few (fun t => t.tapIr == .idcode && t.out == [.tap (some 0x1254856F)]) = true ∧
    leads (.tapInstruction .extest) few (fun t => t.tapIr == .extest) = true ∧ leadsTo (.tapInstruction .other) few few = true ∧
    leadsTo (.tapInstruction .extest) (few.setReg Reg.secDebug 2) (few.setReg Reg.secDebug 2) = true := by decide +kernel

/-! ## The sideband -/

def geomIdAt : Fin 4294967296 := ⟨Reg.geomId, by decide⟩
def ringAt : Fin 4294967296 := ⟨Reg.ringCfg 0, by decide⟩
def statusAt : Fin 4294967296 := ⟨Reg.secBootStatus, by decide⟩
def capAtS : Fin 4294967296 := ⟨Reg.powerCap, by decide⟩

theorem test_read_reg : leadsTo (.readReg geomIdAt) few { few with out := Claims.vendor 1 0 (leBytes 8 0x2548A102) } = true ∧
    leadsTo (.readReg ringAt) few { few with out := Claims.vendor 1 1 [] } = true ∧ leadsTo (.readReg geomIdAt) early { early with out := Claims.vendor 1 3 [] } = true ∧
    leadsTo (.readReg statusAt) early { early with out := Claims.vendor 1 0 (leBytes 8 2) } = true := by decide +kernel

theorem test_write_reg : leads (.writeReg capAtS 0x113E8) few (fun t => t.fieldOf Reg.powerCap 12 0 == 5096 && decide (t.out = Claims.vendor 2 0 [])) = true ∧
    leadsTo (.writeReg geomIdAt 0) few { few with out := Claims.vendor 2 1 [] } = true ∧ leadsTo (.reset 3) few { few with out := Claims.vendor 4 2 [] } = true ∧
    leadsTo (.readFaults 0 5) few { few with out := Claims.vendor 3 2 [] } = true ∧ leadsTo (.readFaults 0 1) few { few with out := Claims.vendor 3 0 [0] } = true := by
  decide +kernel

theorem test_sideband : leads (.entdaa 9) few (fun t => t.dynAddr == some 9 && t.out.length == 1) = true ∧
    leadsTo (.setEndpointId 4) few { few with endpoint := some 4, out := [.ibi, .control true] } = true ∧
    leadsTo (.unsupportedMctpType 5) few { few with out := [.ibi, .control false] } = true ∧ leadsTo (.entdaa 9) { few with power := false } { few with power := false } = true := by
  decide +kernel

theorem witness_tap : few.power = true ∧ Claims.Offered few .idcode ∧ Claims.Offered few .extest ∧ ¬Claims.Offered (few.setReg Reg.secDebug 2) .extest ∧ Claims.Offered few .bypass := by
  unfold Claims.Offered
  decide +kernel

def oddAt : Fin 4294967296 := ⟨Reg.geomId + 4, by decide⟩
def alertAt : Fin 4294967296 := ⟨Reg.fltAlert, by decide⟩

theorem witness_sideband : Claims.Served geomIdAt ∧ ¬Claims.Served ringAt ∧ Claims.Served statusAt ∧ early.keeperRuns = false ∧ early.power = true ∧ few.power = true ∧
    few.keeperRuns = true ∧ geomIdAt.val % 8 = 0 ∧ oddAt.val % 8 ≠ 0 ∧ ringAt.val % 8 = 0 ∧ geomIdAt.val ≠ Reg.fltAlert ∧ alertAt.val = Reg.fltAlert ∧
    capAtS.val = Reg.powerCap ∧ geomIdAt.val ≠ Reg.secBootStatus ∧ geomIdAt.val ≠ Reg.hostStatus ∧ ({ few with power := false } : State).power = false := by
  unfold Claims.Served
  decide +kernel

end Sys2Proof.Tests
end

