-- ==== Sys2Proof/Tests/System.lean ====
section
/-! SUPPORT. Tests of the step, of memory's upkeep, of power, supply, clocks and heat, of units and register writes. -/

namespace Sys2Proof.Tests

open Sys2Proof.Machine

set_option Elab.async false

/-! ## The step -/

theorem witness_reset : Claims.Inv State.reset ∧ State.reset.pending = [] := by unfold Claims.Inv; decide +kernel

theorem witness_history : leadsTo (.cellarTimer) State.reset State.reset = true ∧ State.reset.reg Reg.powerTimer = 0 := by decide +kernel

theorem test_step : (match step { few with pending := [.resetNRelease, .cellarTimer] } with | .next t => decide (t = { few with pending := [.cellarTimer] }) | _ => false) = true ∧
    (match step few with | .next t => t.now == few.now + 1 | _ => false) = true := by decide +kernel

theorem witness_idle : few.pending = [] ∧ few.power = true ∧ few.fieldOf Reg.powerStatus 2 0 = 0 := by
  and_intros <;> decide +kernel

/-! ## Memory -/

def scrubbed : State := bare.setReg Reg.memScrub 24

theorem test_scrub : leads (.patrolScrub 0 0 64 1) scrubbed (fun t => t.reg (Reg.memCe 0) == 1) = true ∧
    leads (.patrolScrub 0 0 64 2) scrubbed (fun t => t.bad (dramPlace 0 64) && t.reg (Reg.memUe 0) == 1 &&
      (t.heldFaults.getLast?.map fun f => (f.status, f.kind, f.index)) == some (0xFF, 8, 0)) = true ∧
    leads (.patrolScrub 0 0 64 0) scrubbed (fun t => t.reg (Reg.memClassBytes 3) == 64) = true ∧ leadsTo (.patrolScrub 1 0 64 1) scrubbed scrubbed = true := by
  decide +kernel

/-- A limit of one error; a channel declared failed, its record raised or not. -/
def limited : State := scrubbed.setReg Reg.memErrCfg 1
def broken (noted : Bool) : State := { scrubbed with chanDead := [(0, true)], chanNoted := if noted then [(0, true)] else [] }

theorem witness_scrub : scrubbed.flag Reg.memCtl 2 = true ∧ scrubbed.fieldOf Reg.memScrub 15 0 ≠ 0 ∧ scrubbed.shedLevel = 0 ∧ scrubbed.chanIn 0 0 = true ∧
    scrubbed.failed (dramPlace 0 64) = false ∧ scrubbed.bad (dramPlace 0 64) = false ∧ scrubbed.chanIn 1 0 = false ∧
    ({ scrubbed with ue := [(dramPlace 0 64, true)] } : State).bad (dramPlace 0 64) = true ∧ limited.fieldOf Reg.memErrCfg 7 0 = 1 ∧ limited.reg (Reg.memUe 0) = 0 ∧
    (∀ b ∈ [true, false], (broken b).failed (dramPlace 0 64) = true ∧ Tbl.get false (broken b).chanNoted 0 = b) := by
  decide +kernel

theorem test_scrub_failed : leads (.patrolScrub 0 0 64 0) (broken false) (fun t => t.reg (Reg.memUe 0) == 1 && t.heldFaults.length == 1) = true ∧
    leads (.patrolScrub 0 0 64 0) (broken true) (fun t => t.reg (Reg.memUe 0) == 1 && t.heldFaults.isEmpty) = true ∧
    leads (.patrolScrub 0 0 64 2) limited (fun t => t.flag (Reg.memChanPending 0) 0) = true := by decide +kernel

theorem test_throttle : leads (.stackThrottle 3 104) bare (fun t => t.fieldOf (Reg.memStackStatus 3) 17 16 == 1 && t.fieldOf (Reg.memStackStatus 3) 39 32 == 104) = true ∧
    leads (.stackThrottle 3 104) (bare.setReg (Reg.memStackStatus 3) 0x20000) (fun t => t.fieldOf (Reg.memStackStatus 3) 17 16 == 2) = true ∧
    leads (.stackThrottle 3 92) (bare.setReg (Reg.memStackStatus 3) 0x20000) (fun t => t.fieldOf (Reg.memStackStatus 3) 17 16 == 0) = true := by decide +kernel

theorem test_channel_failed : leads (.channelFailed 0 0) bare (fun t => t.flag (Reg.memChanFailed 0) 0 && t.flag (Reg.memChanPending 0) 0) = true ∧
    leadsTo (.channelFailed 0 1) bare bare = true := by decide +kernel

def spentStack : State := bare.setReg (Reg.memStackStatus 0) 2
theorem test_mapout : leads (.memMapoutReq 0) bare (fun t => t.flag (Reg.memChanPending 0) 0) = true ∧
    leads (.memMapoutReq 0) spentStack (fun t => (t.heldFaults.getLast?.map fun f => f.status) == some 0x15 && !t.flag (Reg.memChanPending 0) 0) = true := by decide +kernel
theorem witness_mapout : bare.flag (Reg.memStackStatus 0) 1 = false ∧ bare.flag (Reg.memStackStatus 0) 2 = false ∧ bare.chanIn 0 0 = true ∧ bare.keeperRuns = true ∧
    bare.flag (Reg.memChanPending 0) 0 = false ∧ spentStack.flag (Reg.memStackStatus 0) 1 = true ∧ spentStack.keeperRuns = true ∧
    bare.flag (Reg.memChanFailed 0) 0 = false ∧ (bare.setReg (Reg.memChanFailed 0) 1).flag (Reg.memChanFailed 0) 0 = true ∧ bare.chanIn 0 1 = false ∧
    State.reset.keeperRuns = false ∧ (bare.setReg (Reg.memChanPending 0) 1).flag (Reg.memChanPending 0) 0 = true := by
  decide +kernel

def ownedBare : State := bare.setFlag Reg.hostJob 63 true
theorem test_placement : leads (.placementWrite false 5) bare (fun t => t.flag Reg.memCtl 0 && t.flag Reg.memCtl 2) = true ∧
    leads (.placementWrite false 1) ownedBare (fun t => !t.flag Reg.memCtl 0 && !t.flag Reg.memCtl 2) = true ∧
    leads (.placementWrite true 1) ownedBare (fun t => t.flag Reg.memCtl 0 && t.reg Reg.secKeeperChanges == 1) = true ∧
    leads (.larderCfgWrite false 0xD123) bare (fun t => t.reg Reg.memLarderCfg == 0x1123) = true ∧ leadsTo (.larderCfgWrite false 0) ownedBare ownedBare = true ∧
    leads (.larderCfgWrite true 0x1112) ownedBare (fun t => t.reg Reg.memLarderCfg == 0x1112 && t.reg Reg.secKeeperChanges == 1) = true := by decide +kernel
theorem witness_owned : ownedBare.owned = true ∧ bare.owned = false ∧ ownedBare.keeperRuns = true ∧ State.reset.keeperRuns = false ∧
    (∀ m < 4, bits 0xD123 (4 * m + 3) (4 * m) = bare.fieldOf Reg.memLarderCfg (4 * m + 3) (4 * m) ∨ m ≠ 2) ∧ bits 0xD123 15 12 > 12 ∧
    bits 0xD123 3 0 ≠ bare.fieldOf Reg.memLarderCfg 3 0 := by
  decide +kernel

/-! ## Power -/

theorem test_power_request : leads .powerReqNap few (fun t => t.entry == some 2 && t.fieldOf Reg.powerStatus 2 0 == 5) = true ∧
    leads .powerReqDeep (few.setFlag Reg.hostJob 63 true) (fun t => t.flag Reg.powerStatus 22 && t.fieldOf Reg.powerStatus 2 0 == 0) = true ∧
    leads .powerReqDeep { few with entry := some 2 } (fun t => t.heldReq == some 3 && t.entry == some 2) = true := by decide +kernel
/-- In each state; with a job; with a change under way; in protected off that may not be left. -/
def inState (x : Nat) : State := few.setReg Reg.powerStatus x
def shedOff : State := { inState 4 with tripped := 1 }

theorem witness_power_request : (∀ x < 7, Claims.power (inState x) = x ∧ (inState x).entry = none ∧ (inState x).keeperRuns = true ∧ (inState x).owned = false ∧
      (inState x).anyBusy = false ∧ (inState x).shedLevel = 0 ∧ (inState x).flag Reg.fltLatch 0 = false ∧ (inState x).offOver = true) ∧
    (few.setFlag Reg.hostJob 63 true).owned = true ∧ State.reset.keeperRuns = false ∧ Claims.power shedOff = 4 ∧ shedOff.offOver = false := by
  unfold Claims.power
  decide +kernel

def entering (x : Nat) : State := { few.setReg Reg.powerStatus 5 with
  entry := some x, mem := [(sramPlace 0x18000000000, 1), (sramPlace 0x19000000000, 2)] }
set_option maxRecDepth 100000 in
theorem test_entry : leads .stateEntryQuiet (entering 2) (fun t => t.fieldOf Reg.powerStatus 2 0 == 2 && t.entry == none &&
      decide (t.mem = [(sramPlace 0x18000000000, 1)])) = true ∧
    leads .stateEntryQuiet (entering 3) (fun t => t.fieldOf Reg.powerStatus 2 0 == 3 && !t.ready && decide (t.mem = [])) = true ∧
    leads .stateEntryQuiet { entering 3 with abortDue := true } (fun t => t.fieldOf Reg.powerStatus 2 0 == 0 && t.reg Reg.powerAborts == 1 && t.mem.length == 2) = true := by
  decide +kernel
theorem witness_entry : (∀ x ∈ [2, 3], ∀ h ∈ [none, some 0], ∀ b ∈ [true, false],
      let s : State := { entering x with heldReq := h, abortDue := b }
      s.entry = some x ∧ s.quiet = true ∧ s.abortDue = b ∧ s.heldReq = h) ∧ few.entry = none ∧
    ({ entering 3 with reqs := [⟨⟨0, 0, 0, 0, 0, 0, 0, 0, 0, false, false, false, false, 0, 0, 0, 0, 0, [], 0⟩, .slot 0, false, true, false⟩] } : State).quiet = false := by
  decide +kernel

/-- In NAP, with the timer armed; waking, with the root PLL locked; ready to be idle. -/
def napped : State := { few.setReg Reg.powerStatus 2 with mem := [(sramPlace 0x18000000000, 1)] }.setFlag Reg.powerTimer 63 true
def waking : State := few.setReg Reg.powerStatus 6
def restful : State := { few.setReg Reg.powerCtl 0x10005 with sync := { State.reset.sync with events := [(5, true)] } }
theorem test_wakes : leads .cellarTimer napped (fun t => t.fieldOf Reg.powerStatus 2 0 == 6 && t.fieldOf Reg.powerStatus 31 24 == 5 && t.reg Reg.powerWakes == 1) = true ∧
    leads .i3cPrivateWrite napped (fun t => t.fieldOf Reg.powerStatus 31 24 == 7) = true ∧ leads .powerReqActive napped (fun t => t.fieldOf Reg.powerStatus 31 24 == 6) = true ∧
    leads (.wakeComplete [] []) waking (fun t => t.fieldOf Reg.powerStatus 2 0 == 0) = true ∧
    leads .idleEntry restful (fun t => t.fieldOf Reg.powerStatus 2 0 == 1) = true ∧ leadsTo .idleEntry few few = true := by decide +kernel
/-- A wake from DEEP, in which stack 0 is in the table; one in which a request of NAP is held. -/
def deepWaking : State := { (bare.setReg Reg.powerStatus 6).setReg Reg.hostStatus 2 with mem := [(sramPlace 0x18000000000, 1)] }
def heldNap : State := { waking with heldReq := some 2 }

theorem witness_wakes : napped.entry = none ∧ Claims.power napped = 2 ∧ napped.flag Reg.powerTimer 63 = true ∧ (entering 2).entry = some 2 ∧
    ((entering 2).setFlag Reg.powerTimer 63 true).flag Reg.powerTimer 63 = true ∧ few.flag Reg.powerTimer 63 = false ∧
    (∀ s ∈ [waking, deepWaking, heldNap], Claims.power s = 6 ∧ s.flag Reg.clkStatus 0 = true) ∧ waking.heldReq = none ∧ waking.ready = true ∧
    deepWaking.heldReq = none ∧ deepWaking.ready = false ∧ deepWaking.flag Reg.geomStacks 0 = true ∧ deepWaking.flag Reg.geomStacks 1 = false ∧
    heldNap.ready = true ∧ heldNap.owned = false ∧ heldNap.anyBusy = false ∧ heldNap.shedLevel = 0 ∧ heldNap.flag Reg.fltLatch 0 = false ∧
    restful.flag Reg.powerCtl 16 = true ∧ restful.sync.event (restful.fieldOf Reg.powerCtl 9 0) = true ∧ Claims.power restful = 0 ∧ restful.entry = none ∧
    restful.cores = [] := by
  unfold Claims.power
  decide +kernel

/-! ## Supply, clocks, heat -/

set_option maxRecDepth 100000 in
theorem test_shed_trip : leads (.shedTrip 2) few (fun t => t.shedLevel == 1 && t.fieldOf Reg.powerStatus 10 8 == 1 && t.reg (Reg.powerShedCount 0) == 1) = true ∧
    leads (.shedTrip 4) { few with tripped := 15 } (fun t => t.fieldOf Reg.powerStatus 2 0 == 4 && !t.ready) = true ∧
    leads (.shedClear 2) { few with tripped := 4 } (fun t => t.shedLevel == 0) = true := by decide +kernel
/-- In NAP and in DEEP, at level 1; protected off at levels 1 and 2. -/
def shedIn (x n : Nat) : State := { inState x with tripped := n }

theorem witness_shed : bit few.tripped 2 = false ∧ few.shedLevel < 4 ∧ (shedIn 0 15).shedLevel = 4 ∧ bit (shedIn 0 15).tripped 4 = false ∧
    bit (shedIn 0 4).tripped 2 = true ∧ (∀ x < 6, ∀ n ∈ [4, 12], (shedIn x n).entry = none ∧ (shedIn x n).wakeHeld = none ∧ Claims.power (shedIn x n) = x ∧
      (shedIn x n).tooHot = false) ∧ (shedIn 4 4).shedLevel = 1 ∧ (shedIn 4 12).shedLevel = 2 ∧ ({ shedIn 4 12 with wakeHeld := some 6 } : State).wakeHeld = some 6 ∧
    (few.setReg Reg.fltLatch 1).flag Reg.fltLatch 0 = true ∧ few.flag Reg.fltLatch 0 = false := by
  unfold Claims.power
  decide +kernel

theorem test_input : leads (.inputSample 12 345 700) { few with energy := 99500 } (fun t => decide (t.inputs = [(12, 345, 700)]) && t.reg Reg.powerEnergy == 1) = true := by
  decide +kernel

/-- Two samples whose averages are whole numbers. -/
theorem witness_input : (([(12, 345, 700), (14, 355, 702)] : List (Nat × Nat × Nat)).map fun x => x.1).sum = 2 * 13 ∧ ([345, 355] : List Nat).sum = 2 * 350 ∧
    ([700, 702] : List Nat).sum = 2 * 701 := by decide

/-- The cap is 4,800 W, as after reset: above it, and far below it. -/
def drawing (p : Nat) : State := { few with inputs := [(0, 0, p)], capStep := if p < 4800 then 2 else 0, capBelow := if p < 4800 then 9 else 0 }
theorem test_cap : leads .capCheck (drawing 5000) (fun t => t.capStep == 1 && t.reg Reg.powerCapSteps == 1) = true ∧
    leads .capCheck { drawing 5000 with capStep := 4 } (fun t => t.capStep == 4 && t.flag Reg.powerStatus 21) = true ∧
    leads .capCheck (drawing 1000) (fun t => t.capStep == 1) = true := by decide +kernel
theorem witness_cap : few.fieldOf Reg.powerCap 12 0 = 4800 ∧ few.fieldOf Reg.powerCap 23 16 = 1 ∧ (drawing 5000).slower 0 = 1 ∧ (drawing 5000).slower 4 = 4 ∧
    (drawing 1000).faster 2 = 1 := by
  and_intros <;> decide +kernel

/-- Telemetry is on, in a ring of 16 records at 0x10000 of host memory, empty or full. -/
def reporting (head : Nat) : State := withRegs few [(Reg.telemCfg, 2 ^ 63 + 4), (Reg.powerCtl, 2 ^ 48), (Reg.telemBase, 0x10000), (Reg.telemHead, head)]
theorem test_telemetry : leads .telemetryRecord (reporting 0) (fun t => t.reg Reg.telemTail == 1 && t.tseq == 1) = true ∧
    leads .telemetryRecord (reporting 1) (fun t => t.reg Reg.telemTail == 0 && t.reg Reg.telemLost == 1 && t.tlost == 1) = true ∧ leadsTo .telemetryRecord few few = true := by
  decide +kernel
theorem witness_telemetry : (reporting 0).flag Reg.telemCfg 63 = true ∧ (reporting 0).fieldOf Reg.powerCtl 63 48 ≠ 0 ∧ (reporting 0).shedLevel = 0 ∧ (reporting 0).linkUp = true ∧
    (reporting 0).ringFree Reg.telemCfg Reg.telemTail Reg.telemHead = true ∧ (reporting 1).ringFree Reg.telemCfg Reg.telemTail Reg.telemHead = false := by
  and_intros <;> decide +kernel

def temps (x : Fin 256) : List (Fin 256) := x :: List.replicate 99 40
set_option maxRecDepth 100000 in
theorem test_thermal : leads (.thermalSample (temps 120)) few (fun t => t.fieldOf Reg.powerStatus 2 0 == 4 && t.tooHot) = true := by decide +kernel
theorem witness_thermal : (temps 90).length = 100 ∧ few.temps = [] ∧ few.fieldOf Reg.thermCfg 15 8 = 105 ∧ few.fieldOf Reg.thermCfg 23 16 = 115 ∧
    few.fieldOf Reg.powerStatus 2 0 ≠ 4 ∧ few.wakeHeld = none ∧ (temps 120).any (fun x => decide (115 < x.val)) = true ∧ (temps 110).all (fun x => decide (x.val ≤ 115)) = true ∧
    (temps 110).any (fun x => decide (105 < x.val)) = true ∧ (∀ x ∈ temps 90, x.val ≤ 105) ∧ few.alarmed = false ∧ few.entry = none ∧ [40].length ≠ 100 := by
  decide +kernel

def warm : State := { few.setReg (Reg.thermC 7) 100 with thermStep := 1 }
theorem test_thermal_step : leads .thermalStep warm (fun t => t.thermStep == 2) = true ∧ leads .thermalStep { few with thermStep := 1 } (fun t => t.thermStep == 0) = true := by
  decide +kernel
/-- Hot enough for the alarm, which has been raised. -/
def alarmedAt : State := { few.setReg (Reg.thermC 7) 110 with alarmed := true }
theorem witness_thermal_step : warm.wakeHeld = none ∧ alarmedAt.fieldOf Reg.thermCfg 15 8 < alarmedAt.hottest.2 ∧
    alarmedAt.hottest.2 ≤ alarmedAt.fieldOf Reg.thermCfg 23 16 ∧ alarmedAt.alarmed = true ∧ warm.hottest.2 ≤ warm.fieldOf Reg.thermCfg 23 16 ∧ warm.hottest.2 ≤ warm.fieldOf Reg.thermCfg 15 8 ∧ warm.fieldOf Reg.thermCfg 7 0 < warm.hottest.2 := by
  and_intros <;> decide +kernel

theorem test_clocks : leads (.coreStepWrite 0x102) few (fun t => t.fieldOf Reg.clkCtl 2 0 == 2 && t.flag Reg.clkCtl 8) = true ∧
    leads (.coreStepWrite 7) few (fun t => t.fieldOf Reg.clkCtl 2 0 == 0) = true ∧ leads (.coreSrc 0) few (fun t => t.flag Reg.powerStatus 20) = true ∧
    leads .rootPllLock { few.setReg Reg.clkStatus 4 with boot := 8 } (fun t => t.flag Reg.clkStatus 0 && t.flag Reg.powerStatus 20) = true ∧
    leads .refclkLoss few (fun t => !t.flag Reg.clkStatus 2) = true ∧ leads .refclkReturn few (fun t => t.flag Reg.clkStatus 2) = true := by decide +kernel
theorem witness_clocks : (few.setReg Reg.clkStatus 4).flag Reg.clkStatus 0 = false ∧ few.powered = true ∧ few.flag Reg.clkStatus 0 = true ∧
    few.flag Reg.fltLatch 0 = false ∧ (few.setReg Reg.clkStatus 6).flag Reg.clkStatus 1 = true ∧ few.flag Reg.clkStatus 1 = false ∧
    (few.setReg Reg.fltLatch 1).flag Reg.fltLatch 0 = true ∧ few.power = true ∧ ({ few with power := false } : State).power = false := by
  decide +kernel

set_option maxRecDepth 100000 in
theorem test_latch : leads (.heartbeatMiss 7) few (fun t => t.flag Reg.fltLatch 0 && t.flag Reg.fltLatch 2 && t.flag Reg.hostStatus 4) = true ∧
    leads (.lockstepMismatch 7) few (fun t => t.flag Reg.fltLatch 1) = true ∧ leads .rootLockLoss few (fun t => t.flag Reg.fltLatch 3 && t.fieldOf Reg.powerStatus 2 0 == 4) = true ∧
    leadsTo (.heartbeatMiss 7) (few.setReg Reg.fltLatch 1) (few.setReg Reg.fltLatch 1) = true := by decide +kernel

theorem test_hot_swap : leads .hotSwapOpen few (fun t => !t.power) = true ∧ leads .powerUp { few with power := false } (fun t => t.power && t.boot == 0) = true ∧
    leadsTo .powerUp few few = true := by decide +kernel

end Sys2Proof.Tests
end

