-- ==== Sys2Proof/Tests/Tiles.lean ====
section
/-! SUPPORT. Tests of tile handles, the matrix array, the vector engine, SCALE instructions, semaphores and events. -/

namespace Sys2Proof.Tests

open Sys2Proof.Machine

set_option Elab.async false

/-- An FP32 handle of `r` rows and `c` columns at `o` of core 3's scratch, in pitch 128. -/
def h32 (st : HState) (o r c : Nat) : Handle := ⟨st, scratchBase 3 + o, r, c, 128, .fp32, .none, 0, false⟩

/-- Core 3 runs word `w`: t1, t2 and t3 are single elements 3.0, −2.0 and 0.5, t4 is one to write; a0, a1 name pinned memory and scratch. -/
def tiles (w : Nat) : State :=
  let s := running bare 3 [w, 0, 0] [(5, 7), (6, 0x0000008000000000), (7, 128), (32, at_ 64), (33, home + scratchBase 3 + 0x1000)]
  let m := (sramPlace (pin + 64), 0x40) :: cells (scratchBase 3) [(2, 0x40), (3, 0x40), (0x83, 0xC0), (0x103, 0x3F)]
  let s := { s with mem := m }
  s.setCore 3 { s.core 3 with handles := [(1, h32 .resident 0 1 1), (2, h32 .resident 0x80 1 1), (3, h32 .resident 0x100 1 1), (4, h32 .allocated 0x180 1 1)] }

/-- TDEF t9 on a1 with shape s6: one row, one column, pitch 128, FP32. -/
def wTdef (f1 : Nat) : Nat := enc 2 8 f1 33 6 0 (EType.fp32.code)

theorem test_tdef : leads (.tdef 3) (tiles (wTdef 9)) (fun t => (t.core 3).handle 9 == h32 .allocated 0x1000 1 1 && (t.core 3).pc == 1) = true ∧
    leadsTo (.tdef 3) (tiles (wTdef 1)) ((tiles (wTdef 1)).progFault 3 2 (wTdef 1)) = true := by decide +kernel

theorem witness_tdef : Claims.Issues (tiles (wTdef 9)) 3 (wTdef 9) ∧ Claims.Opcode (wTdef 9) 2 8 ∧ bits (wTdef 9) 47 42 = 33 ∧
    ((tiles (wTdef 9)).core 3).handle 9 = Handle.none ∧
    tdefHandle 3 0 ((tiles (wTdef 9)).flag (Reg.cisStatus 3) 1) ((tiles (wTdef 9)).isLocal (((tiles (wTdef 9)).core 3).get 33)) true
      (aOff (((tiles (wTdef 9)).core 3).get 33)) (((tiles (wTdef 9)).core 3).get 6) 0 0 .fp32 .none = some (h32 .allocated 0x1000 1 1) := by
  and_intros <;> decide +kernel

/-- The same with a TLOAD into t1 outstanding. -/
def busy1 (w : Nat) : State :=
  let s := tiles w
  s.setCore 3 { s.core 3 with outs := [{ accAt .tload 0 0 0 0 with num := 1, h := h32 .loading 0 1 1 }] }

theorem test_trel : leads (.trel 3) (tiles (enc 2 9 1 0 0 0 0)) (fun t => (t.core 3).handle 1 == Handle.none && (t.core 3).pc == 1) = true ∧
    leads (.trel 3) (busy1 (enc 2 9 1 0 0 0 0)) (fun t => ((t.core 3).handle 1).st == .resident && (t.core 3).pc == 0) = true ∧
    ((busy1 (enc 2 9 1 0 0 0 0)).core 3).busy 1 = true := by decide +kernel

/-- TLOAD t4 from a0, TSTORE t1 to a0, far pitch s7. -/
def wTload : Nat := enc 2 0xA 4 32 7 0 0
def wTstore : Nat := enc 2 0xB 1 32 7 0 0

theorem test_tmove : leads (.tload 3) (tiles wTload) (fun t => ((t.core 3).handle 4).st == .loading && (t.core 3).pc == 1 &&
      (t.core 3).outs.map (fun a => (a.kind, a.addr, a.num)) == [(.tload, at_ 64, 4)]) = true ∧
    leads (.tstore 3) (tiles wTstore) (fun t => ((t.core 3).handle 1).st == .resident && (t.core 3).pc == 1 &&
      (t.core 3).outs.map (fun a => (a.kind, a.addr, a.num)) == [(.tstore, at_ 64, 1)]) = true ∧
    leadsTo (.tload 3) ((tiles wTload).setReg (Reg.owinRange 0) 0) (((tiles wTload).setReg (Reg.owinRange 0) 0).progFault 3 5 wTload) = true := by decide +kernel

theorem witness_tmove : Claims.Issues (tiles wTload) 3 wTload ∧ tmoveOk wTload = true ∧ Claims.Opcode wTload 2 0xA ∧
    ((tiles wTload).core 3).writable 4 = .ok ∧ (tiles wTload).isLocal (((tiles wTload).core 3).get 32) = true ∧
    Claims.Issues (tiles wTstore) 3 wTstore ∧ tmoveOk wTstore = true ∧ ((tiles wTstore).core 3).readable 1 = .ok := by
  and_intros <;> first | decide +kernel | exact ok_of (by decide +kernel)

/-- A TLOAD of four bytes into t4 is outstanding. -/
def loading4 : State :=
  let s := tiles 0
  s.setCore 3 (({ s.core 3 with
    outs := [⟨0, .tload, at_ 64, 0, 4, 0, 0, 0, h32 .allocated 0x180 1 1, 128, 0, false, 1, [], false, false, 0, 0⟩], nextId := 1 }).setHandle 4 (h32 .loading 0x180 1 1))

theorem test_tload_complete : leads (.tloadComplete 3 4) loading4 (fun t => t.memNat (scratchBase 3 + 0x180) 4 == 0x40 &&
    ((t.core 3).handle 4).st == .resident && (t.core 3).outs == []) = true := by decide +kernel

theorem witness_tload_complete : Claims.OneToOne loading4 ∧ Claims.Sound loading4 (aOff (at_ 64)) 4 ∧ Claims.Sound loading4 (scratchBase 3 + 0x180) 4 ∧
    ((loading4.core 3).handle 4).st = .loading ∧ Claims.OnStacks loading4 ∧ (∀ i < 4, loading4.coreCut 3 (aOff (at_ 64) + i) = false) ∧
    ((loading4.core 3).outs.map fun a => (loading4.core 3).mustWait a) = [false] := by
  and_intros <;> first | decide +kernel | exact onStacks_of (by decide +kernel) | exact oneToOne_of (by decide +kernel) | exact sound_of (by decide +kernel)

theorem test_tzero : leads (.tzero 3) (tiles (enc 2 0xC 4 0 0 0 0)) (fun t => t.memNat (scratchBase 3 + 0x180) 4 == 0 &&
    ((t.core 3).handle 4).st == .resident && (t.core 3).pc == 1) = true := by decide +kernel

theorem test_twait : leads (.twait 3) (tiles (enc 6 9 1 0 0 0 0)) (fun t => (t.core 3).pc == 1) = true ∧
    leads (.twait 3) (busy1 (enc 6 9 1 0 0 0 0)) (fun t => (t.core 3).pc == 0 && (t.core 3).waitAt == some (WaitFor.sync, 0)) = true := by decide +kernel

theorem test_fence : leads (.fence 3) (tiles (enc 6 8 0 0 0 0 0)) (fun t => (t.core 3).pc == 1) = true ∧
    leadsTo (.fence 3) (busy1 (enc 6 8 0 0 0 0 0)) (busy1 (enc 6 8 0 0 0 0 0)) = true := by decide +kernel

theorem witness_waits : Claims.Issues (tiles (enc 6 9 1 0 0 0 0)) 3 (enc 6 9 1 0 0 0 0) ∧ syncOk (enc 6 9 1 0 0 0 0) = true ∧
    Claims.Opcode (enc 6 9 1 0 0 0 0) 6 9 ∧ ((tiles 0).core 3).busy 1 = false := by
  and_intros <;> decide +kernel

/-- Core 3 waits for a tile of a LAUNCH of 3 tiles, of which 2 are taken. -/
def popping (taken : Nat) : State :=
  let s := tiles 0
  let s := s.setCore 3 { s.core 3 with outs := [{ accAt .tqpop 0 0 0 0 with num := 9 }], pend := [9] }
  { s with slots := [(0, { Slot.none with words := [1, 0, 0, 0, 2 ^ 15 + 3 * 2 ^ 39] })], runs := [(0, { LaunchRun.none with tile := taken })] }

theorem test_tqpop : leads (.tqpop 3) (tiles (enc 6 0xC 9 0 0 0 0)) (fun t => (t.core 3).pend == [9] && (t.core 3).pc == 1) = true ∧
    leads (.pendingValueArrives 3 0) (popping 2) (fun t => r3 t 9 == 2 && (t.lrun 0).tile == 3) = true ∧
    leads (.pendingValueArrives 3 0) (popping 3) (fun t => r3 t 9 == 2 ^ 64 - 1 && t.reg (Reg.coreTqPops 3) == 1) = true := by decide +kernel

/-! ## Matrix array -/

/-- MMA t4 = t1 × t2 with FP32 result. -/
def wMma (acc : Nat) : Nat := enc 3 0 4 1 2 0 (acc * 2 ^ 33 + EType.fp32.code * 2 ^ 28)

/-- t1 and t2 hold BF16 3.0 and −2.0. -/
def mats (w : Nat) : State :=
  let s := tiles w
  let hb := fun o => { h32 .resident o 1 1 with ty := EType.bf16 }
  { s.setCore 3 { s.core 3 with handles := [(1, hb 2), (2, hb 0x82), (4, h32 .allocated 0x180 1 1)] } with
    mem := cells (scratchBase 3) [(2, 0x40), (3, 0x40), (0x83, 0xC0)] }

/-- The MMA is in the array. -/
def inArray3 : State :=
  match exec (.mma 3) (mats (wMma 0)) with | .next t => t | _ => bare

theorem test_mma : leads (.mma 3) (mats (wMma 0)) (fun t => (t.core 3).mxq.map (·.word) == [wMma 0] && (t.core 3).pc == 1 && (t.core 3).mxn == 1) = true ∧
    leads (.mma 3) ((mats (wMma 0)).setCore 3 { (mats (wMma 0)).core 3 with hold := true }) (fun t => (t.core 3).mxq == [] && (t.core 3).pc == 0) = true := by
  decide +kernel

theorem witness_mma : Claims.Issues (mats (wMma 0)) 3 (wMma 0) ∧ Claims.Opcode (wMma 0) 3 0 ∧
    (mats (wMma 0)).mmaCause 3 (wMma 0) (((mats (wMma 0)).core 3).handle 1) (((mats (wMma 0)).core 3).handle 2) (((mats (wMma 0)).core 3).handle 4) = none ∧
    ((mats (wMma 0)).core 3).writable 4 = .ok ∧ ((mats (wMma 0)).core 3).readable 1 = .ok ∧ (mats (wMma 0)).mxHeld 3 = false ∧
    ((mats (wMma 0)).core 3).poolUsed + mxPool (wMma 0) (((mats (wMma 0)).core 3).handle 1) (((mats (wMma 0)).core 3).handle 2) ≤ 0 * 0x40000 := by
  and_intros <;> first | decide +kernel | exact ok_of (by decide +kernel)

/-- 3.0 × −2.0 = −6.0. -/
theorem test_mx_complete : leads (.mxComplete 3) inArray3 (fun t => t.memNat (scratchBase 3 + 0x180) 4 == 0xC0C00000 && (t.core 3).mxq == [] &&
    ((t.core 3).handle 4).st == .resident && t.reg (Reg.arrayMxDone 3) == 1) = true := by decide +kernel

theorem witness_mx_complete : (inArray3.core 3).mxq.map (fun f => (f.sample, bits f.word 24 23)) = [(none, 0)] ∧ Claims.OneToOne inArray3 ∧
    Claims.Sound inArray3 (scratchBase 3 + 0x180) 4 ∧ Claims.OneFp32 3 (h32 .allocated 0x180 1 1) ∧
    inArray3.handleBad (h32 .allocated 0x180 1 1) = false := by
  and_intros <;> first | decide +kernel | exact issues_of (by decide +kernel) | exact oneToOne_of (by decide +kernel) | exact sound_of (by decide +kernel)

/-- 33 products: the sum of the first 32, rounded, and the last (R111). -/
theorem test_mx_groups : mxRoot (List.replicate 3 (.ofInt 5)) = flv (.ofInt 15) ∧
    mxRoot (List.replicate 32 (.ofInt 1) ++ [.ofInt (2 ^ 24)]) = flv ((flv (.ofInt 32)).add (flv (.ofInt (2 ^ 24)))) := by decide +kernel

/-! ## Vector engine -/

/-- A VX word: t4 = op(t1, t2, t3). -/
def wVx (op : Nat) : Nat := enc 4 op 4 1 2 0 (3 * 2 ^ 30)

/-- The engine holds the instruction. -/
def inEngine (op : Nat) : State :=
  { (tiles 0).setCore 3 { (tiles 0).core 3 with
      vxq := [⟨wVx op, some (4, h32 .allocated 0x180 1 1), some (1, h32 .resident 0 1 1), if vxUsesB op then some (2, h32 .resident 0x80 1 1) else none,
        if vxUsesC op 0 then some (3, h32 .resident 0x100 1 1) else none, 0, 0, 0, 0, none, false, 0, none, 0, 0, 0⟩] } with
    mem := cells (scratchBase 3) [(2, 0x40), (3, 0x40), (0x83, 0xC0), (0x103, 0x3F)] }

theorem witness_vx_enter : ∀ e ∈ Claims.vxOps.filter (fun e => e.1 ∉ [0x06, 0x20]), e.1 ≤ 0x18 → vxScalarOnly e.1 = false → e.1 ≠ 0xD →
    issuesB (tiles (wVx e.1)) 3 (wVx e.1) = true ∧ vxWordOk (wVx e.1) = true ∧
    (tiles (wVx e.1)).vxCause 3 (wVx e.1) 0 (h32 .resident 0 1 1) (h32 .resident 0x80 1 1) (h32 .resident 0x100 1 1) (h32 .allocated 0x180 1 1) = none ∧
    leads (e.2 3) (tiles (wVx e.1)) (fun t => (t.core 3).vxq.map (·.word) == [wVx e.1] && (t.core 3).pc == 1) = true := by decide +kernel

/-- 3.0 and −2.0 (and 0.5): sum, difference, product, product plus 0.5, max, min, maxnum, minnum, abs, neg, select, quotient. -/
theorem test_vx : ([(0x00, 0x3F800000), (0x01, 0x40A00000), (0x02, 0xC0C00000), (0x03, 0xC0B00000), (0x04, 0x40400000), (0x05, 0xC0000000),
      (0x06, 0x40400000), (0x07, 0xC0000000), (0x08, 0x40400000), (0x09, 0xC0400000), (0x0C, 0x40400000), (0x17, 0xBFC00000), (0x18, 0x3FDDB3D7)].all
    fun e => leads (.vxComplete 3) (inEngine e.1) fun t => t.memNat (scratchBase 3 + 0x180) 4 == e.2 && (t.core 3).vxq == [] &&
      ((t.core 3).handle 4).st == .resident) = true := by decide +kernel

theorem witness_vx : Claims.OneToOne (inEngine 3) ∧ Claims.Sound (inEngine 3) (scratchBase 3 + 0x180) 4 ∧ Claims.Opcode (wVx 3) 4 3 ∧ vxMod (wVx 3) = 0 ∧
    (inEngine 3).handleBad (h32 .resident 0 1 1) = false ∧ Claims.OneFp32 3 (h32 .resident 0x100 1 1) := by
  and_intros <;> first | decide +kernel | exact issues_of (by decide +kernel) | exact oneToOne_of (by decide +kernel) | exact sound_of (by decide +kernel)

/-! ## SCALE -/

/-- SAMAX and SHIST on t2, SQUANT and SCONV into t4, with history 5. -/
def wScale (op : Nat) : Nat := enc 5 op 4 2 9 0 (5 * 2 ^ 26)

/-- The engine holds SAMAX or SHIST. -/
def scaling (op : Nat) : State :=
  { (tiles 0).setCore 3 { (tiles 0).core 3 with
      vxq := [⟨wScale op, none, some (2, h32 .resident 0x80 1 1), none, none, 0, 0, 0, 0, none, false, 0, none, 0, 0, 0⟩], pend := [9] } with
    mem := cells (scratchBase 3) [(0x83, 0xC0)] }

theorem test_scale_enters : ∀ e ∈ [(1, Instr.samax), (2, Instr.shist)], issuesB (tiles (wScale e.1)) 3 (wScale e.1) = true ∧
    scaleWordOk (wScale e.1) = true ∧ leads (e.2 3) (tiles (wScale e.1)) (fun t => (t.core 3).vxq.map (·.word) == [wScale e.1] &&
      (t.core 3).pend == (if e.1 = 1 then [9] else [])) = true := by decide +kernel

/-- t4 as an E4M3 handle in MX blocks, its scales behind it. -/
def quant (op : Nat) : State :=
  let s := tiles (wScale op)
  s.setCore 3 ((s.core 3).setHandle 4 { h32 .allocated 0x180 1 1 with ty := .e4m3, block := .mx, scale := scratchBase 3 + 0x200 })

theorem test_squant_enters : ∀ e ∈ [(0, Instr.squant), (3, Instr.sconv)], leads (e.2 3) (quant e.1) (fun t => (t.core 3).vxq.map (·.td.isSome) == [true] &&
    (t.core 3).pend == (if e.1 = 3 then [9] else [])) = true := by decide +kernel

theorem witness_scale : (quant 3).scaleCause 3 3 (h32 .resident 0x80 1 1) (((quant 3).core 3).handle 4) = none ∧ ((quant 3).core 3).writable 4 = .ok ∧
    (scaling 1).handleBad (h32 .resident 0x80 1 1) = false := by
  and_intros <;> first | decide +kernel | exact ok_of (by decide +kernel)

theorem test_samax : leads (.vxComplete 3) (scaling 1) (fun t => r3 t 9 == 0x40000000 && (t.core 3).pend == [] && (t.core 3).vxq == []) = true := by
  decide +kernel

theorem test_shist : leads (.vxComplete 3) (scaling 2) (fun t => (t.hist 5).acc == 0x40000000 && (t.hist 5).seen && (t.hist 5).nonfin == 0) = true := by
  decide +kernel

/-! ## Semaphores and events -/

/-- A SYNC word on object 17, count 2. -/
def wSync (op : Nat) : Nat := enc 6 op 9 0 0 0 (17 * 2 ^ 16 + 2)

/-- One operation is on its way to the Larder; semaphore 17 counts `n`. -/
def syncing (kind : SKind) (n : Nat) (ev : Bool) : State :=
  let s := tiles 0
  { s.setCore 3 { s.core 3 with syncs := [⟨kind, 17, 2, 9, 0⟩], inSync := true } with
    sync := ⟨if n = 0 then [] else [(17, BitVec.ofNat 32 n)], if ev then [(17, true)] else [], [], []⟩ }

theorem test_sync_issue : ∀ e ∈ Claims.syncOps, issuesB (tiles (wSync e.1)) 3 (wSync e.1) = true ∧ syncOk (wSync e.1) = true ∧
    leads (e.2.1 3) (tiles (wSync e.1)) (fun t => (t.core 3).syncs == [⟨e.2.2.1, 17, 2, 9, 0⟩] && (t.core 3).inSync == e.2.2.2.2.2 && (t.core 3).pc == 1) = true ∧
    leadsTo (e.2.1 3) (tiles (enc 6 e.1 9 5 0 1 2) |>.setCore 3 (((tiles (enc 6 e.1 9 5 0 1 2)).core 3).put 5 e.2.2.2.1))
      ((tiles (enc 6 e.1 9 5 0 1 2) |>.setCore 3 (((tiles (enc 6 e.1 9 5 0 1 2)).core 3).put 5 e.2.2.2.1)).progFault 3 6 (enc 6 e.1 9 5 0 1 2)) = true := by
  decide +kernel

theorem test_sync_apply :
    leads (.syncOpApply 3) (syncing .semsig 0xFFFFFFFE false) (fun t => t.sync.sem 17 == 0xFFFFFFFF && (t.core 3).syncs == []) = true ∧
    leads (.syncOpApply 3) (syncing .semtry 2 false) (fun t => t.sync.sem 17 == 0 && r3 t 9 == 1) = true ∧
    leads (.syncOpApply 3) (syncing .semtry 1 false) (fun t => t.sync.sem 17 == 1 && r3 t 9 == 0) = true ∧
    leads (.syncOpApply 3) (syncing .semwait 2 false) (fun t => t.sync.sem 17 == 0 && !(t.core 3).inSync) = true ∧
    leads (.syncOpApply 3) (syncing .semwait 1 false) (fun t => t.sync.sem 17 == 1 && t.sync.waiters 17 == [.core 3 2] && (t.core 3).inSync) = true ∧
    leads (.syncOpApply 3) (syncing .evset 1 false) (fun t => t.sync.event 17) = true ∧
    leads (.syncOpApply 3) (syncing .evclr 1 true) (fun t => !t.sync.event 17) = true ∧
    leads (.syncOpApply 3) (syncing .evwait 1 true) (fun t => !(t.core 3).inSync) = true ∧
    leads (.syncOpApply 3) (syncing .evwait 1 false) (fun t => Tbl.get [] t.sync.evQ 17 == [.core 3 0]) = true := by decide +kernel

end Sys2Proof.Tests
end

section
/-! Words of 64 bits against the model's numbers: sign extension, wrapping, and the scalar operations (R135). -/

namespace Sys2Proof.Machine

theorem bit_eq_testBit (w i : Nat) : bit w i = w.testBit i := by
  rw [Nat.testBit_eq_decide_div_mod_eq, ← Nat.shiftRight_eq_div_pow]
  rfl

/-- The model's sign extension of a number below 2^n is the signed value of the word it stands for. -/
theorem sext_toNat {n : Nat} (x : BitVec n) : sext n x.toNat = x.toInt := by
  unfold sext
  rw [Nat.mod_eq_of_lt x.isLt, BitVec.toInt_eq_msb_cond, BitVec.msb_eq_getLsbD_last, bit_eq_testBit, BitVec.testBit_toNat]

theorem wrapI_eq_ofInt (n : Nat) (x : Int) : wrapI n x = (BitVec.ofInt n x).toNat := (BitVec.toNat_ofInt x).symm

theorem sext_bits31 (w : Nat) : sext 32 (bits w 31 0) = (BitVec.ofNat 32 w).toInt := by
  rw [← sext_toNat, BitVec.toNat_ofNat]
  rfl

theorem imm64_eq_immWord (w : Nat) : imm64 w = (Claims.immWord w).toNat := by
  unfold imm64
  rw [wrapI_eq_ofInt, sext_bits31]
  rfl

theorem Core.get_lt (c : Core) (f : Nat) : c.get f < 2 ^ 64 := by
  unfold Core.get
  split
  · exact Nat.two_pow_pos 64
  · exact BitVec.isLt _

theorem Core.toNat_word (c : Core) (f : Nat) : (Claims.word c f).toNat = c.get f := by
  unfold Claims.word
  rw [BitVec.toNat_ofNat, Nat.mod_eq_of_lt (c.get_lt f)]

theorem Core.toNat_scalarB (c : Core) (w : Nat) : (Claims.scalarB c w).toNat = c.scalarB w := by
  unfold Claims.scalarB Core.scalarB
  split
  · exact (imm64_eq_immWord w).symm
  · exact c.toNat_word _

/-! ## The scalar operations -/

theorem toNat_mulhu (a b : Word) :
    (((a.setWidth 128 * b.setWidth 128) >>> 64).setWidth 64 : Word).toNat = a.toNat * b.toNat / 2 ^ 64 := by
  have hab : a.toNat * b.toNat < 2 ^ 64 * 2 ^ 64 := Nat.mul_lt_mul'' a.isLt b.isLt
  have ha : (a.setWidth 128).toNat = a.toNat := BitVec.toNat_setWidth_of_le (by decide)
  have hb : (b.setWidth 128).toNat = b.toNat := BitVec.toNat_setWidth_of_le (by decide)
  rw [BitVec.toNat_setWidth, BitVec.toNat_ushiftRight, BitVec.toNat_mul, ha, hb, Nat.shiftRight_eq_div_pow,
    Nat.mod_eq_of_lt (a := a.toNat * b.toNat) (by omega), Nat.mod_eq_of_lt (Nat.div_lt_of_lt_mul hab)]

theorem toNat_sshiftRight (a : Word) (n : Nat) : (a.sshiftRight n).toNat = wrapI 64 (a.toInt / 2 ^ n) := by
  rw [wrapI_eq_ofInt, ← BitVec.ofInt_toInt (x := a.sshiftRight n), BitVec.toInt_sshiftRight, Int.shiftRight_eq_div_pow]
  rfl

theorem toNat_boolWord (p : Bool) : (if p then 1 else 0 : Word).toNat = b2n p := by cases p <;> rfl

theorem slt_toNat (a b : Word) : a.slt b = decide (sext 64 a.toNat < sext 64 b.toNat) := by
  simp only [sext_toNat, BitVec.slt]

/-- The lesser and the greater of two words: which of two equal ones is taken makes no difference. -/
theorem smin_toNat (a b : Word) : smin 64 a.toNat b.toNat = (if a.slt b then a else b).toNat := by
  unfold smin
  rw [slt_toNat]
  simp only [sext_toNat, decide_eq_true_eq]
  rcases Int.lt_trichotomy a.toInt b.toInt with h | h | h
  · rw [if_neg (by omega), if_pos h]
  · rw [BitVec.eq_of_toInt_eq h]; simp
  · rw [if_pos h, if_neg (by omega)]

theorem smax_toNat (a b : Word) : smax 64 a.toNat b.toNat = (if a.slt b then b else a).toNat := by
  unfold smax
  rw [slt_toNat]
  simp only [decide_eq_true_eq]
  exact (apply_ite BitVec.toNat _ b a).symm

theorem mod_eq_toNat {n : Nat} {x : Word} (h : n = x.toNat) : n % 2 ^ 64 = x.toNat := by
  rw [h, Nat.mod_eq_of_lt x.isLt]

/-- Each scalar operation of two sources computes, modulo 2^64, the result that R135 names. -/
theorem scalarFn_eq : ∀ e ∈ Claims.scalarOps, ∀ a b : Word, scalarFn e.1 a.toNat b.toNat % 2 ^ 64 = (e.2.2 a b).toNat := by
  simp only [Claims.scalarOps, List.forall_mem_cons, List.not_mem_nil, false_implies, implies_true, and_true]
  refine ⟨?add, ?sub, ?mul, ?mulhu, ?and, ?or, ?xor, ?shl, ?shr, ?sar, ?slt, ?sltu, ?min, ?max⟩ <;> intro a b
  case add => exact (BitVec.toNat_add a b).symm
  case sub => rw [BitVec.toNat_sub, Nat.add_comm]; rfl
  case mul => exact (BitVec.toNat_mul a b).symm
  case mulhu => exact mod_eq_toNat (toNat_mulhu a b).symm
  case and => exact mod_eq_toNat (BitVec.toNat_and a b).symm
  case or => exact mod_eq_toNat (BitVec.toNat_or a b).symm
  case xor => exact mod_eq_toNat (BitVec.toNat_xor a b).symm
  case shl => rw [BitVec.toNat_shiftLeft, Nat.shiftLeft_eq]; rfl
  case shr => exact mod_eq_toNat ((BitVec.toNat_ushiftRight ..).trans (Nat.shiftRight_eq_div_pow ..)).symm
  case sar => exact mod_eq_toNat ((toNat_sshiftRight ..).trans (by rw [← sext_toNat]; rfl)).symm
  case slt => exact mod_eq_toNat ((congrArg b2n (slt_toNat a b)).symm.trans (toNat_boolWord _).symm)
  case sltu => exact mod_eq_toNat (toNat_boolWord (a.ult b)).symm
  case min => exact mod_eq_toNat (smin_toNat a b)
  case max => exact mod_eq_toNat (smax_toNat a b)

end Sys2Proof.Machine
end

section
/-! The control unit takes an instruction (R122, R134), and what an instruction that goes on leaves changed (R123, R159). -/

namespace Sys2Proof.Machine

/-! ## Issue -/

/-- An instruction word that the control unit may take does what its own row says. -/
theorem issue_of_issues {s : State} {k w cls op : Nat} (f : Nat → State → State) (hi : Claims.Issues s k w) (ho : Claims.Opcode w cls op)
    (hk : opKnown cls op = true) : s.issue k cls op f = f w s := by
  obtain ⟨⟨r, hr, hstop, hbuiltin, hpc⟩, hsync, hhalt, hheld, hue, hw⟩ := hi
  exact State.issue_takes f hr hstop hbuiltin hsync hhalt hheld hpc hue hw ho.1 ho.2 hk

theorem scalarOk_of_fields {w : Nat} (h : Claims.ScalarFields w) : scalarOk w = true := by
  obtain ⟨hd, ha, hb, hz⟩ := h
  have hb' : (bit w 35 || regOk (bits w 41 36)) = true := by
    cases hI : bit w 35
    · exact decide_eq_true (hb hI)
    · rfl
  unfold scalarOk
  rw [hb', hz, show regOk (bits w 53 48) = true from decide_eq_true hd, show regOk (bits w 47 42) = true from decide_eq_true ha]
  rfl

theorem branchOk_of_fields {w : Nat} (h : Claims.BranchFields w) : branchOk w = true := by
  obtain ⟨ha, hb, hz⟩ := h
  unfold branchOk
  rw [hz, show regOk (bits w 53 48) = true from decide_eq_true ha, show regOk (bits w 47 42) = true from decide_eq_true hb]
  rfl

theorem anyPend_of_notPending {c : Core} {fs : List Nat} (h : Claims.NotPending c fs) : c.anyPend fs = false := by
  unfold Core.anyPend
  rw [List.any_eq_false]
  intro f hf
  simpa using h f hf

/-! ## Completion -/

/-- A core's counters are no registers that decide where memory lies. -/
theorem memReg_of_coreCounters {s t : State} {k n o : Nat} (h : Claims.CoreCounters s t k n) (ho : memReg o) : t.reg o = s.reg o := by
  have hdone : o ≠ Reg.coreInstrDone k := memReg_core ho k 0x100
  have hissue : o ≠ Reg.coreIssueWait k := memReg_core ho k 0x108
  have hsync : o ≠ Reg.coreSyncWait k := memReg_core ho k 0x110
  rw [h o, if_neg hdone, if_neg hissue, if_neg hsync]

/-- Where the core changes in its registers, program counter and wait, the rest of the state in its own counters alone, memory reads as before. -/
theorem retires_of_parts {s t : State} {k pc : Nat} (hk : t.core k = { s.core k with regs := (t.core k).regs, pc := pc, waitAt := none })
    (hother : ∀ j, j ≠ k → t.core j = s.core j) (hrest : t = { s with cores := t.cores, regs := t.regs })
    (hcount : Claims.CoreCounters s t k 1) : Claims.Retires s t k pc := by
  have hmap : ∀ j, (t.core j).retired = (s.core j).retired ∧ (t.core j).run = (s.core j).run := by
    intro j
    by_cases hj : j = k
    · subst hj; rw [hk]; exact ⟨rfl, rfl⟩
    · rw [hother j hj]; exact ⟨rfl, rfl⟩
  refine ⟨hk, ⟨hrest, hother, memByte_congr ?_ ?_ ?_ ?_ (fun _ => memReg_of_coreCounters hcount) (fun j => (hmap j).1)
    (fun j => by rw [(hmap j).2])⟩, hcount⟩ <;> rw [hrest]

/-- An instruction that has issued and completed with control at `pc`. -/
theorem goesTo_done (s : State) (k pc : Nat) : Claims.GoesTo s ((s.issued k pc).instrDone k) k pc := by
  have hk : ((s.issued k pc).instrDone k).core k = { s.core k with pc := pc, waitAt := none } := s.issued_core k pc
  refine ⟨retires_of_parts ?_ (fun j hj => s.issued_core_other pc hj) ?_ (s.done_reg k pc), by rw [hk]⟩
  · rw [hk]
  · exact congrArg (fun u : State => { u with regs := ((s.issued k pc).instrDone k).regs }) (s.issued_rest k pc)

theorem goesTo_retire (s : State) (k : Nat) : Claims.GoesTo s (s.retire k) k ((s.core k).pc + 1) := goesTo_done s k _

/-- A write to a register of the core leaves its program counter, its run and its wait as they are. -/
theorem Core.put_fields (c : Core) (f v : Nat) :
    (c.put f v).pc = c.pc ∧ (c.put f v).run = c.run ∧ (c.put f v).waitAt = c.waitAt ∧ (c.put f v).cyc0 = c.cyc0 := by
  rw [Core.put_rest]
  exact ⟨rfl, rfl, rfl, rfl⟩

theorem waited_put (s : State) (k f v : Nat) (x : WaitFor) :
    Claims.waited (s.setCore k ((s.core k).put f v)) k x = Claims.waited s k x := by
  obtain ⟨-, -, hwait, hcyc⟩ := (s.core k).put_fields f v
  unfold Claims.waited State.cycles
  rw [State.core_setCore_same, hwait, hcyc]
  rfl

/-- An instruction that goes on after it has written its register: the core's own registers, its counters, and nothing else. -/
theorem retires_of_goesTo_put {s t : State} {k f v pc : Nat} (h : Claims.GoesTo (s.setCore k ((s.core k).put f v)) t k pc) :
    Claims.Retires s t k pc ∧ Claims.Writes s t k f (v % 2 ^ 64) := by
  obtain ⟨⟨hk, ⟨hrest, hother, -⟩, hcount⟩, hregs⟩ := h
  rw [State.core_setCore_same] at hk hregs
  refine ⟨retires_of_parts ?_ ?_ ?_ ?_, ?_⟩
  · rw [Core.put_rest] at hk; exact hk
  · intro j hj; rw [hother j hj, State.core_setCore_other _ _ hj]
  · exact hrest
  · intro o; have := hcount o; simpa only [waited_put, State.reg_setCore] using this
  · intro x
    have hget : (t.core k).get x = ((s.core k).put f v).get x := by unfold Core.get; rw [hregs]
    rw [hget, Core.get_put]

theorem put_retire (s : State) (k f v : Nat) :
    let t := (s.setCore k ((s.core k).put f v)).retire k
    Claims.Retires s t k ((s.core k).pc + 1) ∧ Claims.Writes s t k f (v % 2 ^ 64) := by
  have h := goesTo_retire (s.setCore k ((s.core k).put f v)) k
  rw [State.core_setCore_same, (Core.put_fields _ f v).1] at h
  exact retires_of_goesTo_put h

end Sys2Proof.Machine
end

section
/-! The scalar class (R135). -/

namespace Sys2Proof.Machine

/-- A scalar instruction that issues writes its result into `rd` and goes on. -/
theorem scalar_retires {s : State} {k w op : Nat} (useA useB : Bool) (f : Nat → Nat → Nat → Nat) (hi : Claims.Issues s k w)
    (ho : Claims.Opcode w 0 op) (hk : opKnown 0 op = true) (hf : Claims.ScalarFields w)
    (hp : Claims.NotPending (s.core k) (scalarRegs w useA useB)) :
    Claims.Retires s (s.scalar k op useA useB f) k ((s.core k).pc + 1) ∧
      Claims.Writes s (s.scalar k op useA useB f) k (bits w 53 48) (f ((s.core k).get (bits w 47 42)) ((s.core k).scalarB w) w % 2 ^ 64) := by
  have heq : s.scalar k op useA useB f =
      (s.setCore k ((s.core k).put (bits w 53 48) (f ((s.core k).get (bits w 47 42)) ((s.core k).scalarB w) w))).retire k := by
    unfold State.scalar
    rw [issue_of_issues _ hi ho hk]
    simp [scalarOk_of_fields hf, anyPend_of_notPending hp]
  rw [heq]
  exact put_retire ..

theorem exec_scalarOps : ∀ e ∈ Claims.scalarOps, ∀ (k : Fin 256) (s : State), exec (e.2.1 k) s = .next (s.scalar2 k e.1) := by
  simp only [Claims.scalarOps, List.forall_mem_cons, List.not_mem_nil, false_implies, implies_true, and_true]
  and_intros <;> intro k s <;> rfl

theorem scalarOps_known : ∀ e ∈ Claims.scalarOps, opKnown 0 e.1 = true := by decide

/-- The registers a scalar instruction of two sources reads and writes, as R135 lists them. -/
theorem scalarRegs_two (w : Nat) :
    scalarRegs w true true = [bits w 53 48, bits w 47 42] ++ if bit w 35 then [] else [bits w 41 36] := by
  unfold scalarRegs
  cases bit w 35 <;> rfl

theorem movhi_lt (a : Nat) (w : Nat) : bits w 31 0 * 2 ^ 32 + a % 2 ^ 32 < 2 ^ 64 := by
  have hw : bits w 31 0 < 2 ^ 32 := Nat.mod_lt _ (by decide)
  omega

theorem special_eq_getsValue (s : State) (k : Nat) (r : Run) (n : Nat) : s.special k r n = Claims.getsValue s k r n := rfl

theorem special_above_four (s : State) (k : Nat) (r : Run) : ∀ {n : Nat}, 5 ≤ n → s.special k r n = none
  | _ + 5, _ => rfl

/-- Settles O1: every scalar instruction retires with its write (`scalar_retires`, `scalarFn_eq`); GETS by its special values. -/
theorem scalarClassWritesResult : Obligations.ScalarClassWritesResult := by
  unfold Obligations.ScalarClassWritesResult
  refine ⟨?twoSources, ?movhi, ?gets, ?getsIllegal⟩
  case twoSources =>
    intro e he k s w hi ho hf hp
    rw [← scalarRegs_two] at hp
    refine ⟨_, exec_scalarOps e he k s, ?_⟩
    rw [← scalarFn_eq e he, Core.toNat_word, Core.toNat_scalarB]
    exact scalar_retires true true _ hi ho (scalarOps_known e he) hf hp
  case movhi =>
    intro k s w hi ho hf hp
    refine ⟨_, rfl, ?_⟩
    rw [Nat.add_comm (_ % _), ← Nat.mod_eq_of_lt (movhi_lt ((s.core k).get (bits w 47 42)) w)]
    exact scalar_retires true false (fun a _ w => bits w 31 0 * 2 ^ 32 + a % 2 ^ 32) hi ho rfl hf hp
  case gets =>
    intro k s w v r hi ho hf hr hp hv
    refine ⟨_, rfl, ?_⟩
    rw [issue_of_issues _ hi ho rfl]
    simp only [hr, Option.bind_some, special_eq_getsValue, hv, scalarOk_of_fields hf, anyPend_of_notPending hp]
    exact put_retire ..
  case getsIllegal =>
    intro k s w hi ho hn
    have ⟨⟨r, hr, _⟩, _⟩ := hi
    show Host.Outcome.next _ = _
    rw [issue_of_issues _ hi ho rfl]
    simp only [hr, Option.bind_some, special_above_four _ _ _ hn]

end Sys2Proof.Machine
end

section
/-! The branch class (R136, R137). -/

namespace Sys2Proof.Machine

theorem goto_inside {s : State} {k : Nat} {r : Run} (w : Nat) {x : Int} (hr : (s.core k).run = some r) (hx : 0 ≤ x ∧ x < r.len) :
    s.goto k w x = (s.issued k x.toNat).instrDone k := by
  simp only [State.goto, hr, if_pos hx]

theorem goto_outside {s : State} {k : Nat} {r : Run} (w : Nat) {x : Int} (hr : (s.core k).run = some r) (hx : ¬(0 ≤ x ∧ x < r.len)) :
    s.goto k w x = s.progFault k 6 w := by
  simp only [State.goto, hr, if_neg hx]

theorem goesTo_goto {s : State} {k : Nat} {r : Run} (w : Nat) {x : Int} (hr : (s.core k).run = some r) (hx : 0 ≤ x ∧ x < r.len) :
    Claims.GoesTo s (s.goto k w x) k x.toNat := by
  rw [goto_inside w hr hx]
  exact goesTo_done s k _

/-! ## Conditional branches -/

/-- Each conditional branch compares its two registers as R136 names it. -/
theorem branchTaken_eq : ∀ e ∈ Claims.branchOps, ∀ a b : Word, branchTaken e.1 a.toNat b.toNat = e.2.2 a b := by
  simp only [Claims.branchOps, List.forall_mem_cons, List.not_mem_nil, false_implies, implies_true, and_true]
  refine ⟨?beq, ?bne, ?blt, ?bge, ?bltu, ?bgeu⟩ <;> intro a b
  case beq => exact Bool.eq_iff_iff.2 (by simp [branchTaken, BitVec.toNat_inj])
  case bne => exact Bool.eq_iff_iff.2 (by simp [branchTaken, BitVec.toNat_inj])
  case blt => exact (slt_toNat a b).symm
  case bge => rw [slt_toNat, ← decide_not]; exact decide_eq_decide.2 Int.not_lt.symm
  case bltu => rfl
  case bgeu => exact (decide_eq_decide.2 Nat.not_lt.symm).trans decide_not

theorem exec_branchOps : ∀ e ∈ Claims.branchOps, ∀ (k : Fin 256) (s : State), exec (e.2.1 k) s = .next (s.branch k e.1) := by
  simp only [Claims.branchOps, List.forall_mem_cons, List.not_mem_nil, false_implies, implies_true, and_true]
  and_intros <;> intro k s <;> rfl

theorem branchOps_known : ∀ e ∈ Claims.branchOps, opKnown 1 e.1 = true := by decide

/-- A conditional branch that issues goes to its target where its comparison holds, and on where it does not. -/
theorem exec_branch {e : Nat × (Fin 256 → Instr) × (Word → Word → Bool)} (he : e ∈ Claims.branchOps) {k : Fin 256} {s : State} {w : Nat}
    (hi : Claims.Issues s k w) (ho : Claims.Opcode w 1 e.1) (hf : Claims.BranchFields w)
    (hp : Claims.NotPending (s.core k) [bits w 53 48, bits w 47 42]) :
    exec (e.2.1 k) s = .next (if e.2.2 (Claims.word (s.core k) (bits w 53 48)) (Claims.word (s.core k) (bits w 47 42)) then
      s.goto k w (Claims.branchTarget s k w) else s.retire k) := by
  rw [exec_branchOps e he, State.branch, issue_of_issues _ hi ho (branchOps_known e he), ← branchTaken_eq e he, Core.toNat_word,
    Core.toNat_word, Claims.branchTarget, ← sext_bits31]
  simp [branchOk_of_fields hf, anyPend_of_notPending hp]

/-! ## Jumps, TRAP and END -/

/-- JAL that issues: its register is written only when the jump is made. -/
theorem exec_jal {k : Fin 256} {s : State} {w : Nat} {r : Run} (hi : Claims.Issues s k w) (ho : Claims.Opcode w 1 0x08)
    (hf : Claims.BranchFields w) (hp : Claims.NotPending (s.core k) [bits w 53 48]) (hr : (s.core k).run = some r) :
    exec (.jal k) s = .next (if 0 ≤ Claims.branchTarget s k w ∧ Claims.branchTarget s k w < r.len then
      (s.setCore k ((s.core k).put (bits w 53 48) ((s.core k).pc + 1))).goto k w (Claims.branchTarget s k w) else s.progFault k 6 w) := by
  rw [Claims.branchTarget, ← sext_bits31]
  show Host.Outcome.next _ = _
  rw [issue_of_issues _ hi ho rfl]
  simp [branchOk_of_fields hf, anyPend_of_notPending hp, hr]

/-- JR that issues goes to ra + `off`, modulo 2^64. -/
theorem exec_jr {k : Fin 256} {s : State} {w : Nat} (hi : Claims.Issues s k w) (ho : Claims.Opcode w 1 0x09)
    (hf : Claims.BranchFields w) (hp : Claims.NotPending (s.core k) [bits w 53 48]) :
    exec (.jr k) s = .next (s.goto k w ((Claims.word (s.core k) (bits w 53 48) + Claims.immWord w).toNat : Nat)) := by
  rw [BitVec.toNat_add, Core.toNat_word, ← imm64_eq_immWord]
  show Host.Outcome.next _ = _
  rw [issue_of_issues _ hi ho rfl]
  simp [branchOk_of_fields hf, anyPend_of_notPending hp]

theorem exec_trap {k : Fin 256} {s : State} {w : Nat} (hi : Claims.Issues s k w) (ho : Claims.Opcode w 1 0x0E)
    (hf : Claims.BranchFields w) : exec (.trap k) s = .next (s.progFault k 7 w) := by
  show Host.Outcome.next _ = _
  rw [issue_of_issues _ hi ho rfl, branchOk_of_fields hf, if_pos rfl]

theorem drained_iff (c : Core) : c.drained = true ↔ c.outs = [] ∧ c.mxq = [] ∧ c.vxq = [] ∧ c.syncs = [] := by
  simp [Core.drained, and_assoc]

/-- END that issues, with nothing of the core's in flight and no dip of its own open. -/
theorem exec_endProg {k : Fin 256} {s : State} {w : Nat} (hi : Claims.Issues s k w) (ho : Claims.Opcode w 1 0x0F)
    (hf : Claims.BranchFields w) (hd : (s.core k).drained = true) (hdips : ∀ d ∈ s.dips, d.core ≠ k) :
    exec (.endProg k) s = .next (((s.endWait k).instrDone k).coreOver k) := by
  have hall : (s.dips.all fun d => d.core != k.val) = true := by simpa using hdips
  show Host.Outcome.next _ = _
  rw [issue_of_issues _ hi ho rfl]
  simp [branchOk_of_fields hf, hd, hall]

/-- A core whose part of the program is over runs nothing, and its LAUNCH counts it. -/
theorem coreOver_ends {s : State} {k : Nat} {r : Run} (hr : (s.core k).run = some r) :
    ((s.coreOver k).core k).run = none ∧ ((s.coreOver k).lrun r.launch).done = (s.lrun r.launch).done ++ [r.idx] := by
  simp [State.coreOver, hr]

theorem lrun_endWait (s : State) (k n : Nat) : (s.endWait k).lrun n = s.lrun n := by
  rw [State.endWait_rest]
  rfl

/-- Settles O2: where the word issues, each branch's outcome is an equation (`exec_branch`, `exec_jal`, `exec_jr`, `exec_trap`, `exec_endProg`);
control that goes on within the program is `goesTo_goto`. -/
theorem branchClassGoesWhereNamed : Obligations.BranchClassGoesWhereNamed := by
  unfold Obligations.BranchClassGoesWhereNamed
  refine ⟨?conditional, fun k s w r hi hf hp hr => ⟨?jal, ?jr, fun ho => exec_trap hi ho hf, ?endProg⟩⟩
  case conditional =>
    intro e he k s w r hi ho hf hp hr
    have hexec := exec_branch he hi ho hf hp
    refine ⟨fun hgo => ?_, fun hgo h0 hlen => ?_, fun hgo hout => ?_⟩ <;> rw [hgo] at hexec
    · exact ⟨_, hexec, goesTo_retire s k⟩
    · exact ⟨_, hexec, goesTo_goto w hr ⟨h0, hlen⟩⟩
    · exact hexec.trans (congrArg _ (goto_outside w hr hout))
  case jal =>
    intro ho
    have hexec := exec_jal hi ho hf hp hr
    refine ⟨fun h0 hlen => ?_, fun hout => hexec.trans (congrArg _ (if_neg hout))⟩
    rw [if_pos ⟨h0, hlen⟩] at hexec
    have hrun : ((s.setCore k ((s.core k).put (bits w 53 48) ((s.core k).pc + 1))).core k).run = some r := by
      rw [State.core_setCore_same, (Core.put_fields ..).2.1, hr]
    exact ⟨_, hexec, retires_of_goesTo_put (goesTo_goto w hrun ⟨h0, hlen⟩)⟩
  case jr =>
    intro ho
    have hexec := exec_jr hi ho hf hp
    refine ⟨fun hlen => ⟨_, hexec, goesTo_goto w hr ⟨Int.natCast_nonneg _, Int.ofNat_lt.2 hlen⟩⟩, fun hlen => ?_⟩
    exact hexec.trans (congrArg _ (goto_outside w hr fun h => Nat.not_lt.2 hlen (Int.ofNat_lt.1 h.2)))
  case endProg =>
    intro ho houts hmx hvx hsyncs hdips
    have hrun : (((s.endWait k).instrDone k).core k).run = some r := by
      rw [State.instrDone, State.incReg_eq, State.core_setReg, State.endWait_core]
      exact hr
    obtain ⟨hover, hdone⟩ := coreOver_ends hrun
    rw [State.instrDone, State.incReg_eq, State.lrun_setReg, lrun_endWait] at hdone
    exact ⟨_, exec_endProg hi ho hf ((drained_iff _).2 ⟨houts, hmx, hvx, hsyncs⟩) hdips, hover, hdone⟩

end Sys2Proof.Machine
end
